-- ==== Sys2Proof/Word.lean ====
section
/-!
DEFINITION. The word types of the Oltia 880 and their plainest arithmetic (02:R20). Widths are those the spec gives:
64-bit scalars, 32-bit lanes and syllables, 128-bit masks, 512-byte vectors held as 128 lanes.
-/

namespace Sys2Proof

abbrev W8 := BitVec 8
abbrev W16 := BitVec 16
abbrev W32 := BitVec 32
abbrev W64 := BitVec 64
abbrev W128 := BitVec 128

/-- A vector register: its 128 lanes in lane order (05:R90). A shorter list stands for lanes that read 0. -/
abbrev Lanes := List (BitVec 32)

/-- Lane `i` of a vector. -/
def lane (v : Lanes) (i : Nat) : W32 := v.getD i 0

/-- The lane numbers 0 to 127. -/
def laneIdx : List Nat := List.range 128

/-- A vector built lane by lane. -/
def mkLanes (f : Nat → W32) : Lanes := laneIdx.map f

/-- A Bool as a bit vector of width n. -/
def ofBool (n : Nat) (b : Bool) : BitVec n := if b then 1 else 0

end Sys2Proof
end

