-- ==== Sys2Proof/Syntax.lean ====
section
/-!
DEFINITION. The instruction set of the Oltia 880: one constructor for each row of spec/opcode_table.json.
Slot operations (03:R52 to R65) carry the fields that the table gives their row, named as the table names them, most
significant first, each at the width the table gives it. The other 99 are the events and commands that the table lists
without bits; where an event happens, and what the outside world supplies with it, is in the state (State.ev).
Lean's runtime gives a constructor with arguments a tag of at most 243, so 244 constructors can have arguments. The 17
slot operations with the fewest fields (a guard, one register, one window or one counter number) therefore have none
here: their fields are read from the syllable being executed, which the state holds (State.cur), through Operands.lean
(entry 11 of the log).
A register field keeps its number: which file a number names depends on the slot and on the context.
-/

namespace Sys2Proof


/-- The instructions: one constructor per row of the opcode table. -/
inductive Instr where
  /-- ADD (R111). -/
  | add (d : BitVec 5) (a : BitVec 6) (b : BitVec 6) (g : BitVec 3) (n : BitVec 1)
  /-- SUB (R111). -/
  | sub (d : BitVec 5) (a : BitVec 6) (b : BitVec 6) (g : BitVec 3) (n : BitVec 1)
  /-- MUL (R111). -/
  | mul (d : BitVec 5) (a : BitVec 6) (b : BitVec 6) (g : BitVec 3) (n : BitVec 1)
  /-- MULH (R111). -/
  | mulh (d : BitVec 5) (a : BitVec 6) (b : BitVec 6) (g : BitVec 3) (n : BitVec 1) (z : BitVec 1)
  /-- DIV (R112). -/
  | div (d : BitVec 5) (a : BitVec 6) (b : BitVec 6) (g : BitVec 3) (n : BitVec 1) (z : BitVec 1)
  /-- REM (R112). -/
  | rem (d : BitVec 5) (a : BitVec 6) (b : BitVec 6) (g : BitVec 3) (n : BitVec 1) (z : BitVec 1)
  /-- AND (R111). -/
  | and (d : BitVec 5) (a : BitVec 6) (b : BitVec 6) (g : BitVec 3) (n : BitVec 1)
  /-- OR (R111). -/
  | or (d : BitVec 5) (a : BitVec 6) (b : BitVec 6) (g : BitVec 3) (n : BitVec 1)
  /-- XOR (R111). -/
  | xor (d : BitVec 5) (a : BitVec 6) (b : BitVec 6) (g : BitVec 3) (n : BitVec 1)
  /-- ANDN (R111). -/
  | andn (d : BitVec 5) (a : BitVec 6) (b : BitVec 6) (g : BitVec 3) (n : BitVec 1)
  /-- SHL (R112). -/
  | shl (d : BitVec 5) (a : BitVec 6) (b : BitVec 6) (g : BitVec 3) (n : BitVec 1)
  /-- SHR (R112). -/
  | shr (d : BitVec 5) (a : BitVec 6) (b : BitVec 6) (g : BitVec 3) (n : BitVec 1) (z : BitVec 1)
  /-- ROT (R111). -/
  | rot (d : BitVec 5) (a : BitVec 6) (b : BitVec 6) (g : BitVec 3) (n : BitVec 1)
  /-- MIN (R111). -/
  | min (d : BitVec 5) (a : BitVec 6) (b : BitVec 6) (g : BitVec 3) (n : BitVec 1) (z : BitVec 1)
  /-- MAX (R111). -/
  | max (d : BitVec 5) (a : BitVec 6) (b : BitVec 6) (g : BitVec 3) (n : BitVec 1) (z : BitVec 1)
  /-- CLZ (R111). -/
  | clz (d : BitVec 5) (a : BitVec 6) (g : BitVec 3) (n : BitVec 1)
  /-- CTZ (R111). -/
  | ctz (d : BitVec 5) (a : BitVec 6) (g : BitVec 3) (n : BitVec 1)
  /-- POPC (R111). -/
  | popc (d : BitVec 5) (a : BitVec 6) (g : BitVec 3) (n : BitVec 1)
  /-- BSWAP (R111). -/
  | bswap (d : BitVec 5) (a : BitVec 6) (g : BitVec 3) (n : BitVec 1)
  /-- EXT (R113). -/
  | ext (d : BitVec 5) (a : BitVec 6) (b : BitVec 6) (g : BitVec 3) (n : BitVec 1) (z : BitVec 1)
  /-- INS (R113). -/
  | ins (d : BitVec 5) (a : BitVec 6) (b : BitVec 6) (g : BitVec 3) (n : BitVec 1)
  /-- SEL (R117). -/
  | sel (d : BitVec 5) (a : BitVec 6) (b : BitVec 6) (g : BitVec 3) (n : BitVec 1) (i : BitVec 3)
  /-- CMP (R116). -/
  | cmp (d : BitVec 3) (a : BitVec 6) (b : BitVec 6) (g : BitVec 3) (n : BitVec 1) (c : BitVec 3)
  /-- GAND (R117). -/
  | gand (d : BitVec 3) (a : BitVec 6) (b : BitVec 6) (g : BitVec 3) (n : BitVec 1) (o : BitVec 2)
  /-- ADDI (R114). -/
  | addi (d : BitVec 5) (a : BitVec 6) (i : BitVec 13)
  /-- ANDI (R114). -/
  | andi (d : BitVec 5) (a : BitVec 6) (i : BitVec 13)
  /-- ORI (R114). -/
  | ori (d : BitVec 5) (a : BitVec 6) (i : BitVec 13)
  /-- XORI (R114). -/
  | xori (d : BitVec 5) (a : BitVec 6) (i : BitVec 13)
  /-- SHLI (R114). -/
  | shli (d : BitVec 5) (a : BitVec 6) (c : BitVec 6)
  /-- SHRI (R114). -/
  | shri (d : BitVec 5) (a : BitVec 6) (c : BitVec 6)
  /-- CMPI (R116). -/
  | cmpi (c : BitVec 2) (d : BitVec 3) (a : BitVec 6) (i : BitVec 13)
  /-- MOVI (R114). -/
  | movi (d : BitVec 5) (i : BitVec 13)
  /-- MOVL (R115). -/
  | movl (d : BitVec 5)
  /-- MOVLH (R115). -/
  | movlh (d : BitVec 5) (a : BitVec 6)
  /-- ADDL (R115). -/
  | addl (d : BitVec 5) (a : BitVec 6)
  /-- BR (R118). -/
  | br (g : BitVec 3) (n : BitVec 1) (p : BitVec 20)
  /-- CALL (R118). -/
  | call (g : BitVec 3) (n : BitVec 1) (p : BitVec 20)
  /-- BRI (R118). -/
  | bri (d : BitVec 5) (a : BitVec 6) (g : BitVec 3) (n : BitVec 1)
  /-- LOOP (R122). -/
  | loop (a : BitVec 6) (n : BitVec 10)
  /-- NOPC (R125). -/
  | nopc (n : BitVec 13)
  /-- REALIGN (R314). -/
  | realign (n : BitVec 6)
  /-- SETFMT (R105). -/
  | setfmt (a : BitVec 6) (g : BitVec 3) (n : BitVec 1)
  /-- SETCL (R105). -/
  | setcl (a : BitVec 6) (g : BitVec 3) (n : BitVec 1)
  /-- VMSEL (R105). -/
  | vmsel (i : BitVec 3) (g : BitVec 3) (n : BitVec 1) (v : BitVec 1)
  /-- PHPRED (R308). -/
  | phpred (a : BitVec 6) (g : BitVec 3) (n : BitVec 1) (o : BitVec 2)
  /-- SIGNOFF (R306). -/
  | signoff (a : BitVec 6) (b : BitVec 6) (g : BitVec 3) (n : BitVec 1)
  /-- TLREAD_V (R279). -/
  | tlreadV (d : BitVec 5) (a : BitVec 6) (g : BitVec 3) (n : BitVec 1)
  /-- TLWAIT (R280). -/
  | tlwait (a : BitVec 6) (b : BitVec 6) (g : BitVec 3) (n : BitVec 1)
  /-- TLARM (R281). -/
  | tlarm (a : BitVec 6) (b : BitVec 6) (g : BitVec 3) (n : BitVec 1)
  /-- QBIND (R287). -/
  | qbind (i : BitVec 2) (a : BitVec 6) (g : BitVec 3) (n : BitVec 1)
  /-- GTIME (R127). -/
  | gtime (d : BitVec 5) (g : BitVec 3) (n : BitVec 1) (s : BitVec 3)
  /-- CSRR (R128). -/
  | csrr (d : BitVec 5) (a : BitVec 6) (g : BitVec 3) (n : BitVec 1)
  /-- CSRW (R128). -/
  | csrw (a : BitVec 6) (b : BitVec 6) (g : BitVec 3) (n : BitVec 1)
  /-- PUTK (R107). -/
  | putk (a : BitVec 6) (g : BitVec 3) (n : BitVec 1)
  /-- RKEY (R381). -/
  | rkey (a : BitVec 6) (b : BitVec 6) (g : BitVec 3) (n : BitVec 1) (k : BitVec 2)
  /-- RKEY_S (R381). -/
  | rkeyS (a : BitVec 6) (b : BitVec 6) (g : BitVec 3) (n : BitVec 1) (k : BitVec 2)
  /-- RCTR (R381). -/
  | rctr (a : BitVec 6) (b : BitVec 6) (g : BitVec 3) (n : BitVec 1) (k : BitVec 2)
  /-- RCTR_RD (R381). -/
  | rctrRd (d : BitVec 5) (a : BitVec 6) (g : BitVec 3) (n : BitVec 1) (k : BitVec 2)
  /-- RSKIP (R381). -/
  | rskip (a : BitVec 6) (b : BitVec 6) (g : BitVec 3) (n : BitVec 1) (k : BitVec 2)
  /-- RDRAW (R381). -/
  | rdraw (d : BitVec 5) (g : BitVec 3) (n : BitVec 1) (k : BitVec 2)
  /-- STOV (R107). -/
  | stov (d : BitVec 5) (a : BitVec 6) (g : BitVec 3) (n : BitVec 1) (v : BitVec 1)
  /-- STOM (R107). -/
  | stom (d : BitVec 5) (a : BitVec 6) (g : BitVec 3) (n : BitVec 1)
  /-- TRAP (R392). -/
  | trap (a : BitVec 6) (g : BitVec 3) (n : BitVec 1)
  /-- PREEMPT (R394). -/
  | preempt (d : BitVec 5) (a : BitVec 6) (b : BitVec 6) (g : BitVec 3) (n : BitVec 1)
  /-- LAUNCH (R366). -/
  | launch (d : BitVec 5) (a : BitVec 6) (b : BitVec 6) (g : BitVec 3) (n : BitVec 1)
  /-- PHLOAD (R302). -/
  | phload (d : BitVec 5) (a : BitVec 6) (b : BitVec 6) (g : BitVec 3) (n : BitVec 1)
  /-- SAVECTX (R398). -/
  | savectx (d : BitVec 5) (a : BitVec 6) (b : BitVec 6) (g : BitVec 3) (n : BitVec 1)
  /-- RESTCTX (R400). -/
  | restctx (d : BitVec 5) (a : BitVec 6) (b : BitVec 6) (g : BitVec 3) (n : BitVec 1)
  /-- FCST (R317). -/
  | fcst (a : BitVec 6) (g : BitVec 3) (n : BitVec 1)
  /-- WATCH_ARM (R295). -/
  | watchArm (d : BitVec 5) (a : BitVec 6) (b : BitVec 6) (g : BitVec 3) (n : BitVec 1)
  /-- WATCH_DIS (R295). -/
  | watchDis (a : BitVec 6) (g : BitVec 3) (n : BitVec 1)
  /-- MCODE (R270). -/
  | mcode (d : BitVec 5) (a : BitVec 6) (b : BitVec 6) (g : BitVec 3) (n : BitVec 1)
  /-- TLBINV_PAGE (R232). -/
  | tlbinvPage (a : BitVec 6) (g : BitVec 3) (n : BitVec 1)
  /-- REPAIR (R410). -/
  | repair (d : BitVec 5) (a : BitVec 6) (b : BitVec 6) (g : BitVec 3) (n : BitVec 1)
  /-- HOSTIRQ (R406). -/
  | hostirq (a : BitVec 6) (g : BitVec 3) (n : BitVec 1)
  /-- VADD (R139). -/
  | vadd (w : BitVec 1) (d : BitVec 5) (a : BitVec 6) (b : BitVec 6)
  /-- VSUB (R139). -/
  | vsub (w : BitVec 1) (d : BitVec 5) (a : BitVec 6) (b : BitVec 6)
  /-- VMUL (R139). -/
  | vmul (w : BitVec 1) (d : BitVec 5) (a : BitVec 6) (b : BitVec 6)
  /-- VMULHI (R139). -/
  | vmulhi (w : BitVec 1) (d : BitVec 5) (a : BitVec 6) (b : BitVec 6)
  /-- VMULHZ (R139). -/
  | vmulhz (w : BitVec 1) (d : BitVec 5) (a : BitVec 6) (b : BitVec 6)
  /-- VMAD (R139). -/
  | vmad (w : BitVec 1) (d : BitVec 5) (a : BitVec 6) (b : BitVec 6) (c : BitVec 6)
  /-- VAND (R139). -/
  | vand (w : BitVec 1) (d : BitVec 5) (a : BitVec 6) (b : BitVec 6)
  /-- VOR (R139). -/
  | vor (w : BitVec 1) (d : BitVec 5) (a : BitVec 6) (b : BitVec 6)
  /-- VXOR (R139). -/
  | vxor (w : BitVec 1) (d : BitVec 5) (a : BitVec 6) (b : BitVec 6)
  /-- VANDN (R139). -/
  | vandn (w : BitVec 1) (d : BitVec 5) (a : BitVec 6) (b : BitVec 6)
  /-- VSHL (R140). -/
  | vshl (w : BitVec 1) (d : BitVec 5) (a : BitVec 6) (b : BitVec 6)
  /-- VSHRI (R140). -/
  | vshri (w : BitVec 1) (d : BitVec 5) (a : BitVec 6) (b : BitVec 6)
  /-- VSHRZ (R140). -/
  | vshrz (w : BitVec 1) (d : BitVec 5) (a : BitVec 6) (b : BitVec 6)
  /-- VMINI (R139). -/
  | vmini (w : BitVec 1) (d : BitVec 5) (a : BitVec 6) (b : BitVec 6)
  /-- VMINZ (R139). -/
  | vminz (w : BitVec 1) (d : BitVec 5) (a : BitVec 6) (b : BitVec 6)
  /-- VMAXI (R139). -/
  | vmaxi (w : BitVec 1) (d : BitVec 5) (a : BitVec 6) (b : BitVec 6)
  /-- VMAXZ (R139). -/
  | vmaxz (w : BitVec 1) (d : BitVec 5) (a : BitVec 6) (b : BitVec 6)
  /-- VABSI (R140). -/
  | vabsi (w : BitVec 1) (d : BitVec 5) (a : BitVec 6)
  /-- VCLZ (R139). -/
  | vclz (w : BitVec 1) (d : BitVec 5) (a : BitVec 6)
  /-- VPOPC (R139). -/
  | vpopc (w : BitVec 1) (d : BitVec 5) (a : BitVec 6)
  /-- VADDSI (R139). -/
  | vaddsi (w : BitVec 1) (d : BitVec 5) (a : BitVec 6) (b : BitVec 6)
  /-- VSUBSI (R139). -/
  | vsubsi (w : BitVec 1) (d : BitVec 5) (a : BitVec 6) (b : BitVec 6)
  /-- VCMPI (R141). -/
  | vcmpi (w : BitVec 1) (d : BitVec 5) (a : BitVec 6) (b : BitVec 6)
  /-- VSEL (R141). -/
  | vsel (w : BitVec 1) (d : BitVec 5) (a : BitVec 6) (b : BitVec 6) (c : BitVec 6)
  /-- VFADD (R142). -/
  | vfadd (w : BitVec 1) (d : BitVec 5) (a : BitVec 6) (b : BitVec 6)
  /-- VFSUB (R142). -/
  | vfsub (w : BitVec 1) (d : BitVec 5) (a : BitVec 6) (b : BitVec 6)
  /-- VFMUL (R142). -/
  | vfmul (w : BitVec 1) (d : BitVec 5) (a : BitVec 6) (b : BitVec 6)
  /-- VFMA (R143). -/
  | vfma (w : BitVec 1) (d : BitVec 5) (a : BitVec 6) (b : BitVec 6) (c : BitVec 6)
  /-- VFMS (R143). -/
  | vfms (w : BitVec 1) (d : BitVec 5) (a : BitVec 6) (b : BitVec 6) (c : BitVec 6)
  /-- VFNMA (R143). -/
  | vfnma (w : BitVec 1) (d : BitVec 5) (a : BitVec 6) (b : BitVec 6) (c : BitVec 6)
  /-- VFMIN (R147). -/
  | vfmin (w : BitVec 1) (d : BitVec 5) (a : BitVec 6) (b : BitVec 6)
  /-- VFMAX (R147). -/
  | vfmax (w : BitVec 1) (d : BitVec 5) (a : BitVec 6) (b : BitVec 6)
  /-- VFABS (R147). -/
  | vfabs (w : BitVec 1) (d : BitVec 5) (a : BitVec 6)
  /-- VFNEG (R147). -/
  | vfneg (w : BitVec 1) (d : BitVec 5) (a : BitVec 6)
  /-- VFCMP (R145). -/
  | vfcmp (w : BitVec 1) (d : BitVec 5) (a : BitVec 6) (b : BitVec 6)
  /-- VFCLASS (R145). -/
  | vfclass (w : BitVec 1) (d : BitVec 5) (a : BitVec 6)
  /-- VFSCALE (R146). -/
  | vfscale (w : BitVec 1) (d : BitVec 5) (a : BitVec 6) (b : BitVec 6)
  /-- VFDIV (R144). -/
  | vfdiv (w : BitVec 1) (d : BitVec 5) (a : BitVec 6) (b : BitVec 6)
  /-- VFSQRT (R144). -/
  | vfsqrt (w : BitVec 1) (d : BitVec 5) (a : BitVec 6)
  /-- VADD2 (R148). -/
  | vadd2 (d : BitVec 4) (a : BitVec 6) (b : BitVec 6)
  /-- VSUB2 (R148). -/
  | vsub2 (d : BitVec 4) (a : BitVec 6) (b : BitVec 6)
  /-- VMUL2 (R148). -/
  | vmul2 (d : BitVec 4) (a : BitVec 6) (b : BitVec 6)
  /-- DWADD (R150). -/
  | dwadd (d : BitVec 4) (a : BitVec 4) (b : BitVec 4)
  /-- DWADDS (R150). -/
  | dwadds (d : BitVec 4) (a : BitVec 4) (b : BitVec 6)
  /-- DWMUL (R150). -/
  | dwmul (d : BitVec 4) (a : BitVec 4) (b : BitVec 4)
  /-- DWMULS (R150). -/
  | dwmuls (d : BitVec 4) (a : BitVec 4) (b : BitVec 6)
  /-- DWNORM (R153). -/
  | dwnorm (d : BitVec 4) (a : BitVec 4)
  /-- DWCVT (R153). -/
  | dwcvt (w : BitVec 1) (d : BitVec 5) (a : BitVec 4)
  /-- VRSUM2 (R154). -/
  | vrsum2 (d : BitVec 4) (a : BitVec 6)
  /-- VRSUM (R154). -/
  | vrsum (w : BitVec 1) (d : BitVec 5) (a : BitVec 6)
  /-- VRMAX (R154). -/
  | vrmax (w : BitVec 1) (d : BitVec 5) (a : BitVec 6)
  /-- VRMIN (R154). -/
  | vrmin (w : BitVec 1) (d : BitVec 5) (a : BitVec 6)
  /-- VPADD (R159). -/
  | vpadd (w : BitVec 1) (d : BitVec 5) (a : BitVec 6) (b : BitVec 6)
  /-- VPSUB (R159). -/
  | vpsub (w : BitVec 1) (d : BitVec 5) (a : BitVec 6) (b : BitVec 6)
  /-- VPMUL (R159). -/
  | vpmul (w : BitVec 1) (d : BitVec 5) (a : BitVec 6) (b : BitVec 6)
  /-- VPFMA (R160). -/
  | vpfma (w : BitVec 1) (d : BitVec 5) (a : BitVec 6) (b : BitVec 6) (c : BitVec 6)
  /-- VPMIN (R159). -/
  | vpmin (w : BitVec 1) (d : BitVec 5) (a : BitVec 6) (b : BitVec 6)
  /-- VPMAX (R159). -/
  | vpmax (w : BitVec 1) (d : BitVec 5) (a : BitVec 6) (b : BitVec 6)
  /-- VPDOT (R162). -/
  | vpdot (w : BitVec 1) (d : BitVec 5) (a : BitVec 6) (b : BitVec 6) (c : BitVec 6)
  /-- VPCMP (R163). -/
  | vpcmp (w : BitVec 1) (d : BitVec 5) (a : BitVec 6) (b : BitVec 6)
  /-- VCVT (R164). -/
  | vcvt (w : BitVec 1) (d : BitVec 5) (a : BitVec 6) (t : BitVec 4) (s : BitVec 4)
  /-- VCVTP2_N (R166). -/
  | vcvtp2N (w : BitVec 1) (d : BitVec 5) (a : BitVec 6) (p : BitVec 1) (c : BitVec 6)
  /-- VCVTP2_W (R166). -/
  | vcvtp2W (w : BitVec 1) (d : BitVec 5) (a : BitVec 6) (p : BitVec 1) (c : BitVec 6)
  /-- VCVTP4_N (R166). -/
  | vcvtp4N (w : BitVec 1) (d : BitVec 5) (a : BitVec 6) (p : BitVec 2) (c : BitVec 6)
  /-- VCVTP4_W (R166). -/
  | vcvtp4W (w : BitVec 1) (d : BitVec 5) (a : BitVec 6) (p : BitVec 2) (c : BitVec 6)
  /-- VCVTP8_N (R166). -/
  | vcvtp8N (w : BitVec 1) (d : BitVec 5) (a : BitVec 6) (p : BitVec 3) (c : BitVec 6)
  /-- VCVTP8_W (R166). -/
  | vcvtp8W (w : BitVec 1) (d : BitVec 5) (a : BitVec 6) (p : BitVec 3) (c : BitVec 6)
  /-- VQNT (R168). -/
  | vqnt (w : BitVec 1) (d : BitVec 5) (a : BitVec 6) (b : BitVec 6) (p : BitVec 3)
  /-- VQDIV (R168). -/
  | vqdiv (w : BitVec 1) (d : BitVec 5) (a : BitVec 6) (b : BitVec 6) (p : BitVec 3)
  /-- VDEQ (R167). -/
  | vdeq (w : BitVec 1) (d : BitVec 5) (a : BitVec 6) (b : BitVec 6) (p : BitVec 3)
  /-- VMXPACK_SCALE (R169). -/
  | vmxpackScale (w : BitVec 1) (d : BitVec 5) (a : BitVec 6) (c : BitVec 6)
  /-- VMXPACK_ASCALE (R169). -/
  | vmxpackAscale (w : BitVec 1) (d : BitVec 5) (a : BitVec 6) (c : BitVec 6)
  /-- VMXPACK_PUTP (R169). -/
  | vmxpackPutp (w : BitVec 1) (d : BitVec 5) (a : BitVec 6) (p : BitVec 3) (c : BitVec 6)
  /-- VMXUNP (R170). -/
  | vmxunp (w : BitVec 1) (d : BitVec 5) (a : BitVec 6) (p : BitVec 3) (c : BitVec 6)
  /-- VFTOI (R165). -/
  | vftoi (w : BitVec 1) (d : BitVec 5) (a : BitVec 6) (z : BitVec 1)
  /-- VITOF (R165). -/
  | vitof (w : BitVec 1) (d : BitVec 5) (a : BitVec 6) (z : BitVec 1)
  /-- VRCP (R181). -/
  | vrcp (w : BitVec 1) (d : BitVec 5) (a : BitVec 6)
  /-- VRSQ (R181). -/
  | vrsq (w : BitVec 1) (d : BitVec 5) (a : BitVec 6)
  /-- VEXP2 (R181). -/
  | vexp2 (w : BitVec 1) (d : BitVec 5) (a : BitVec 6)
  /-- VLOG2 (R181). -/
  | vlog2 (w : BitVec 1) (d : BitVec 5) (a : BitVec 6)
  /-- VSIN (R187). -/
  | vsin (w : BitVec 1) (d : BitVec 5) (a : BitVec 6)
  /-- VCOS (R187). -/
  | vcos (w : BitVec 1) (d : BitVec 5) (a : BitVec 6)
  /-- VTANH (R186). -/
  | vtanh (w : BitVec 1) (d : BitVec 5) (a : BitVec 6)
  /-- VSIGM (R186). -/
  | vsigm (w : BitVec 1) (d : BitVec 5) (a : BitVec 6)
  /-- VEXP (R186). -/
  | vexp (w : BitVec 1) (d : BitVec 5) (a : BitVec 6)
  /-- VPERM (R172). -/
  | vperm (w : BitVec 1) (d : BitVec 5) (a : BitVec 6) (b : BitVec 6) (c : BitVec 6)
  /-- VBCAST (R172). -/
  | vbcast (w : BitVec 1) (d : BitVec 5) (a : BitVec 6) (p : BitVec 4)
  /-- XCL (R173). -/
  | xcl (w : BitVec 1) (d : BitVec 5) (a : BitVec 6) (u : BitVec 1) (s : BitVec 3)
  /-- XCLB (R173). -/
  | xclb (w : BitVec 1) (d : BitVec 5) (a : BitVec 6) (s : BitVec 3) (c : BitVec 3)
  /-- XRED (R156). -/
  | xred (w : BitVec 1) (d : BitVec 5) (a : BitVec 6) (k : BitVec 2)
  /-- XCOPY (R108). -/
  | xcopy (w : BitVec 1) (d : BitVec 5) (a : BitVec 6)
  /-- VMOV (R172). -/
  | vmov (w : BitVec 1) (d : BitVec 5) (a : BitVec 6)
  /-- VMOVI (R172). -/
  | vmovi (w : BitVec 1) (d : BitVec 5)
  /-- VTOS (R108). -/
  | vtos (d : BitVec 5) (a : BitVec 6) (b : BitVec 6)
  /-- VTREE (R176). -/
  | vtree (w : BitVec 1) (d : BitVec 5) (a : BitVec 6)
  /-- VMOP_TEST (R175). -/
  | vmopTest (a : BitVec 6) (i : BitVec 3) (b : BitVec 6)
  /-- VMOP_NZ (R175). -/
  | vmopNz (a : BitVec 6) (i : BitVec 3)
  /-- VMOP_GET (R175). -/
  | vmopGet (w : BitVec 1) (d : BitVec 5) (i : BitVec 3)
  /-- VMOP_AND (R175). -/
  | vmopAnd (i : BitVec 3) (j : BitVec 3)
  /-- VMOP_OR (R175). -/
  | vmopOr (i : BitVec 3) (j : BitVec 3)
  /-- VMOP_XOR (R175). -/
  | vmopXor (i : BitVec 3) (j : BitVec 3)
  /-- VMOP_NOT (R175). -/
  | vmopNot (i : BitVec 3) (j : BitVec 3)
  /-- VIOTA (R174). -/
  | viota (w : BitVec 1) (d : BitVec 5) (a : BitVec 6) (s : BitVec 12)
  /-- VRAND (R382). -/
  | vrand (w : BitVec 1) (d : BitVec 5) (s : BitVec 2) (k : BitVec 2)
  /-- VRAND_A (R382). -/
  | vrandA (w : BitVec 1) (d : BitVec 5) (s : BitVec 2) (k : BitVec 2)
  /-- VCOUNT (R174). -/
  | vcount (w : BitVec 1) (d : BitVec 5) (a : BitVec 6)
  /-- VSCAN (R174). -/
  | vscan (w : BitVec 1) (d : BitVec 5) (a : BitVec 6) (k : BitVec 2)
  /-- VPUTK (R108). -/
  | vputk (a : BitVec 6) (b : BitVec 6)
  /-- MSET (R248). -/
  | mset (d : BitVec 3)
  /-- MCALL (R261). -/
  | mcall (i : BitVec 9)
  /-- MLOADS (R249). -/
  | mloads (a : BitVec 6) (x : BitVec 6)
  /-- MSTREAM (R252). -/
  | mstream (s : BitVec 6) (r : BitVec 6) (n : BitVec 8) (z : BitVec 1)
  /-- MEXP (R253). -/
  | mexp (e : BitVec 6)
  /-- MDRAIN (R255). -/
  | mdrain (d : BitVec 6) (r : BitVec 6) (n : BitVec 8) (k : BitVec 1)
  /-- MEPI_COL (R254). -/
  | mepiCol (a : BitVec 6)
  /-- MEPI_ROW (R254). -/
  | mepiRow (a : BitVec 6)
  /-- MEPI_CFG (R254). -/
  | mepiCfg (a : BitVec 6)
  /-- MCLR (R256). -/
  | mclr (r : BitVec 6) (n : BitVec 8)
  /-- MSPMETA (R250). -/
  | mspmeta (a : BitVec 6)
  /-- MACC (R257). -/
  | macc (d : BitVec 6) (r : BitVec 6) (n : BitVec 7)
  /-- MSTAT (R259). -/
  | mstat (d : BitVec 3) (s : BitVec 3)
  /-- LDB (R200). -/
  | ldb (f : BitVec 3) (r : BitVec 5) (b : BitVec 4) (o : BitVec 12)
  /-- LDH (R200). -/
  | ldh (f : BitVec 3) (r : BitVec 5) (b : BitVec 4) (o : BitVec 12)
  /-- LDW (R200). -/
  | ldw (f : BitVec 3) (r : BitVec 5) (b : BitVec 4) (o : BitVec 12)
  /-- LDD (R200). -/
  | ldd (f : BitVec 3) (r : BitVec 5) (b : BitVec 4) (o : BitVec 12)
  /-- STB (R200). -/
  | stb (f : BitVec 3) (r : BitVec 5) (b : BitVec 4) (o : BitVec 12)
  /-- STH (R200). -/
  | sth (f : BitVec 3) (r : BitVec 5) (b : BitVec 4) (o : BitVec 12)
  /-- STW (R200). -/
  | stw (f : BitVec 3) (r : BitVec 5) (b : BitVec 4) (o : BitVec 12)
  /-- STD (R200). -/
  | std (f : BitVec 3) (r : BitVec 5) (b : BitVec 4) (o : BitVec 12)
  /-- LDV (R200). -/
  | ldv (f : BitVec 3) (r : BitVec 5) (b : BitVec 4) (o : BitVec 12)
  /-- STV (R200). -/
  | stv (f : BitVec 3) (r : BitVec 5) (b : BitVec 4) (o : BitVec 12)
  /-- LDVB (R200). -/
  | ldvb (f : BitVec 3) (r : BitVec 5) (b : BitVec 4) (o : BitVec 12)
  /-- LDG (R202). -/
  | ldg (f : BitVec 1) (d : BitVec 5) (i : BitVec 5) (b : BitVec 4)
  /-- STG (R202). -/
  | stg (f : BitVec 1) (d : BitVec 5) (i : BitVec 5) (b : BitVec 4)
  /-- CSTV (R203). -/
  | cstv (f : BitVec 1) (d : BitVec 5) (v : BitVec 5) (b : BitVec 4) (o : BitVec 9)
  /-- LDP (R200). -/
  | ldp (f : BitVec 3) (r : BitVec 4) (b : BitVec 4) (o : BitVec 12)
  /-- STP (R200). -/
  | stp (f : BitVec 3) (r : BitVec 4) (b : BitVec 4) (o : BitVec 12)
  /-- ADDA (R201). -/
  | adda (r : BitVec 4) (b : BitVec 4)
  /-- MOVA (R109). -/
  | mova (f : BitVec 3) (r : BitVec 5) (b : BitVec 4) (x : BitVec 1)
  /-- FENCE (R208). -/
  | fence (s : BitVec 3) (k : BitVec 2)
  /-- STREL (R209). -/
  | strel (f : BitVec 3) (r : BitVec 5) (b : BitVec 4) (o : BitVec 12)
  /-- LDACQ (R209). -/
  | ldacq (f : BitVec 3) (r : BitVec 5) (b : BitVec 4) (o : BitVec 12)
  /-- ATADD (R205). -/
  | atadd (f : BitVec 3) (r : BitVec 5) (b : BitVec 4) (o : BitVec 12)
  /-- ATMIN (R205). -/
  | atmin (f : BitVec 3) (r : BitVec 5) (b : BitVec 4) (o : BitVec 12)
  /-- ATMAX (R205). -/
  | atmax (f : BitVec 3) (r : BitVec 5) (b : BitVec 4) (o : BitVec 12)
  /-- ATAND (R205). -/
  | atand (f : BitVec 3) (r : BitVec 5) (b : BitVec 4) (o : BitVec 12)
  /-- ATOR (R205). -/
  | ator (f : BitVec 3) (r : BitVec 5) (b : BitVec 4) (o : BitVec 12)
  /-- ATSWP (R205). -/
  | atswp (f : BitVec 3) (r : BitVec 5) (b : BitVec 4) (o : BitVec 12)
  /-- ATCAS (R206). -/
  | atcas (d : BitVec 5) (w : BitVec 5) (b : BitVec 4) (o : BitVec 10)
  /-- ATFADD (R205). -/
  | atfadd (f : BitVec 3) (r : BitVec 5) (b : BitVec 4) (o : BitVec 12)
  /-- ATBADD (R207). -/
  | atbadd (f : BitVec 3) (r : BitVec 5) (b : BitVec 4) (o : BitVec 12)
  /-- BINRD (R207). -/
  | binrd (f : BitVec 3) (r : BitVec 5) (b : BitVec 4) (o : BitVec 12)
  /-- BININIT (R207). -/
  | bininit (f : BitVec 3) (r : BitVec 5) (b : BitVec 4) (o : BitVec 12)
  /-- QRESV (R291). -/
  | qresv (c : BitVec 4) (k : BitVec 8) (t : BitVec 4)
  /-- QPUSH (R291). -/
  | qpush (c : BitVec 4) (f : BitVec 3) (r : BitVec 5) (t : BitVec 4)
  /-- QSTAT (R294). -/
  | qstat (c : BitVec 4) (f : BitVec 3) (r : BitVec 5) (s : BitVec 2)
  /-- WOPEN (R218). -/
  | wopen (w : BitVec 2) (b : BitVec 4) (o : BitVec 12)
  /-- WADV (R219). -/
  | wadv (w : BitVec 2) (k : BitVec 7)
  /-- WSTAT (R222). -/
  | wstat (w : BitVec 2) (f : BitVec 3) (r : BitVec 5)
  /-- TXSEND (R335). -/
  | txsend (c : BitVec 4) (b : BitVec 4) (o : BitVec 16)
  /-- TXCOPY (R335). -/
  | txcopy (c : BitVec 4) (b : BitVec 4) (o : BitVec 16)
  /-- RXARM (R338). -/
  | rxarm (f : BitVec 3) (r : BitVec 5)
  /-- RXFLAG (R339). -/
  | rxflag (f : BitVec 3) (r : BitVec 5) (t : BitVec 16)
  /-- MCSTO (R342). -/
  | mcsto (c : BitVec 4) (b : BitVec 4) (o : BitVec 16)
  /-- MCAPPL_RD (R344). -/
  | mcapplRd (f : BitVec 3) (r : BitVec 5)
  /-- MCJOIN_JOIN (R345). -/
  | mcjoinJoin (c : BitVec 4) (f : BitVec 3) (r : BitVec 5)
  /-- MCJOIN_LEAVE (R345). -/
  | mcjoinLeave (c : BitVec 4) (f : BitVec 3) (r : BitVec 5)
  /-- RATOM (R347). -/
  | ratom (c : BitVec 4) (b : BitVec 4) (o : BitVec 16)
  /-- RLOAD (R349). -/
  | rload (c : BitVec 4) (b : BitVec 4) (o : BitVec 16)
  /-- NOP (R65). -/
  | nop
  /-- RET (R118). -/
  | ret
  /-- HALT (R126). -/
  | halt
  /-- GETFMT (R105). -/
  | getfmt
  /-- TLREAD_E (R279). -/
  | tlreadE
  /-- TLREAD_EC (R279). -/
  | tlreadEc
  /-- ERET (R393). -/
  | eret
  /-- ERET_REPLAY (R393). -/
  | eretReplay
  /-- ERET_FAIL (R393). -/
  | eretFail
  /-- TLBINV_ALL (R232). -/
  | tlbinvAll
  /-- MSWAP (R251). -/
  | mswap
  /-- MTAINT_CLR (R258). -/
  | mtaintClr
  /-- MTAINT_SET (R258). -/
  | mtaintSet
  /-- WCLOSE (R220). -/
  | wclose
  /-- WRES_RETRY (R221). -/
  | wresRetry
  /-- WRES_FAIL (R221). -/
  | wresFail
  /-- WFLUSH (R220). -/
  | wflush
  /-- TXWALK (R336). -/
  | txwalk
  /-- TXRES_RETRY (R333). -/
  | txresRetry
  /-- TXRES_FAIL (R333). -/
  | txresFail
  /-- MCAPPL_BIND (R344). -/
  | mcapplBind
  /-- MCAPPL_UNBIND (R344). -/
  | mcapplUnbind
  /-- EMPTY_BUNDLE (R50). -/
  | emptyBundle
  /-- RESULT_LANDING (R73). -/
  | resultLanding
  /-- BANK_ACCESS (R191). -/
  | bankAccess
  /-- ENGINE_BANK_ACCESS (R192). -/
  | engineBankAccess
  /-- ECC_REWRITE (R210). -/
  | eccRewrite
  /-- ARRAY_ROW_ACCUMULATE (R239). -/
  | arrayRowAccumulate
  /-- DRAIN_ROW_WRITE (R255). -/
  | drainRowWrite
  /-- URGENT_CONTEXT_ENTRY (R387). -/
  | urgentContextEntry
  /-- SHADOW_DELIVERY (R388). -/
  | shadowDelivery
  /-- PREEMPT_DELIVERY (R394). -/
  | preemptDelivery
  /-- TLWAIT_RELEASE (R280). -/
  | tlwaitRelease
  /-- REALIGN_RELEASE (R314). -/
  | realignRelease
  /-- C1_LOAD_ARRIVAL (R212). -/
  | c1LoadArrival
  /-- FENCE_DONE (R358). -/
  | fenceDone
  /-- FETCH_MISS_FILL (R364). -/
  | fetchMissFill
  /-- PHLOAD_DONE (R303). -/
  | phloadDone
  /-- LAUNCH_DONE (R367). -/
  | launchDone
  /-- MCODE_DONE (R270). -/
  | mcodeDone
  /-- MCODE_TARGET_LOAD (R271). -/
  | mcodeTargetLoad
  /-- REPAIR_DONE (R410). -/
  | repairDone
  /-- TLBINV_DONE (R232). -/
  | tlbinvDone
  /-- WATCH_ARM_DONE (R295). -/
  | watchArmDone
  /-- WATCH_FIRE (R295). -/
  | watchFire
  /-- HOSTIRQ_RELEASE (R406). -/
  | hostirqRelease
  /-- IRQ_WINDOW_EXPIRY (R406). -/
  | irqWindowExpiry
  /-- MSIX_UNMASK (R406). -/
  | msixUnmask
  /-- SIGNOFF_MESSAGE (R306). -/
  | signoffMessage
  /-- PORT_SIGNOFF (R330). -/
  | portSignoff
  /-- RECEIVE_SIGNOFF (R330). -/
  | receiveSignoff
  /-- CLOVE_ARRIVAL (R309). -/
  | cloveArrival
  /-- PHASE_START (R312). -/
  | phaseStart
  /-- MISSED_SIGNOFF (R305). -/
  | missedSignoff
  /-- SLACK_OVERRUN (R313). -/
  | slackOverrun
  /-- SLACK_HARD_LIMIT (R313). -/
  | slackHardLimit
  /-- MACE_WINDOW (R315). -/
  | maceWindow
  /-- ROW_FILL (R219). -/
  | rowFill
  /-- ROW_DRAIN (R219). -/
  | rowDrain
  /-- WINDOW_OP_COMPLETE (R217). -/
  | windowOpComplete
  /-- EVENT_OVERFLOW_MOVE (R286). -/
  | eventOverflowMove
  /-- PAGE_WALK (R229). -/
  | pageWalk
  /-- TRANSFER_COMPLETE (R335). -/
  | transferComplete
  /-- NOTIFY_PUSH (R335). -/
  | notifyPush
  /-- QRESV_COMPLETE (R291). -/
  | qresvComplete
  /-- QPUSH_ENQUEUE (R291). -/
  | qpushEnqueue
  /-- TIMETABLE_SOURCE_READ (R327). -/
  | timetableSourceRead
  /-- TIMETABLED_FLIT_DEPART (R327). -/
  | timetabledFlitDepart
  /-- FLIT_ARRIVAL (R328). -/
  | flitArrival
  /-- FLIT_REPLAY (R322). -/
  | flitReplay
  /-- LINK_RETRAIN_DONE (R322). -/
  | linkRetrainDone
  /-- LINK_LOSS (R323). -/
  | linkLoss
  /-- MULTICAST_STAMP (R342). -/
  | multicastStamp
  /-- MULTICAST_APPLY (R343). -/
  | multicastApply
  /-- MULTICAST_RESEND (R343). -/
  | multicastResend
  /-- MCSTO_COMPLETE (R342). -/
  | mcstoComplete
  /-- MULTICAST_JOIN_RECORD (R345). -/
  | multicastJoinRecord
  /-- REMOTE_ATOMIC_PERFORM (R347). -/
  | remoteAtomicPerform
  /-- RATOM_REPLY (R347). -/
  | ratomReply
  /-- RATOM_RESEND (R348). -/
  | ratomResend
  /-- ALIGNMENT_LOST (R296). -/
  | alignmentLost
  /-- THERMAL_STOP (R319). -/
  | thermalStop
  /-- THERMAL_INDEX_UPDATE (R376). -/
  | thermalIndexUpdate
  /-- TASK_ADMISSION (R370). -/
  | taskAdmission
  /-- TASK_START (R370). -/
  | taskStart
  /-- INDIRECT_COUNT_READ (R368). -/
  | indirectCountRead
  /-- BACKFILL_CUTOFF (R375). -/
  | backfillCutoff
  /-- ENSEMBLE_PARTNER_TIMEOUT (R378). -/
  | ensemblePartnerTimeout
  /-- TASK_END (R372). -/
  | taskEnd
  /-- SAVE_POINT (R398). -/
  | savePoint
  /-- RESTCTX_DONE (R400). -/
  | restctxDone
  /-- FORM (R405). -/
  | form
  /-- DISSOLVE (R404). -/
  | dissolve
  /-- OPENCH (R404). -/
  | opench
  /-- CLOSECH (R404). -/
  | closech
  /-- GROUP (R404). -/
  | group
  /-- RESTART (R404). -/
  | restart
  /-- DOMAIN (R404). -/
  | domain
  /-- SPARECC (R404). -/
  | sparecc
  /-- FWSTAGE (R408). -/
  | fwstage
  /-- FWACT (R408). -/
  | fwact
  /-- SERVICE_COMMAND_COMPLETE (R403). -/
  | serviceCommandComplete
  /-- IRQWIN_WRITE (R413). -/
  | irqwinWrite
  /-- ALLOT_WRITE (R414). -/
  | allotWrite
  /-- REGISTER_WRITE (R3). -/
  | registerWrite
  /-- HOST_WRITE (R361). -/
  | hostWrite
  /-- HOST_READ (R402). -/
  | hostRead
  /-- PATROL_SCRUB (R233). -/
  | patrolScrub
  /-- COLD_RESET (R407). -/
  | coldReset
  /-- WARM_RESET (R407). -/
  | warmReset
  /-- GET_VERSION (R409). -/
  | getVersion
  /-- GET_CAPABILITIES (R409). -/
  | getCapabilities
  /-- NEGOTIATE_ALGORITHMS (R409). -/
  | negotiateAlgorithms
  /-- GET_DIGESTS (R409). -/
  | getDigests
  /-- GET_CERTIFICATE (R409). -/
  | getCertificate
  /-- CHALLENGE (R409). -/
  | challenge
  /-- GET_MEASUREMENTS (R409). -/
  | getMeasurements
  /-- THERMAL_LIMIT_REACHED (R318). -/
  | thermalLimitReached
  /-- HBM_REFRESH (R313). -/
  | hbmRefresh
  /-- C1_STORE_PERFORMED (R212). -/
  | c1StorePerformed
  /-- MULTICAST_MEMBER_FAILED (R342). -/
  | multicastMemberFailed
deriving DecidableEq, Repr

end Sys2Proof
end

