-- ==== Sys2Proof/WellFormed.lean ====
section
/-!
DEFINITION. Which operations and bundles are legal (03:R64). `shape` says of each slot operation what the conditions of
R64 need of it: its source operands, where its result goes, its register numbers, and the limits of its own form (its home
chapter). `opIllegal` and `bundleIllegal` list the conditions that are met, by name; each name has its trap cause.
-/

namespace Sys2Proof

/-- The conditions of R64, by name. -/
inductive Illegal where
  /-- an opcode not listed for its slot class, NOP with a nonzero field, or a nonzero reserved field -/
  | encoding
  /-- a C1-only opcode in C0 -/
  | c1Only
  /-- a source value that the slot does not have -/
  | source
  /-- a port read by a slot that does not own it -/
  | portUse
  /-- a port owned by code 7, or by an absent slot, or a register field without an owner -/
  | portOwner
  /-- a write-port owner whose operation cannot own it, or a nonzero destination under one -/
  | writePort
  /-- a file code that the form does not take, or a file-3 register not matched to its port -/
  | fileCode
  /-- w = 1 where it must be 0 -/
  | wBit
  /-- a lend syllable with no consumer, a consumer without one, or two consumers -/
  | lend
  /-- the core's kind does not have the operation or the slot -/
  | coreKind
  /-- ERET in the main context -/
  | eretMain
  /-- a limit that the home chapter gives the form -/
  | form
  /-- TLWAIT with another operation, a lend syllable or a pop (14:R280) -/
  | notAlone
  /-- two operations on one stream slot, one of them writing it (18:R383) -/
  | streamSlot
  /-- in the urgent context: an M presence bit, a register it does not have, or an operation it may not issue -/
  | urgent
deriving DecidableEq, Repr

/-- The trap cause of a condition (03:R64). -/
def Illegal.cause : Illegal → BitVec 8
  | .urgent => 0x0A
  | _ => 0x01

/-- Where an operation's register result goes (03:R61). -/
inductive Res where
  | none
  /-- the slot's own file or s, through a destination field that is 0 under the write port -/
  | own (d : Nat)
  /-- a result that may not go to the write port -/
  | barred
  /-- a result that must go to the write port -/
  | must
deriving DecidableEq, Repr

/-- How a CM operation uses the register of its file and reg fields (03:R56). -/
inductive CmUse where
  | no
  | load (files : List Nat)
  | store (files : List Nat)
  | both (files : List Nat)
deriving DecidableEq, Repr

/-- What R64 needs of an operation. -/
structure Shape where
  /-- 6-bit source operands -/
  src : List Nat := []
  res : Res := .none
  cm : CmUse := .no
  file : Nat := 0
  reg : Nat := 0
  /-- s, x and y register numbers in fields other than sources and CM registers -/
  regs : List Nat := []
  /-- address registers -/
  aregs : List Nat := []
  wbit : Bool := false
  lend : Bool := false
  c1Only : Bool := false
  ccOnly : Bool := false
  vmOnly : Bool := false
  noUrg : Bool := false
  urgOnly : Bool := false
  alone : Bool := false
  /-- stream slot, and whether it is written -/
  stream : Option (Nat × Bool) := none
  /-- transfer context (14:R290, 16:R332) -/
  ctx : Option Nat := none
  /-- the form's own limits -/
  ok : Bool := true
deriving DecidableEq, Repr

/-- Scalar, common and own address files (10:R199). -/
def scalarFiles : List Nat := [0, 3, 4]

/-- The vector files (10:R199). -/
def vectorFiles : List Nat := [1, 2]

/-- Type codes that VCVT takes (08:R164). -/
def cvtCode (t : Nat) : Bool := t ≤ 7 || t = 13

/-- The shape of a slot operation; `wd` is its syllable, from which the operations without arguments take their fields.
An event has no syllable. -/
def shape (wd : BitVec 32) : Instr → Shape
  | .add d a b _ _ => { src := [a.toNat, b.toNat], res := .own d.toNat, regs := [d.toNat] }
  | .sub d a b _ _ => { src := [a.toNat, b.toNat], res := .own d.toNat, regs := [d.toNat] }
  | .mul d a b _ _ => { src := [a.toNat, b.toNat], res := .own d.toNat, regs := [d.toNat] }
  | .mulh d a b _ _ _ => { src := [a.toNat, b.toNat], res := .own d.toNat, regs := [d.toNat] }
  | .div d a b _ _ _ => { src := [a.toNat, b.toNat], res := .own d.toNat, regs := [d.toNat] }
  | .rem d a b _ _ _ => { src := [a.toNat, b.toNat], res := .own d.toNat, regs := [d.toNat] }
  | .and d a b _ _ => { src := [a.toNat, b.toNat], res := .own d.toNat, regs := [d.toNat] }
  | .or d a b _ _ => { src := [a.toNat, b.toNat], res := .own d.toNat, regs := [d.toNat] }
  | .xor d a b _ _ => { src := [a.toNat, b.toNat], res := .own d.toNat, regs := [d.toNat] }
  | .andn d a b _ _ => { src := [a.toNat, b.toNat], res := .own d.toNat, regs := [d.toNat] }
  | .shl d a b _ _ => { src := [a.toNat, b.toNat], res := .own d.toNat, regs := [d.toNat] }
  | .shr d a b _ _ _ => { src := [a.toNat, b.toNat], res := .own d.toNat, regs := [d.toNat] }
  | .rot d a b _ _ => { src := [a.toNat, b.toNat], res := .own d.toNat, regs := [d.toNat] }
  | .min d a b _ _ _ => { src := [a.toNat, b.toNat], res := .own d.toNat, regs := [d.toNat] }
  | .max d a b _ _ _ => { src := [a.toNat, b.toNat], res := .own d.toNat, regs := [d.toNat] }
  | .clz d a _ _ => { src := [a.toNat], res := .own d.toNat, regs := [d.toNat] }
  | .ctz d a _ _ => { src := [a.toNat], res := .own d.toNat, regs := [d.toNat] }
  | .popc d a _ _ => { src := [a.toNat], res := .own d.toNat, regs := [d.toNat] }
  | .bswap d a _ _ => { src := [a.toNat], res := .own d.toNat, regs := [d.toNat] }
  | .ext d a b _ _ _ => { src := [a.toNat, b.toNat], res := .own d.toNat, regs := [d.toNat] }
  | .ins d a b _ _ => { src := [a.toNat, b.toNat], res := .barred, regs := [d.toNat] }
  | .sel d a b _ _ _ => { src := [a.toNat, b.toNat], res := .own d.toNat, regs := [d.toNat] }
  | .cmp _ a b _ _ c => { src := [a.toNat, b.toNat], res := .barred, ok := decide (c.toNat ≤ 5) }
  | .gand _ a b _ _ _ => { src := [a.toNat, b.toNat], res := .barred }
  | .addi d a _ => { src := [a.toNat], res := .own d.toNat, regs := [d.toNat] }
  | .andi d a _ => { src := [a.toNat], res := .own d.toNat, regs := [d.toNat] }
  | .ori d a _ => { src := [a.toNat], res := .own d.toNat, regs := [d.toNat] }
  | .xori d a _ => { src := [a.toNat], res := .own d.toNat, regs := [d.toNat] }
  | .shli d a _ => { src := [a.toNat], res := .own d.toNat, regs := [d.toNat] }
  | .shri d a _ => { src := [a.toNat], res := .own d.toNat, regs := [d.toNat] }
  | .cmpi _ _ a _ => { src := [a.toNat], res := .barred }
  | .movi d _ => { res := .own d.toNat, regs := [d.toNat] }
  | .movl d => { res := .own d.toNat, regs := [d.toNat], lend := true }
  | .movlh d a => { src := [a.toNat], res := .own d.toNat, regs := [d.toNat], lend := true }
  | .addl d a => { src := [a.toNat], res := .own d.toNat, regs := [d.toNat], lend := true }
  | .call _ _ _ => { res := .own 0 }
  | .bri d a _ _ => { src := [a.toNat], res := .own d.toNat, regs := [d.toNat] }
  | .loop a _ => { src := [a.toNat] }
  | .realign n => { noUrg := true, ok := decide (n.toNat ≤ 40) }
  | .setfmt a _ _ => { src := [a.toNat] }
  | .setcl a _ _ => { src := [a.toNat], vmOnly := true }
  | .vmsel _ _ _ _ => { vmOnly := true }
  | .phpred a _ _ o => { src := [a.toNat], noUrg := true, ok := decide (o.toNat ≤ 2) }
  | .signoff a b _ _ => { src := [a.toNat, b.toNat], noUrg := true }
  | .tlreadV d a _ _ => { src := [a.toNat], res := .own d.toNat, regs := [d.toNat] }
  | .tlwait a b _ _ => { src := [a.toNat, b.toNat], alone := true }
  | .tlarm a b _ _ => { src := [a.toNat, b.toNat] }
  | .qbind _ a _ _ => { src := [a.toNat] }
  | .gtime d _ _ s => { res := .own d.toNat, regs := [d.toNat], ok := decide (s.toNat ≤ 2) }
  | .csrr d a _ _ => { src := [a.toNat], res := .own d.toNat, regs := [d.toNat] }
  | .csrw a b _ _ => { src := [a.toNat, b.toNat] }
  | .putk a _ _ => { src := [a.toNat], res := .must }
  | .rkey a b _ _ k => { src := [a.toNat, b.toNat], stream := some (k.toNat, true) }
  | .rkeyS a b _ _ k => { src := [a.toNat, b.toNat], stream := some (k.toNat, true) }
  | .rctr a b _ _ k => { src := [a.toNat, b.toNat], stream := some (k.toNat, true) }
  | .rctrRd d a _ _ k => { src := [a.toNat], res := .own d.toNat, regs := [d.toNat], stream := some (k.toNat, false) }
  | .rskip a b _ _ k => { src := [a.toNat, b.toNat], stream := some (k.toNat, true) }
  | .rdraw d _ _ k => { res := .own d.toNat, regs := [d.toNat], stream := some (k.toNat, true) }
  | .stov d a _ _ _ => { src := [a.toNat], res := .barred, regs := [d.toNat], vmOnly := true }
  | .stom d a _ _ => { src := [a.toNat], res := .barred, vmOnly := true, noUrg := true, ok := decide (d.toNat ≤ 7) }
  | .trap a _ _ => { src := [a.toNat] }
  | .preempt d a b _ _ => { src := [a.toNat, b.toNat], res := .own d.toNat, regs := [d.toNat] }
  | .launch d a b _ _ => { src := [a.toNat, b.toNat], res := .own d.toNat, regs := [d.toNat], ccOnly := true }
  | .phload d a b _ _ => { src := [a.toNat, b.toNat], res := .own d.toNat, regs := [d.toNat] }
  | .savectx d a b _ _ => { src := [a.toNat, b.toNat], res := .own d.toNat, regs := [d.toNat], noUrg := true }
  | .restctx d a b _ _ => { src := [a.toNat, b.toNat], res := .own d.toNat, regs := [d.toNat], noUrg := true }
  | .fcst a _ _ => { src := [a.toNat], ccOnly := true }
  | .watchArm d a b _ _ => { src := [a.toNat, b.toNat], res := .own d.toNat, regs := [d.toNat], ccOnly := true }
  | .watchDis a _ _ => { src := [a.toNat], ccOnly := true }
  | .mcode d a b _ _ => { src := [a.toNat, b.toNat], res := .own d.toNat, regs := [d.toNat], ccOnly := true }
  | .tlbinvPage a _ _ => { src := [a.toNat], ccOnly := true }
  | .repair d a b _ _ => { src := [a.toNat, b.toNat], res := .own d.toNat, regs := [d.toNat], ccOnly := true }
  | .hostirq a _ _ => { src := [a.toNat], ccOnly := true }
  | .vadd w1 d a b => { src := [a.toNat, b.toNat], res := .own d.toNat, wbit := w1 = 1, regs := [d.toNat] }
  | .vsub w1 d a b => { src := [a.toNat, b.toNat], res := .own d.toNat, wbit := w1 = 1, regs := [d.toNat] }
  | .vmul w1 d a b => { src := [a.toNat, b.toNat], res := .own d.toNat, wbit := w1 = 1, regs := [d.toNat] }
  | .vmulhi w1 d a b => { src := [a.toNat, b.toNat], res := .own d.toNat, wbit := w1 = 1, regs := [d.toNat] }
  | .vmulhz w1 d a b => { src := [a.toNat, b.toNat], res := .own d.toNat, wbit := w1 = 1, regs := [d.toNat] }
  | .vmad w1 d a b c => { src := [a.toNat, b.toNat, c.toNat], res := .own d.toNat, wbit := w1 = 1, regs := [d.toNat] }
  | .vand w1 d a b => { src := [a.toNat, b.toNat], res := .own d.toNat, wbit := w1 = 1, regs := [d.toNat] }
  | .vor w1 d a b => { src := [a.toNat, b.toNat], res := .own d.toNat, wbit := w1 = 1, regs := [d.toNat] }
  | .vxor w1 d a b => { src := [a.toNat, b.toNat], res := .own d.toNat, wbit := w1 = 1, regs := [d.toNat] }
  | .vandn w1 d a b => { src := [a.toNat, b.toNat], res := .own d.toNat, wbit := w1 = 1, regs := [d.toNat] }
  | .vshl w1 d a b => { src := [a.toNat, b.toNat], res := .own d.toNat, wbit := w1 = 1, regs := [d.toNat] }
  | .vshri w1 d a b => { src := [a.toNat, b.toNat], res := .own d.toNat, wbit := w1 = 1, regs := [d.toNat] }
  | .vshrz w1 d a b => { src := [a.toNat, b.toNat], res := .own d.toNat, wbit := w1 = 1, regs := [d.toNat] }
  | .vmini w1 d a b => { src := [a.toNat, b.toNat], res := .own d.toNat, wbit := w1 = 1, regs := [d.toNat] }
  | .vminz w1 d a b => { src := [a.toNat, b.toNat], res := .own d.toNat, wbit := w1 = 1, regs := [d.toNat] }
  | .vmaxi w1 d a b => { src := [a.toNat, b.toNat], res := .own d.toNat, wbit := w1 = 1, regs := [d.toNat] }
  | .vmaxz w1 d a b => { src := [a.toNat, b.toNat], res := .own d.toNat, wbit := w1 = 1, regs := [d.toNat] }
  | .vabsi w1 d a => { src := [a.toNat], res := .own d.toNat, wbit := w1 = 1, regs := [d.toNat] }
  | .vclz w1 d a => { src := [a.toNat], res := .own d.toNat, wbit := w1 = 1, regs := [d.toNat] }
  | .vpopc w1 d a => { src := [a.toNat], res := .own d.toNat, wbit := w1 = 1, regs := [d.toNat] }
  | .vaddsi w1 d a b => { src := [a.toNat, b.toNat], res := .own d.toNat, wbit := w1 = 1, regs := [d.toNat] }
  | .vsubsi w1 d a b => { src := [a.toNat, b.toNat], res := .own d.toNat, wbit := w1 = 1, regs := [d.toNat] }
  | .vcmpi w1 d a b => { src := [a.toNat, b.toNat], res := .own d.toNat, wbit := w1 = 1, regs := [d.toNat] }
  | .vsel w1 d a b c => { src := [a.toNat, b.toNat, c.toNat], res := .own d.toNat, wbit := w1 = 1, regs := [d.toNat] }
  | .vfadd w1 d a b => { src := [a.toNat, b.toNat], res := .own d.toNat, wbit := w1 = 1, regs := [d.toNat] }
  | .vfsub w1 d a b => { src := [a.toNat, b.toNat], res := .own d.toNat, wbit := w1 = 1, regs := [d.toNat] }
  | .vfmul w1 d a b => { src := [a.toNat, b.toNat], res := .own d.toNat, wbit := w1 = 1, regs := [d.toNat] }
  | .vfma w1 d a b c => { src := [a.toNat, b.toNat, c.toNat], res := .own d.toNat, wbit := w1 = 1, regs := [d.toNat] }
  | .vfms w1 d a b c => { src := [a.toNat, b.toNat, c.toNat], res := .own d.toNat, wbit := w1 = 1, regs := [d.toNat] }
  | .vfnma w1 d a b c => { src := [a.toNat, b.toNat, c.toNat], res := .own d.toNat, wbit := w1 = 1, regs := [d.toNat] }
  | .vfmin w1 d a b => { src := [a.toNat, b.toNat], res := .own d.toNat, wbit := w1 = 1, regs := [d.toNat] }
  | .vfmax w1 d a b => { src := [a.toNat, b.toNat], res := .own d.toNat, wbit := w1 = 1, regs := [d.toNat] }
  | .vfabs w1 d a => { src := [a.toNat], res := .own d.toNat, wbit := w1 = 1, regs := [d.toNat] }
  | .vfneg w1 d a => { src := [a.toNat], res := .own d.toNat, wbit := w1 = 1, regs := [d.toNat] }
  | .vfcmp w1 d a b => { src := [a.toNat, b.toNat], res := .own d.toNat, wbit := w1 = 1, regs := [d.toNat] }
  | .vfclass w1 d a => { src := [a.toNat], res := .own d.toNat, wbit := w1 = 1, regs := [d.toNat] }
  | .vfscale w1 d a b => { src := [a.toNat, b.toNat], res := .own d.toNat, wbit := w1 = 1, regs := [d.toNat] }
  | .vfdiv w1 d a b => { src := [a.toNat, b.toNat], res := .own d.toNat, wbit := w1 = 1, regs := [d.toNat] }
  | .vfsqrt w1 d a => { src := [a.toNat], res := .own d.toNat, wbit := w1 = 1, regs := [d.toNat] }
  | .vadd2 d a b => { src := [a.toNat, b.toNat], res := .barred, regs := [2 * d.toNat] }
  | .vsub2 d a b => { src := [a.toNat, b.toNat], res := .barred, regs := [2 * d.toNat] }
  | .vmul2 d a b => { src := [a.toNat, b.toNat], res := .barred, regs := [2 * d.toNat] }
  | .dwadd d a b => { res := .barred, regs := [2 * d.toNat, 2 * a.toNat, 2 * b.toNat] }
  | .dwadds d a b => { src := [b.toNat], res := .barred, regs := [2 * d.toNat, 2 * a.toNat] }
  | .dwmul d a b => { res := .barred, regs := [2 * d.toNat, 2 * a.toNat, 2 * b.toNat] }
  | .dwmuls d a b => { src := [b.toNat], res := .barred, regs := [2 * d.toNat, 2 * a.toNat] }
  | .dwnorm d a => { res := .barred, regs := [2 * d.toNat, 2 * a.toNat] }
  | .dwcvt w1 d a => { res := .own d.toNat, wbit := w1 = 1, regs := [d.toNat, 2 * a.toNat] }
  | .vrsum2 d a => { src := [a.toNat], res := .barred, regs := [2 * d.toNat] }
  | .vrsum w1 d a => { src := [a.toNat], res := .own d.toNat, wbit := w1 = 1, regs := [d.toNat] }
  | .vrmax w1 d a => { src := [a.toNat], res := .own d.toNat, wbit := w1 = 1, regs := [d.toNat] }
  | .vrmin w1 d a => { src := [a.toNat], res := .own d.toNat, wbit := w1 = 1, regs := [d.toNat] }
  | .vpadd w1 d a b => { src := [a.toNat, b.toNat], res := .own d.toNat, wbit := w1 = 1, regs := [d.toNat] }
  | .vpsub w1 d a b => { src := [a.toNat, b.toNat], res := .own d.toNat, wbit := w1 = 1, regs := [d.toNat] }
  | .vpmul w1 d a b => { src := [a.toNat, b.toNat], res := .own d.toNat, wbit := w1 = 1, regs := [d.toNat] }
  | .vpfma w1 d a b c => { src := [a.toNat, b.toNat, c.toNat], res := .own d.toNat, wbit := w1 = 1, regs := [d.toNat] }
  | .vpmin w1 d a b => { src := [a.toNat, b.toNat], res := .own d.toNat, wbit := w1 = 1, regs := [d.toNat] }
  | .vpmax w1 d a b => { src := [a.toNat, b.toNat], res := .own d.toNat, wbit := w1 = 1, regs := [d.toNat] }
  | .vpdot w1 d a b c => { src := [a.toNat, b.toNat, c.toNat], res := .own d.toNat, wbit := w1 = 1, regs := [d.toNat] }
  | .vpcmp w1 d a b => { src := [a.toNat, b.toNat], res := .own d.toNat, wbit := w1 = 1, regs := [d.toNat] }
  | .vcvt w1 d a t s => { src := [a.toNat], res := .own d.toNat, wbit := w1 = 1, regs := [d.toNat], ok := cvtCode t.toNat && cvtCode s.toNat }
  | .vcvtp2N w1 d a _ c => { src := [a.toNat, c.toNat], res := .own d.toNat, wbit := w1 = 1, regs := [d.toNat] }
  | .vcvtp2W w1 d a _ c => { src := [a.toNat, c.toNat], res := .own d.toNat, wbit := w1 = 1, regs := [d.toNat] }
  | .vcvtp4N w1 d a _ c => { src := [a.toNat, c.toNat], res := .own d.toNat, wbit := w1 = 1, regs := [d.toNat] }
  | .vcvtp4W w1 d a _ c => { src := [a.toNat, c.toNat], res := .own d.toNat, wbit := w1 = 1, regs := [d.toNat] }
  | .vcvtp8N w1 d a _ c => { src := [a.toNat, c.toNat], res := .own d.toNat, wbit := w1 = 1, regs := [d.toNat] }
  | .vcvtp8W w1 d a _ c => { src := [a.toNat, c.toNat], res := .own d.toNat, wbit := w1 = 1, regs := [d.toNat] }
  | .vqnt w1 d a b _ => { src := [a.toNat, b.toNat], res := .own d.toNat, wbit := w1 = 1, regs := [d.toNat] }
  | .vqdiv w1 d a b _ => { src := [a.toNat, b.toNat], res := .own d.toNat, wbit := w1 = 1, regs := [d.toNat] }
  | .vdeq w1 d a b _ => { src := [a.toNat, b.toNat], res := .own d.toNat, wbit := w1 = 1, regs := [d.toNat] }
  | .vmxpackScale w1 d a c => { src := [a.toNat, c.toNat], res := .own d.toNat, wbit := w1 = 1, regs := [d.toNat] }
  | .vmxpackAscale w1 d a c => { src := [a.toNat, c.toNat], res := .own d.toNat, wbit := w1 = 1, regs := [d.toNat] }
  | .vmxpackPutp w1 d a _ c => { src := [a.toNat, c.toNat], res := .own d.toNat, wbit := w1 = 1, regs := [d.toNat] }
  | .vmxunp w1 d a _ c => { src := [a.toNat, c.toNat], res := .own d.toNat, wbit := w1 = 1, regs := [d.toNat] }
  | .vftoi w1 d a _ => { src := [a.toNat], res := .own d.toNat, wbit := w1 = 1, regs := [d.toNat] }
  | .vitof w1 d a _ => { src := [a.toNat], res := .own d.toNat, wbit := w1 = 1, regs := [d.toNat] }
  | .vrcp w1 d a => { src := [a.toNat], res := .own d.toNat, wbit := w1 = 1, regs := [d.toNat] }
  | .vrsq w1 d a => { src := [a.toNat], res := .own d.toNat, wbit := w1 = 1, regs := [d.toNat] }
  | .vexp2 w1 d a => { src := [a.toNat], res := .own d.toNat, wbit := w1 = 1, regs := [d.toNat] }
  | .vlog2 w1 d a => { src := [a.toNat], res := .own d.toNat, wbit := w1 = 1, regs := [d.toNat] }
  | .vsin w1 d a => { src := [a.toNat], res := .own d.toNat, wbit := w1 = 1, regs := [d.toNat] }
  | .vcos w1 d a => { src := [a.toNat], res := .own d.toNat, wbit := w1 = 1, regs := [d.toNat] }
  | .vtanh w1 d a => { src := [a.toNat], res := .own d.toNat, wbit := w1 = 1, regs := [d.toNat] }
  | .vsigm w1 d a => { src := [a.toNat], res := .own d.toNat, wbit := w1 = 1, regs := [d.toNat] }
  | .vexp w1 d a => { src := [a.toNat], res := .own d.toNat, wbit := w1 = 1, regs := [d.toNat] }
  | .vperm w1 d a b c => { src := [a.toNat, b.toNat, c.toNat], res := .own d.toNat, wbit := w1 = 1, regs := [d.toNat] }
  | .vbcast w1 d a _ => { src := [a.toNat], res := .own d.toNat, wbit := w1 = 1, regs := [d.toNat] }
  | .xcl w1 d a _ s => { src := [a.toNat], res := .own d.toNat, wbit := w1 = 1, regs := [d.toNat], ok := decide (s ≠ 0) }
  | .xclb w1 d a s _ => { src := [a.toNat], res := .own d.toNat, wbit := w1 = 1, regs := [d.toNat], ok := decide (s ≠ 0) }
  | .xred w1 d a k => { src := [a.toNat], res := if k.toNat = 3 then .barred else .own d.toNat, wbit := w1 = 1, regs := [d.toNat], ok := decide (k.toNat ≤ 3 ∧ (k.toNat ≠ 3 ∨ (w1 = 0 ∧ d.toNat % 2 = 0 ∧ a.toNat % 2 = 0 ∧ a.toNat ≤ 30))) }
  | .xcopy w1 d a => { src := [a.toNat], res := .own d.toNat, wbit := w1 = 1, regs := [d.toNat] }
  | .vmov w1 d a => { src := [a.toNat], res := .own d.toNat, wbit := w1 = 1, regs := [d.toNat] }
  | .vmovi w1 d => { res := .own d.toNat, wbit := w1 = 1, regs := [d.toNat], lend := true }
  | .vtos d a b => { src := [a.toNat, b.toNat], res := .own d.toNat, regs := [d.toNat] }
  | .vtree w1 d a => { src := [a.toNat], res := .own d.toNat, wbit := w1 = 1, regs := [d.toNat] }
  | .vmopTest a _ b => { src := [a.toNat], res := .barred, ok := decide (b.toNat ≤ 31) }
  | .vmopNz a _ => { src := [a.toNat], res := .barred }
  | .vmopGet w1 d _ => { res := .own d.toNat, wbit := w1 = 1, regs := [d.toNat] }
  | .vmopAnd _ _ => { res := .barred }
  | .vmopOr _ _ => { res := .barred }
  | .vmopXor _ _ => { res := .barred }
  | .vmopNot _ _ => { res := .barred }
  | .viota w1 d a _ => { src := [a.toNat], res := .own d.toNat, wbit := w1 = 1, regs := [d.toNat] }
  | .vrand w1 d _ k => { res := .own d.toNat, wbit := w1 = 1, regs := [d.toNat], stream := some (k.toNat, false) }
  | .vrandA w1 d _ k => { res := .own d.toNat, wbit := w1 = 1, regs := [d.toNat], stream := some (k.toNat, true) }
  | .vcount w1 d a => { src := [a.toNat], res := .own d.toNat, wbit := w1 = 1, regs := [d.toNat] }
  | .vscan w1 d a k => { src := [a.toNat], res := .own d.toNat, wbit := w1 = 1, regs := [d.toNat], ok := decide (k.toNat ≤ 2) }
  | .vputk a b => { src := [a.toNat, b.toNat], res := .must }
  | .mset d => { res := .own d.toNat, lend := true }
  | .mloads a x => { src := [a.toNat, x.toNat] }
  | .mstream s r _ _ => { src := [s.toNat, r.toNat] }
  | .mexp e => { src := [e.toNat] }
  | .mdrain d r _ _ => { src := [d.toNat, r.toNat] }
  | .mepiCol a => { src := [a.toNat] }
  | .mepiRow a => { src := [a.toNat] }
  | .mepiCfg a => { src := [a.toNat] }
  | .mclr r _ => { src := [r.toNat] }
  | .mspmeta a => { src := [a.toNat] }
  | .macc d r _ => { src := [d.toNat, r.toNat] }
  | .mstat d s => { res := .own d.toNat, ok := decide (s.toNat ≤ 5) }
  | .ldb f r b _ => { cm := .load scalarFiles, file := f.toNat, reg := r.toNat, aregs := [b.toNat] }
  | .ldh f r b _ => { cm := .load scalarFiles, file := f.toNat, reg := r.toNat, aregs := [b.toNat] }
  | .ldw f r b _ => { cm := .load scalarFiles, file := f.toNat, reg := r.toNat, aregs := [b.toNat] }
  | .ldd f r b _ => { cm := .load scalarFiles, file := f.toNat, reg := r.toNat, aregs := [b.toNat] }
  | .stb f r b _ => { cm := .store scalarFiles, file := f.toNat, reg := r.toNat, aregs := [b.toNat] }
  | .sth f r b _ => { cm := .store scalarFiles, file := f.toNat, reg := r.toNat, aregs := [b.toNat] }
  | .stw f r b _ => { cm := .store scalarFiles, file := f.toNat, reg := r.toNat, aregs := [b.toNat] }
  | .std f r b _ => { cm := .store scalarFiles, file := f.toNat, reg := r.toNat, aregs := [b.toNat] }
  | .ldv f r b _ => { cm := .load vectorFiles, file := f.toNat, reg := r.toNat, aregs := [b.toNat], vmOnly := true }
  | .stv f r b _ => { cm := .store vectorFiles, file := f.toNat, reg := r.toNat, aregs := [b.toNat], vmOnly := true }
  | .ldvb f r b _ => { cm := .load vectorFiles, file := f.toNat, reg := r.toNat, aregs := [b.toNat], vmOnly := true }
  | .ldg _ d i b => { res := .barred, regs := [d.toNat, i.toNat], aregs := [b.toNat], vmOnly := true }
  | .stg _ d i b => { regs := [d.toNat, i.toNat], aregs := [b.toNat], vmOnly := true }
  | .cstv _ d v b _ => { res := .barred, regs := [d.toNat, v.toNat], aregs := [b.toNat], vmOnly := true }
  | .ldp f r b _ => { cm := .load vectorFiles, file := f.toNat, reg := 2 * r.toNat, aregs := [b.toNat] }
  | .stp f r b _ => { cm := .store vectorFiles, file := f.toNat, reg := 2 * r.toNat, aregs := [b.toNat] }
  | .adda r b => { res := .barred, aregs := [r.toNat, b.toNat], lend := true }
  | .mova f r b x => { cm := if x = 1 then .store scalarFiles else .load scalarFiles, file := f.toNat, reg := r.toNat, aregs := [b.toNat] }
  | .fence s k => { ok := decide (s.toNat ≤ 4 ∧ k.toNat ≤ 2) }
  | .strel f r b _ => { cm := .store scalarFiles, file := f.toNat, reg := r.toNat, aregs := [b.toNat] }
  | .ldacq f r b _ => { cm := .load scalarFiles, file := f.toNat, reg := r.toNat, aregs := [b.toNat] }
  | .atadd f r b _ => { cm := .both scalarFiles, file := f.toNat, reg := r.toNat, aregs := [b.toNat] }
  | .atmin f r b _ => { cm := .both scalarFiles, file := f.toNat, reg := r.toNat, aregs := [b.toNat] }
  | .atmax f r b _ => { cm := .both scalarFiles, file := f.toNat, reg := r.toNat, aregs := [b.toNat] }
  | .atand f r b _ => { cm := .both scalarFiles, file := f.toNat, reg := r.toNat, aregs := [b.toNat] }
  | .ator f r b _ => { cm := .both scalarFiles, file := f.toNat, reg := r.toNat, aregs := [b.toNat] }
  | .atswp f r b _ => { cm := .both scalarFiles, file := f.toNat, reg := r.toNat, aregs := [b.toNat] }
  | .atcas d w1 b _ => { res := .own d.toNat, regs := [d.toNat, w1.toNat], aregs := [b.toNat] }
  | .atfadd f r b _ => { cm := .both scalarFiles, file := f.toNat, reg := r.toNat, aregs := [b.toNat] }
  | .atbadd f r b _ => { cm := .store scalarFiles, file := f.toNat, reg := r.toNat, aregs := [b.toNat] }
  | .binrd f r b _ => { cm := .load scalarFiles, file := f.toNat, reg := r.toNat, aregs := [b.toNat] }
  | .bininit f r b _ => { cm := .store scalarFiles, file := f.toNat, reg := r.toNat, aregs := [b.toNat] }
  | .qresv _ _ t => { ctx := some t.toNat }
  | .qpush _ f r t => { cm := .store scalarFiles, file := f.toNat, reg := r.toNat, ctx := some t.toNat }
  | .qstat c f r s => { cm := .load scalarFiles, file := f.toNat, reg := r.toNat, ok := decide (s.toNat ≤ 2 ∧ (s = 0 ∨ c = 0)), ccOnly := s = 2 }
  | .wopen _ b _ => { aregs := [b.toNat], vmOnly := true, c1Only := true, noUrg := true }
  | .wadv _ k => { vmOnly := true, c1Only := true, noUrg := true, ok := decide (1 ≤ k.toNat ∧ k.toNat ≤ 64) }
  | .wstat _ f r => { cm := .load scalarFiles, file := f.toNat, reg := r.toNat, vmOnly := true, c1Only := true }
  | .txsend c b _ => { aregs := [b.toNat], c1Only := true, ctx := some c.toNat }
  | .txcopy c b _ => { aregs := [b.toNat], c1Only := true, ctx := some c.toNat }
  | .rxarm f r => { cm := .store scalarFiles, file := f.toNat, reg := r.toNat, c1Only := true }
  | .rxflag f r _ => { cm := .load scalarFiles, file := f.toNat, reg := r.toNat, c1Only := true }
  | .mcsto c b _ => { aregs := [b.toNat], c1Only := true, ctx := some c.toNat }
  | .mcapplRd f r => { cm := .load scalarFiles, file := f.toNat, reg := r.toNat, c1Only := true }
  | .mcjoinJoin c f r => { cm := .store scalarFiles, file := f.toNat, reg := r.toNat, c1Only := true, ctx := some c.toNat }
  | .mcjoinLeave c f r => { cm := .store scalarFiles, file := f.toNat, reg := r.toNat, c1Only := true, ctx := some c.toNat }
  | .ratom c b _ => { aregs := [b.toNat], c1Only := true, ctx := some c.toNat }
  | .rload c b _ => { aregs := [b.toNat], c1Only := true, ctx := some c.toNat }
  | .getfmt => { res := .own (wd.extractLsb' 19 5).toNat, regs := [(wd.extractLsb' 19 5).toNat] }
  | .tlreadE => { res := .own (wd.extractLsb' 19 5).toNat, regs := [(wd.extractLsb' 19 5).toNat] }
  | .tlreadEc => { res := .own (wd.extractLsb' 19 5).toNat, regs := [(wd.extractLsb' 19 5).toNat] }
  | .eret => { urgOnly := true }
  | .eretReplay => { urgOnly := true }
  | .eretFail => { urgOnly := true }
  | .tlbinvAll => { ccOnly := true }
  | .wclose => { vmOnly := true, c1Only := true, noUrg := true }
  | .wresRetry => { vmOnly := true, c1Only := true }
  | .wresFail => { vmOnly := true, c1Only := true }
  | .wflush => { vmOnly := true, c1Only := true, noUrg := true }
  | .txwalk => { c1Only := true, noUrg := true, ctx := some (wd.extractLsb' 20 4).toNat }
  | .txresRetry => { c1Only := true, ctx := some (wd.extractLsb' 20 4).toNat }
  | .txresFail => { c1Only := true, ctx := some (wd.extractLsb' 20 4).toNat }
  | .mcapplBind => { c1Only := true }
  | .mcapplUnbind => { c1Only := true }
  | _ => {}

/-! ### The head (03:R48). Slots are numbered in slot order: 0 S, 1 V0, 2 V1, 3 M, 4 C0, 5 C1. -/

def headP (h : W32) (slot : Nat) : Bool := h.getLsbD (31 - slot)
def headL (h : W32) : Bool := h.getLsbD 25
def headPop (h : W32) : BitVec 4 := h.extractLsb' 21 4
def headAOwn (h : W32) : Nat := (h.extractLsb' 18 3).toNat
def headAReg (h : W32) : Nat := (h.extractLsb' 14 4).toNat
def headBOwn (h : W32) : Nat := (h.extractLsb' 11 3).toNat
def headBReg (h : W32) : Nat := (h.extractLsb' 7 4).toNat
def headWOwn (h : W32) : Nat := (h.extractLsb' 4 3).toNat
def headWReg (h : W32) : Nat := (h.extractLsb' 0 4).toNat

/-- The slot owns the common write port. -/
def ownsW (h : W32) (slot : Nat) : Bool := headWOwn h = slot + 1

def ownsA (h : W32) (slot : Nat) : Bool := headAOwn h = slot + 1

def ownsB (h : W32) (slot : Nat) : Bool := headBOwn h = slot + 1

/-- A source value that the slot does not have (03:R57). -/
def badSource (slot v : Nat) : Bool :=
  (44 ≤ v && v ≤ 47) || ((v = 42 || v = 43) && !(slot = 1 || slot = 2)) || (slot = 3 && 8 ≤ v && v ≤ 31)

def portMisuse (h : W32) (slot v : Nat) : Bool := (v = 40 && !ownsA h slot) || (v = 41 && !ownsB h slot)

def CmUse.files : CmUse → List Nat
  | .no => []
  | .load fs => fs
  | .store fs => fs
  | .both fs => fs

def CmUse.loads : CmUse → Bool
  | .load _ => true
  | .both _ => true
  | _ => false

def CmUse.stores : CmUse → Bool
  | .store _ => true
  | .both _ => true
  | _ => false

/-- The CM register's file code and port rules (03:R56, 10:R199). -/
def badFile (h : W32) (slot : Nat) (s : Shape) : Bool :=
  match s.cm with
  | .no => false
  | u =>
    !u.files.contains s.file || (s.file = 4 && s.reg ≥ 16)
      || (s.file = 3 && (s.reg ≥ 16
          || (u.loads && !(ownsW h slot && headWReg h = s.reg))
          || (u.stores && !(ownsA h slot && headAReg h = s.reg))))

/-- The write-port rules of R61 for a slot's operation. -/
def badWrite (h : W32) (slot : Nat) (s : Shape) : Bool :=
  if ownsW h slot then
    match s.res with
    | .own d => d ≠ 0
    | .must => false
    | _ => !(s.cm.loads && s.file = 3)
  else s.res = .must

/-- Registers that the urgent context does not have (03:R64, 05:R92). -/
def urgentRegs (slot : Nat) (s : Shape) : Bool :=
  (slot ≤ 2 && s.src.any (fun v => 16 ≤ v && v ≤ 31)) || s.regs.any (16 ≤ ·) || s.aregs.any (8 ≤ ·)
    || (s.cm ≠ .no && ((s.file ≤ 2 && s.reg ≥ 16) || (s.file = 4 && s.reg ≥ 8)))

/-- The transfer contexts of a core (14:R290, 16:R332). -/
def badCtx (cc : Bool) (s : Shape) : Bool :=
  match s.ctx with
  | none => false
  | some c => !cc && !(c = 4 || c = 5)

def pick (b : Bool) (x : Illegal) : List Illegal := if b then [x] else []

/-- The conditions that one operation meets in its slot, under its head. -/
def opIllegal (cc urg : Bool) (h : W32) (slot : Nat) (s : Shape) : List Illegal :=
  pick (s.c1Only && slot ≠ 5) .c1Only
    ++ pick (s.src.any (badSource slot)) .source
    ++ pick (s.src.any (portMisuse h slot)) .portUse
    ++ pick (badWrite h slot s) .writePort
    ++ pick (badFile h slot s) .fileCode
    ++ pick (s.wbit && ownsW h slot) .wBit
    ++ pick ((cc && (s.vmOnly || (s.cm ≠ .no && (s.file = 1 || s.file = 2)))) || (!cc && s.ccOnly)) .coreKind
    ++ pick (s.urgOnly && !urg) .eretMain
    ++ pick (!s.ok || badCtx cc s) .form
    ++ pick (urg && (s.noUrg || urgentRegs slot s)) .urgent

/-- A port with a code of no present slot, or a register without an owner (03:R60, R61). -/
def badPort (h : W32) (own reg : Nat) : Bool :=
  own = 7 || (own = 0 && reg ≠ 0) || (1 ≤ own && own ≤ 6 && !headP h (own - 1))

/-- The conditions of the head and of the operations together. -/
def bundleIllegal (cc urg : Bool) (h : W32) (ops : List (Nat × Shape)) : List Illegal :=
  let lends := (ops.filter (fun o => o.2.lend)).length
  let strs := ops.filterMap (fun o => o.2.stream)
  pick (badPort h (headAOwn h) (headAReg h) || badPort h (headBOwn h) (headBReg h)
      || badPort h (headWOwn h) (headWReg h)) .portOwner
    ++ pick (if headL h then lends ≠ 1 else lends ≠ 0) .lend
    ++ pick (cc && (headP h 1 || headP h 2 || headP h 3)) .coreKind
    ++ pick (ops.any (fun o => o.2.alone) && (ops.length ≠ 1 || headL h || headPop h ≠ 0)) .notAlone
    ++ pick (strs.any (fun x => x.2 && (strs.filter (fun y => y.1 = x.1)).length ≥ 2)) .streamSlot
    ++ pick (urg && (headP h 3 || (headAOwn h ≠ 0 && headAReg h ≤ 11) || (headBOwn h ≠ 0 && headBReg h ≤ 11)
        || (headWOwn h ≠ 0 && headWReg h ≤ 11))) .urgent
    ++ ops.flatMap (fun o => opIllegal cc urg h o.1 o.2)

/-- A well-formed operation: legal in some context of its kind of core, in its slot, under its head. -/
def Instr.wellFormed (cc urg : Bool) (h : W32) (slot : Nat) (wd : W32) (i : Instr) : Bool :=
  opIllegal cc urg h slot (shape wd i) = []

end Sys2Proof
end

