-- ==== Sys2Proof/Decode.lean ====
section
/-!
DEFINITION. From bits to operations: the four classes of the opcode map (03:R65), the bundle (03:R47, R48, R64), and the
encoder. The decoder is total: a syllable that encodes no operation of its class gives none, and a bundle that R64 forbids
is answered with the names of the conditions it meets.
-/

namespace Sys2Proof

/-- A field above the rest of a word of n bits. -/
def cat {v w : Nat} (n : Nat) (hi : BitVec v) (lo : BitVec w) : BitVec n := (hi ++ lo).setWidth n

/-- The S slot' class of the opcode map (03:R65): the operation that a syllable encodes, none where the opcode is
not listed or a reserved field is not 0 (03:R64). -/
def decodeSOp (op : BitVec 8) (w : BitVec 32) : Option Instr :=
  match op with
  | 0x0#8 =>
    if w.extractLsb' 0 24 = 0x0#24 then some .nop
    else none
  | 0x1#8 =>
    if w.extractLsb' 0 3 = 0x0#3 then some (.add (w.extractLsb' 19 5) (w.extractLsb' 13 6) (w.extractLsb' 7 6) (w.extractLsb' 4 3) (w.extractLsb' 3 1))
    else none
  | 0x2#8 =>
    if w.extractLsb' 0 3 = 0x0#3 then some (.sub (w.extractLsb' 19 5) (w.extractLsb' 13 6) (w.extractLsb' 7 6) (w.extractLsb' 4 3) (w.extractLsb' 3 1))
    else none
  | 0x3#8 =>
    if w.extractLsb' 0 3 = 0x0#3 then some (.mul (w.extractLsb' 19 5) (w.extractLsb' 13 6) (w.extractLsb' 7 6) (w.extractLsb' 4 3) (w.extractLsb' 3 1))
    else none
  | 0x4#8 =>
    if w.extractLsb' 1 2 = 0x0#2 then some (.mulh (w.extractLsb' 19 5) (w.extractLsb' 13 6) (w.extractLsb' 7 6) (w.extractLsb' 4 3) (w.extractLsb' 3 1) (w.extractLsb' 0 1))
    else none
  | 0x5#8 =>
    if w.extractLsb' 1 2 = 0x0#2 then some (.div (w.extractLsb' 19 5) (w.extractLsb' 13 6) (w.extractLsb' 7 6) (w.extractLsb' 4 3) (w.extractLsb' 3 1) (w.extractLsb' 0 1))
    else none
  | 0x6#8 =>
    if w.extractLsb' 1 2 = 0x0#2 then some (.rem (w.extractLsb' 19 5) (w.extractLsb' 13 6) (w.extractLsb' 7 6) (w.extractLsb' 4 3) (w.extractLsb' 3 1) (w.extractLsb' 0 1))
    else none
  | 0x7#8 =>
    if w.extractLsb' 0 3 = 0x0#3 then some (.and (w.extractLsb' 19 5) (w.extractLsb' 13 6) (w.extractLsb' 7 6) (w.extractLsb' 4 3) (w.extractLsb' 3 1))
    else none
  | 0x8#8 =>
    if w.extractLsb' 0 3 = 0x0#3 then some (.or (w.extractLsb' 19 5) (w.extractLsb' 13 6) (w.extractLsb' 7 6) (w.extractLsb' 4 3) (w.extractLsb' 3 1))
    else none
  | 0x9#8 =>
    if w.extractLsb' 0 3 = 0x0#3 then some (.xor (w.extractLsb' 19 5) (w.extractLsb' 13 6) (w.extractLsb' 7 6) (w.extractLsb' 4 3) (w.extractLsb' 3 1))
    else none
  | 0xa#8 =>
    if w.extractLsb' 0 3 = 0x0#3 then some (.andn (w.extractLsb' 19 5) (w.extractLsb' 13 6) (w.extractLsb' 7 6) (w.extractLsb' 4 3) (w.extractLsb' 3 1))
    else none
  | 0xb#8 =>
    if w.extractLsb' 0 3 = 0x0#3 then some (.shl (w.extractLsb' 19 5) (w.extractLsb' 13 6) (w.extractLsb' 7 6) (w.extractLsb' 4 3) (w.extractLsb' 3 1))
    else none
  | 0xc#8 =>
    if w.extractLsb' 1 2 = 0x0#2 then some (.shr (w.extractLsb' 19 5) (w.extractLsb' 13 6) (w.extractLsb' 7 6) (w.extractLsb' 4 3) (w.extractLsb' 3 1) (w.extractLsb' 0 1))
    else none
  | 0xd#8 =>
    if w.extractLsb' 0 3 = 0x0#3 then some (.rot (w.extractLsb' 19 5) (w.extractLsb' 13 6) (w.extractLsb' 7 6) (w.extractLsb' 4 3) (w.extractLsb' 3 1))
    else none
  | 0xe#8 =>
    if w.extractLsb' 1 2 = 0x0#2 then some (.min (w.extractLsb' 19 5) (w.extractLsb' 13 6) (w.extractLsb' 7 6) (w.extractLsb' 4 3) (w.extractLsb' 3 1) (w.extractLsb' 0 1))
    else none
  | 0xf#8 =>
    if w.extractLsb' 1 2 = 0x0#2 then some (.max (w.extractLsb' 19 5) (w.extractLsb' 13 6) (w.extractLsb' 7 6) (w.extractLsb' 4 3) (w.extractLsb' 3 1) (w.extractLsb' 0 1))
    else none
  | 0x10#8 =>
    if w.extractLsb' 7 6 = 0x0#6 ∧ w.extractLsb' 0 3 = 0x0#3 then some (.clz (w.extractLsb' 19 5) (w.extractLsb' 13 6) (w.extractLsb' 4 3) (w.extractLsb' 3 1))
    else none
  | 0x11#8 =>
    if w.extractLsb' 7 6 = 0x0#6 ∧ w.extractLsb' 0 3 = 0x0#3 then some (.ctz (w.extractLsb' 19 5) (w.extractLsb' 13 6) (w.extractLsb' 4 3) (w.extractLsb' 3 1))
    else none
  | 0x12#8 =>
    if w.extractLsb' 7 6 = 0x0#6 ∧ w.extractLsb' 0 3 = 0x0#3 then some (.popc (w.extractLsb' 19 5) (w.extractLsb' 13 6) (w.extractLsb' 4 3) (w.extractLsb' 3 1))
    else none
  | 0x13#8 =>
    if w.extractLsb' 7 6 = 0x0#6 ∧ w.extractLsb' 0 3 = 0x0#3 then some (.bswap (w.extractLsb' 19 5) (w.extractLsb' 13 6) (w.extractLsb' 4 3) (w.extractLsb' 3 1))
    else none
  | 0x14#8 =>
    if w.extractLsb' 1 2 = 0x0#2 then some (.ext (w.extractLsb' 19 5) (w.extractLsb' 13 6) (w.extractLsb' 7 6) (w.extractLsb' 4 3) (w.extractLsb' 3 1) (w.extractLsb' 0 1))
    else none
  | 0x15#8 =>
    if w.extractLsb' 0 3 = 0x0#3 then some (.ins (w.extractLsb' 19 5) (w.extractLsb' 13 6) (w.extractLsb' 7 6) (w.extractLsb' 4 3) (w.extractLsb' 3 1))
    else none
  | 0x16#8 => some (.sel (w.extractLsb' 19 5) (w.extractLsb' 13 6) (w.extractLsb' 7 6) (w.extractLsb' 4 3) (w.extractLsb' 3 1) (w.extractLsb' 0 3))
  | 0x17#8 =>
    if w.extractLsb' 22 2 = 0x0#2 then some (.cmp (w.extractLsb' 19 3) (w.extractLsb' 13 6) (w.extractLsb' 7 6) (w.extractLsb' 4 3) (w.extractLsb' 3 1) (w.extractLsb' 0 3))
    else none
  | 0x18#8 =>
    if w.extractLsb' 22 2 = 0x0#2 ∧ w.extractLsb' 2 1 = 0x0#1 then some (.gand (w.extractLsb' 19 3) (w.extractLsb' 13 6) (w.extractLsb' 7 6) (w.extractLsb' 4 3) (w.extractLsb' 3 1) (w.extractLsb' 0 2))
    else none
  | 0x41#8 => some (.addi (w.extractLsb' 19 5) (w.extractLsb' 13 6) (w.extractLsb' 0 13))
  | 0x47#8 => some (.andi (w.extractLsb' 19 5) (w.extractLsb' 13 6) (w.extractLsb' 0 13))
  | 0x48#8 => some (.ori (w.extractLsb' 19 5) (w.extractLsb' 13 6) (w.extractLsb' 0 13))
  | 0x49#8 => some (.xori (w.extractLsb' 19 5) (w.extractLsb' 13 6) (w.extractLsb' 0 13))
  | 0x4b#8 =>
    if w.extractLsb' 6 7 = 0x0#7 then some (.shli (w.extractLsb' 19 5) (w.extractLsb' 13 6) (w.extractLsb' 0 6))
    else none
  | 0x4c#8 =>
    if w.extractLsb' 6 7 = 0x0#7 then some (.shri (w.extractLsb' 19 5) (w.extractLsb' 13 6) (w.extractLsb' 0 6))
    else none
  | 0x57#8 => some (.cmpi (w.extractLsb' 22 2) (w.extractLsb' 19 3) (w.extractLsb' 13 6) (w.extractLsb' 0 13))
  | 0x58#8 =>
    if w.extractLsb' 13 6 = 0x0#6 then some (.movi (w.extractLsb' 19 5) (w.extractLsb' 0 13))
    else none
  | 0x60#8 =>
    if w.extractLsb' 0 19 = 0x0#19 then some (.movl (w.extractLsb' 19 5))
    else none
  | 0x61#8 =>
    if w.extractLsb' 0 13 = 0x0#13 then some (.movlh (w.extractLsb' 19 5) (w.extractLsb' 13 6))
    else none
  | 0x62#8 =>
    if w.extractLsb' 0 13 = 0x0#13 then some (.addl (w.extractLsb' 19 5) (w.extractLsb' 13 6))
    else none
  | 0x80#8 => some (.br (w.extractLsb' 21 3) (w.extractLsb' 20 1) (w.extractLsb' 0 20))
  | 0x81#8 => some (.call (w.extractLsb' 21 3) (w.extractLsb' 20 1) (w.extractLsb' 0 20))
  | 0x82#8 =>
    if w.extractLsb' 7 6 = 0x0#6 ∧ w.extractLsb' 0 3 = 0x0#3 then some (.bri (w.extractLsb' 19 5) (w.extractLsb' 13 6) (w.extractLsb' 4 3) (w.extractLsb' 3 1))
    else none
  | 0x83#8 =>
    if w.extractLsb' 7 17 = 0x0#17 ∧ w.extractLsb' 0 3 = 0x0#3 then some .ret
    else none
  | 0x84#8 =>
    if w.extractLsb' 19 5 = 0x0#5 ∧ w.extractLsb' 10 3 = 0x0#3 then some (.loop (w.extractLsb' 13 6) (w.extractLsb' 0 10))
    else none
  | 0x85#8 =>
    if w.extractLsb' 13 11 = 0x0#11 then some (.nopc (w.extractLsb' 0 13))
    else none
  | 0x86#8 =>
    if w.extractLsb' 6 18 = 0x0#18 then some (.realign (w.extractLsb' 0 6))
    else none
  | 0x87#8 =>
    if w.extractLsb' 7 17 = 0x0#17 ∧ w.extractLsb' 0 3 = 0x0#3 then some .halt
    else none
  | 0x90#8 =>
    if w.extractLsb' 19 5 = 0x0#5 ∧ w.extractLsb' 7 6 = 0x0#6 ∧ w.extractLsb' 0 3 = 0x0#3 then some (.setfmt (w.extractLsb' 13 6) (w.extractLsb' 4 3) (w.extractLsb' 3 1))
    else none
  | 0x91#8 =>
    if w.extractLsb' 7 12 = 0x0#12 ∧ w.extractLsb' 0 3 = 0x0#3 then some .getfmt
    else none
  | 0x92#8 =>
    if w.extractLsb' 19 5 = 0x0#5 ∧ w.extractLsb' 7 6 = 0x0#6 ∧ w.extractLsb' 0 3 = 0x0#3 then some (.setcl (w.extractLsb' 13 6) (w.extractLsb' 4 3) (w.extractLsb' 3 1))
    else none
  | 0x93#8 =>
    if w.extractLsb' 22 2 = 0x0#2 ∧ w.extractLsb' 7 12 = 0x0#12 ∧ w.extractLsb' 1 2 = 0x0#2 then some (.vmsel (w.extractLsb' 19 3) (w.extractLsb' 4 3) (w.extractLsb' 3 1) (w.extractLsb' 0 1))
    else none
  | 0x94#8 =>
    if w.extractLsb' 19 5 = 0x0#5 ∧ w.extractLsb' 7 6 = 0x0#6 ∧ w.extractLsb' 2 1 = 0x0#1 then some (.phpred (w.extractLsb' 13 6) (w.extractLsb' 4 3) (w.extractLsb' 3 1) (w.extractLsb' 0 2))
    else none
  | 0x95#8 =>
    if w.extractLsb' 19 5 = 0x0#5 ∧ w.extractLsb' 0 3 = 0x0#3 then some (.signoff (w.extractLsb' 13 6) (w.extractLsb' 7 6) (w.extractLsb' 4 3) (w.extractLsb' 3 1))
    else none
  | 0x96#8 =>
    if w.extractLsb' 7 6 = 0x0#6 ∧ w.extractLsb' 0 3 = 0x0#3 then some (.tlreadV (w.extractLsb' 19 5) (w.extractLsb' 13 6) (w.extractLsb' 4 3) (w.extractLsb' 3 1))
    else
    if w.extractLsb' 7 12 = 0x0#12 ∧ w.extractLsb' 0 3 = 0x1#3 then some .tlreadE
    else
    if w.extractLsb' 7 12 = 0x0#12 ∧ w.extractLsb' 0 3 = 0x2#3 then some .tlreadEc
    else none
  | 0x97#8 =>
    if w.extractLsb' 19 5 = 0x0#5 ∧ w.extractLsb' 0 3 = 0x0#3 then some (.tlwait (w.extractLsb' 13 6) (w.extractLsb' 7 6) (w.extractLsb' 4 3) (w.extractLsb' 3 1))
    else none
  | 0x98#8 =>
    if w.extractLsb' 19 5 = 0x0#5 ∧ w.extractLsb' 0 3 = 0x0#3 then some (.tlarm (w.extractLsb' 13 6) (w.extractLsb' 7 6) (w.extractLsb' 4 3) (w.extractLsb' 3 1))
    else none
  | 0x99#8 =>
    if w.extractLsb' 21 3 = 0x0#3 ∧ w.extractLsb' 7 6 = 0x0#6 ∧ w.extractLsb' 0 3 = 0x0#3 then some (.qbind (w.extractLsb' 19 2) (w.extractLsb' 13 6) (w.extractLsb' 4 3) (w.extractLsb' 3 1))
    else none
  | 0x9a#8 =>
    if w.extractLsb' 7 12 = 0x0#12 then some (.gtime (w.extractLsb' 19 5) (w.extractLsb' 4 3) (w.extractLsb' 3 1) (w.extractLsb' 0 3))
    else none
  | 0x9b#8 =>
    if w.extractLsb' 7 6 = 0x0#6 ∧ w.extractLsb' 0 3 = 0x0#3 then some (.csrr (w.extractLsb' 19 5) (w.extractLsb' 13 6) (w.extractLsb' 4 3) (w.extractLsb' 3 1))
    else none
  | 0x9c#8 =>
    if w.extractLsb' 19 5 = 0x0#5 ∧ w.extractLsb' 0 3 = 0x0#3 then some (.csrw (w.extractLsb' 13 6) (w.extractLsb' 7 6) (w.extractLsb' 4 3) (w.extractLsb' 3 1))
    else none
  | 0x9d#8 =>
    if w.extractLsb' 19 5 = 0x0#5 ∧ w.extractLsb' 7 6 = 0x0#6 ∧ w.extractLsb' 0 3 = 0x0#3 then some (.putk (w.extractLsb' 13 6) (w.extractLsb' 4 3) (w.extractLsb' 3 1))
    else none
  | 0xa0#8 =>
    if w.extractLsb' 19 5 = 0x0#5 ∧ w.extractLsb' 2 1 = 0x0#1 then some (.rkey (w.extractLsb' 13 6) (w.extractLsb' 7 6) (w.extractLsb' 4 3) (w.extractLsb' 3 1) (w.extractLsb' 0 2))
    else
    if w.extractLsb' 19 5 = 0x0#5 ∧ w.extractLsb' 2 1 = 0x1#1 then some (.rkeyS (w.extractLsb' 13 6) (w.extractLsb' 7 6) (w.extractLsb' 4 3) (w.extractLsb' 3 1) (w.extractLsb' 0 2))
    else none
  | 0xa1#8 =>
    if w.extractLsb' 19 5 = 0x0#5 ∧ w.extractLsb' 2 1 = 0x0#1 then some (.rctr (w.extractLsb' 13 6) (w.extractLsb' 7 6) (w.extractLsb' 4 3) (w.extractLsb' 3 1) (w.extractLsb' 0 2))
    else
    if w.extractLsb' 7 6 = 0x0#6 ∧ w.extractLsb' 2 1 = 0x1#1 then some (.rctrRd (w.extractLsb' 19 5) (w.extractLsb' 13 6) (w.extractLsb' 4 3) (w.extractLsb' 3 1) (w.extractLsb' 0 2))
    else none
  | 0xa2#8 =>
    if w.extractLsb' 19 5 = 0x0#5 ∧ w.extractLsb' 2 1 = 0x0#1 then some (.rskip (w.extractLsb' 13 6) (w.extractLsb' 7 6) (w.extractLsb' 4 3) (w.extractLsb' 3 1) (w.extractLsb' 0 2))
    else none
  | 0xa3#8 =>
    if w.extractLsb' 7 12 = 0x0#12 ∧ w.extractLsb' 2 1 = 0x0#1 then some (.rdraw (w.extractLsb' 19 5) (w.extractLsb' 4 3) (w.extractLsb' 3 1) (w.extractLsb' 0 2))
    else none
  | 0xa8#8 =>
    if w.extractLsb' 7 6 = 0x0#6 ∧ w.extractLsb' 1 2 = 0x0#2 then some (.stov (w.extractLsb' 19 5) (w.extractLsb' 13 6) (w.extractLsb' 4 3) (w.extractLsb' 3 1) (w.extractLsb' 0 1))
    else none
  | 0xa9#8 =>
    if w.extractLsb' 7 6 = 0x0#6 ∧ w.extractLsb' 0 3 = 0x0#3 then some (.stom (w.extractLsb' 19 5) (w.extractLsb' 13 6) (w.extractLsb' 4 3) (w.extractLsb' 3 1))
    else none
  | 0xc0#8 =>
    if w.extractLsb' 19 5 = 0x0#5 ∧ w.extractLsb' 7 6 = 0x0#6 ∧ w.extractLsb' 0 3 = 0x0#3 then some (.trap (w.extractLsb' 13 6) (w.extractLsb' 4 3) (w.extractLsb' 3 1))
    else none
  | 0xc1#8 =>
    if w.extractLsb' 7 17 = 0x0#17 ∧ w.extractLsb' 0 3 = 0x0#3 then some .eret
    else
    if w.extractLsb' 7 17 = 0x0#17 ∧ w.extractLsb' 0 3 = 0x1#3 then some .eretReplay
    else
    if w.extractLsb' 7 17 = 0x0#17 ∧ w.extractLsb' 0 3 = 0x2#3 then some .eretFail
    else none
  | 0xc2#8 =>
    if w.extractLsb' 0 3 = 0x0#3 then some (.preempt (w.extractLsb' 19 5) (w.extractLsb' 13 6) (w.extractLsb' 7 6) (w.extractLsb' 4 3) (w.extractLsb' 3 1))
    else none
  | 0xc3#8 =>
    if w.extractLsb' 0 3 = 0x0#3 then some (.launch (w.extractLsb' 19 5) (w.extractLsb' 13 6) (w.extractLsb' 7 6) (w.extractLsb' 4 3) (w.extractLsb' 3 1))
    else none
  | 0xc4#8 =>
    if w.extractLsb' 0 3 = 0x0#3 then some (.phload (w.extractLsb' 19 5) (w.extractLsb' 13 6) (w.extractLsb' 7 6) (w.extractLsb' 4 3) (w.extractLsb' 3 1))
    else none
  | 0xc5#8 =>
    if w.extractLsb' 0 3 = 0x0#3 then some (.savectx (w.extractLsb' 19 5) (w.extractLsb' 13 6) (w.extractLsb' 7 6) (w.extractLsb' 4 3) (w.extractLsb' 3 1))
    else none
  | 0xc6#8 =>
    if w.extractLsb' 0 3 = 0x0#3 then some (.restctx (w.extractLsb' 19 5) (w.extractLsb' 13 6) (w.extractLsb' 7 6) (w.extractLsb' 4 3) (w.extractLsb' 3 1))
    else none
  | 0xc7#8 =>
    if w.extractLsb' 19 5 = 0x0#5 ∧ w.extractLsb' 7 6 = 0x0#6 ∧ w.extractLsb' 0 3 = 0x0#3 then some (.fcst (w.extractLsb' 13 6) (w.extractLsb' 4 3) (w.extractLsb' 3 1))
    else none
  | 0xc8#8 =>
    if w.extractLsb' 0 3 = 0x0#3 then some (.watchArm (w.extractLsb' 19 5) (w.extractLsb' 13 6) (w.extractLsb' 7 6) (w.extractLsb' 4 3) (w.extractLsb' 3 1))
    else
    if w.extractLsb' 19 5 = 0x0#5 ∧ w.extractLsb' 7 6 = 0x0#6 ∧ w.extractLsb' 0 3 = 0x1#3 then some (.watchDis (w.extractLsb' 13 6) (w.extractLsb' 4 3) (w.extractLsb' 3 1))
    else none
  | 0xc9#8 =>
    if w.extractLsb' 0 3 = 0x0#3 then some (.mcode (w.extractLsb' 19 5) (w.extractLsb' 13 6) (w.extractLsb' 7 6) (w.extractLsb' 4 3) (w.extractLsb' 3 1))
    else none
  | 0xca#8 =>
    if w.extractLsb' 19 5 = 0x0#5 ∧ w.extractLsb' 7 6 = 0x0#6 ∧ w.extractLsb' 0 3 = 0x0#3 then some (.tlbinvPage (w.extractLsb' 13 6) (w.extractLsb' 4 3) (w.extractLsb' 3 1))
    else
    if w.extractLsb' 7 17 = 0x0#17 ∧ w.extractLsb' 0 3 = 0x1#3 then some .tlbinvAll
    else none
  | 0xcb#8 =>
    if w.extractLsb' 0 3 = 0x0#3 then some (.repair (w.extractLsb' 19 5) (w.extractLsb' 13 6) (w.extractLsb' 7 6) (w.extractLsb' 4 3) (w.extractLsb' 3 1))
    else none
  | 0xcc#8 =>
    if w.extractLsb' 19 5 = 0x0#5 ∧ w.extractLsb' 7 6 = 0x0#6 ∧ w.extractLsb' 0 3 = 0x0#3 then some (.hostirq (w.extractLsb' 13 6) (w.extractLsb' 4 3) (w.extractLsb' 3 1))
    else none
  | _ => none

def decodeS (w : BitVec 32) : Option Instr := decodeSOp (w.extractLsb' 24 8) w

/-- The V slots' class of the opcode map (03:R65): the operation that a syllable encodes, none where the opcode is
not listed or a reserved field is not 0 (03:R64). -/
def decodeVOp (op : BitVec 8) (w : BitVec 32) : Option Instr :=
  match op with
  | 0x1#8 =>
    if w.extractLsb' 0 6 = 0x0#6 then some (.vadd (w.extractLsb' 23 1) (w.extractLsb' 18 5) (w.extractLsb' 12 6) (w.extractLsb' 6 6))
    else none
  | 0x2#8 =>
    if w.extractLsb' 0 6 = 0x0#6 then some (.vsub (w.extractLsb' 23 1) (w.extractLsb' 18 5) (w.extractLsb' 12 6) (w.extractLsb' 6 6))
    else none
  | 0x3#8 =>
    if w.extractLsb' 0 6 = 0x0#6 then some (.vmul (w.extractLsb' 23 1) (w.extractLsb' 18 5) (w.extractLsb' 12 6) (w.extractLsb' 6 6))
    else none
  | 0x4#8 =>
    if w.extractLsb' 0 6 = 0x0#6 then some (.vmulhi (w.extractLsb' 23 1) (w.extractLsb' 18 5) (w.extractLsb' 12 6) (w.extractLsb' 6 6))
    else none
  | 0x5#8 =>
    if w.extractLsb' 0 6 = 0x0#6 then some (.vmulhz (w.extractLsb' 23 1) (w.extractLsb' 18 5) (w.extractLsb' 12 6) (w.extractLsb' 6 6))
    else none
  | 0x6#8 => some (.vmad (w.extractLsb' 23 1) (w.extractLsb' 18 5) (w.extractLsb' 12 6) (w.extractLsb' 6 6) (w.extractLsb' 0 6))
  | 0x7#8 =>
    if w.extractLsb' 0 6 = 0x0#6 then some (.vand (w.extractLsb' 23 1) (w.extractLsb' 18 5) (w.extractLsb' 12 6) (w.extractLsb' 6 6))
    else none
  | 0x8#8 =>
    if w.extractLsb' 0 6 = 0x0#6 then some (.vor (w.extractLsb' 23 1) (w.extractLsb' 18 5) (w.extractLsb' 12 6) (w.extractLsb' 6 6))
    else none
  | 0x9#8 =>
    if w.extractLsb' 0 6 = 0x0#6 then some (.vxor (w.extractLsb' 23 1) (w.extractLsb' 18 5) (w.extractLsb' 12 6) (w.extractLsb' 6 6))
    else none
  | 0xa#8 =>
    if w.extractLsb' 0 6 = 0x0#6 then some (.vandn (w.extractLsb' 23 1) (w.extractLsb' 18 5) (w.extractLsb' 12 6) (w.extractLsb' 6 6))
    else none
  | 0xb#8 =>
    if w.extractLsb' 0 6 = 0x0#6 then some (.vshl (w.extractLsb' 23 1) (w.extractLsb' 18 5) (w.extractLsb' 12 6) (w.extractLsb' 6 6))
    else none
  | 0xc#8 =>
    if w.extractLsb' 0 6 = 0x0#6 then some (.vshri (w.extractLsb' 23 1) (w.extractLsb' 18 5) (w.extractLsb' 12 6) (w.extractLsb' 6 6))
    else none
  | 0xd#8 =>
    if w.extractLsb' 0 6 = 0x0#6 then some (.vshrz (w.extractLsb' 23 1) (w.extractLsb' 18 5) (w.extractLsb' 12 6) (w.extractLsb' 6 6))
    else none
  | 0xe#8 =>
    if w.extractLsb' 0 6 = 0x0#6 then some (.vmini (w.extractLsb' 23 1) (w.extractLsb' 18 5) (w.extractLsb' 12 6) (w.extractLsb' 6 6))
    else none
  | 0xf#8 =>
    if w.extractLsb' 0 6 = 0x0#6 then some (.vminz (w.extractLsb' 23 1) (w.extractLsb' 18 5) (w.extractLsb' 12 6) (w.extractLsb' 6 6))
    else none
  | 0x10#8 =>
    if w.extractLsb' 0 6 = 0x0#6 then some (.vmaxi (w.extractLsb' 23 1) (w.extractLsb' 18 5) (w.extractLsb' 12 6) (w.extractLsb' 6 6))
    else none
  | 0x11#8 =>
    if w.extractLsb' 0 6 = 0x0#6 then some (.vmaxz (w.extractLsb' 23 1) (w.extractLsb' 18 5) (w.extractLsb' 12 6) (w.extractLsb' 6 6))
    else none
  | 0x12#8 =>
    if w.extractLsb' 0 12 = 0x0#12 then some (.vabsi (w.extractLsb' 23 1) (w.extractLsb' 18 5) (w.extractLsb' 12 6))
    else none
  | 0x13#8 =>
    if w.extractLsb' 0 12 = 0x0#12 then some (.vclz (w.extractLsb' 23 1) (w.extractLsb' 18 5) (w.extractLsb' 12 6))
    else none
  | 0x14#8 =>
    if w.extractLsb' 0 12 = 0x0#12 then some (.vpopc (w.extractLsb' 23 1) (w.extractLsb' 18 5) (w.extractLsb' 12 6))
    else none
  | 0x15#8 =>
    if w.extractLsb' 0 6 = 0x0#6 then some (.vaddsi (w.extractLsb' 23 1) (w.extractLsb' 18 5) (w.extractLsb' 12 6) (w.extractLsb' 6 6))
    else none
  | 0x16#8 =>
    if w.extractLsb' 0 6 = 0x0#6 then some (.vsubsi (w.extractLsb' 23 1) (w.extractLsb' 18 5) (w.extractLsb' 12 6) (w.extractLsb' 6 6))
    else none
  | 0x17#8 =>
    if w.extractLsb' 0 6 = 0x0#6 then some (.vcmpi (w.extractLsb' 23 1) (w.extractLsb' 18 5) (w.extractLsb' 12 6) (w.extractLsb' 6 6))
    else none
  | 0x18#8 => some (.vsel (w.extractLsb' 23 1) (w.extractLsb' 18 5) (w.extractLsb' 12 6) (w.extractLsb' 6 6) (w.extractLsb' 0 6))
  | 0x20#8 =>
    if w.extractLsb' 0 6 = 0x0#6 then some (.vfadd (w.extractLsb' 23 1) (w.extractLsb' 18 5) (w.extractLsb' 12 6) (w.extractLsb' 6 6))
    else none
  | 0x21#8 =>
    if w.extractLsb' 0 6 = 0x0#6 then some (.vfsub (w.extractLsb' 23 1) (w.extractLsb' 18 5) (w.extractLsb' 12 6) (w.extractLsb' 6 6))
    else none
  | 0x22#8 =>
    if w.extractLsb' 0 6 = 0x0#6 then some (.vfmul (w.extractLsb' 23 1) (w.extractLsb' 18 5) (w.extractLsb' 12 6) (w.extractLsb' 6 6))
    else none
  | 0x23#8 => some (.vfma (w.extractLsb' 23 1) (w.extractLsb' 18 5) (w.extractLsb' 12 6) (w.extractLsb' 6 6) (w.extractLsb' 0 6))
  | 0x24#8 => some (.vfms (w.extractLsb' 23 1) (w.extractLsb' 18 5) (w.extractLsb' 12 6) (w.extractLsb' 6 6) (w.extractLsb' 0 6))
  | 0x25#8 => some (.vfnma (w.extractLsb' 23 1) (w.extractLsb' 18 5) (w.extractLsb' 12 6) (w.extractLsb' 6 6) (w.extractLsb' 0 6))
  | 0x26#8 =>
    if w.extractLsb' 0 6 = 0x0#6 then some (.vfmin (w.extractLsb' 23 1) (w.extractLsb' 18 5) (w.extractLsb' 12 6) (w.extractLsb' 6 6))
    else none
  | 0x27#8 =>
    if w.extractLsb' 0 6 = 0x0#6 then some (.vfmax (w.extractLsb' 23 1) (w.extractLsb' 18 5) (w.extractLsb' 12 6) (w.extractLsb' 6 6))
    else none
  | 0x28#8 =>
    if w.extractLsb' 0 12 = 0x0#12 then some (.vfabs (w.extractLsb' 23 1) (w.extractLsb' 18 5) (w.extractLsb' 12 6))
    else none
  | 0x29#8 =>
    if w.extractLsb' 0 12 = 0x0#12 then some (.vfneg (w.extractLsb' 23 1) (w.extractLsb' 18 5) (w.extractLsb' 12 6))
    else none
  | 0x2a#8 =>
    if w.extractLsb' 0 6 = 0x0#6 then some (.vfcmp (w.extractLsb' 23 1) (w.extractLsb' 18 5) (w.extractLsb' 12 6) (w.extractLsb' 6 6))
    else none
  | 0x2b#8 =>
    if w.extractLsb' 0 12 = 0x0#12 then some (.vfclass (w.extractLsb' 23 1) (w.extractLsb' 18 5) (w.extractLsb' 12 6))
    else none
  | 0x2c#8 =>
    if w.extractLsb' 0 6 = 0x0#6 then some (.vfscale (w.extractLsb' 23 1) (w.extractLsb' 18 5) (w.extractLsb' 12 6) (w.extractLsb' 6 6))
    else none
  | 0x2d#8 =>
    if w.extractLsb' 0 6 = 0x0#6 then some (.vfdiv (w.extractLsb' 23 1) (w.extractLsb' 18 5) (w.extractLsb' 12 6) (w.extractLsb' 6 6))
    else none
  | 0x2e#8 =>
    if w.extractLsb' 0 12 = 0x0#12 then some (.vfsqrt (w.extractLsb' 23 1) (w.extractLsb' 18 5) (w.extractLsb' 12 6))
    else none
  | 0x30#8 =>
    if w.extractLsb' 23 1 = 0x0#1 ∧ w.extractLsb' 18 1 = 0x0#1 ∧ w.extractLsb' 0 6 = 0x0#6 then some (.vadd2 (w.extractLsb' 19 4) (w.extractLsb' 12 6) (w.extractLsb' 6 6))
    else none
  | 0x31#8 =>
    if w.extractLsb' 23 1 = 0x0#1 ∧ w.extractLsb' 18 1 = 0x0#1 ∧ w.extractLsb' 0 6 = 0x0#6 then some (.vsub2 (w.extractLsb' 19 4) (w.extractLsb' 12 6) (w.extractLsb' 6 6))
    else none
  | 0x32#8 =>
    if w.extractLsb' 23 1 = 0x0#1 ∧ w.extractLsb' 18 1 = 0x0#1 ∧ w.extractLsb' 0 6 = 0x0#6 then some (.vmul2 (w.extractLsb' 19 4) (w.extractLsb' 12 6) (w.extractLsb' 6 6))
    else none
  | 0x33#8 =>
    if w.extractLsb' 23 1 = 0x0#1 ∧ w.extractLsb' 17 2 = 0x0#2 ∧ w.extractLsb' 11 2 = 0x0#2 ∧ w.extractLsb' 0 7 = 0x0#7 then some (.dwadd (w.extractLsb' 19 4) (w.extractLsb' 13 4) (w.extractLsb' 7 4))
    else none
  | 0x34#8 =>
    if w.extractLsb' 23 1 = 0x0#1 ∧ w.extractLsb' 17 2 = 0x0#2 ∧ w.extractLsb' 12 1 = 0x0#1 ∧ w.extractLsb' 0 6 = 0x0#6 then some (.dwadds (w.extractLsb' 19 4) (w.extractLsb' 13 4) (w.extractLsb' 6 6))
    else none
  | 0x35#8 =>
    if w.extractLsb' 23 1 = 0x0#1 ∧ w.extractLsb' 17 2 = 0x0#2 ∧ w.extractLsb' 11 2 = 0x0#2 ∧ w.extractLsb' 0 7 = 0x0#7 then some (.dwmul (w.extractLsb' 19 4) (w.extractLsb' 13 4) (w.extractLsb' 7 4))
    else none
  | 0x36#8 =>
    if w.extractLsb' 23 1 = 0x0#1 ∧ w.extractLsb' 17 2 = 0x0#2 ∧ w.extractLsb' 12 1 = 0x0#1 ∧ w.extractLsb' 0 6 = 0x0#6 then some (.dwmuls (w.extractLsb' 19 4) (w.extractLsb' 13 4) (w.extractLsb' 6 6))
    else none
  | 0x37#8 =>
    if w.extractLsb' 23 1 = 0x0#1 ∧ w.extractLsb' 17 2 = 0x0#2 ∧ w.extractLsb' 0 13 = 0x0#13 then some (.dwnorm (w.extractLsb' 19 4) (w.extractLsb' 13 4))
    else none
  | 0x38#8 =>
    if w.extractLsb' 17 1 = 0x0#1 ∧ w.extractLsb' 0 13 = 0x0#13 then some (.dwcvt (w.extractLsb' 23 1) (w.extractLsb' 18 5) (w.extractLsb' 13 4))
    else none
  | 0x39#8 =>
    if w.extractLsb' 23 1 = 0x0#1 ∧ w.extractLsb' 18 1 = 0x0#1 ∧ w.extractLsb' 0 12 = 0x0#12 then some (.vrsum2 (w.extractLsb' 19 4) (w.extractLsb' 12 6))
    else none
  | 0x3a#8 =>
    if w.extractLsb' 0 12 = 0x0#12 then some (.vrsum (w.extractLsb' 23 1) (w.extractLsb' 18 5) (w.extractLsb' 12 6))
    else none
  | 0x3b#8 =>
    if w.extractLsb' 0 12 = 0x0#12 then some (.vrmax (w.extractLsb' 23 1) (w.extractLsb' 18 5) (w.extractLsb' 12 6))
    else none
  | 0x3c#8 =>
    if w.extractLsb' 0 12 = 0x0#12 then some (.vrmin (w.extractLsb' 23 1) (w.extractLsb' 18 5) (w.extractLsb' 12 6))
    else none
  | 0x40#8 =>
    if w.extractLsb' 0 6 = 0x0#6 then some (.vpadd (w.extractLsb' 23 1) (w.extractLsb' 18 5) (w.extractLsb' 12 6) (w.extractLsb' 6 6))
    else none
  | 0x41#8 =>
    if w.extractLsb' 0 6 = 0x0#6 then some (.vpsub (w.extractLsb' 23 1) (w.extractLsb' 18 5) (w.extractLsb' 12 6) (w.extractLsb' 6 6))
    else none
  | 0x42#8 =>
    if w.extractLsb' 0 6 = 0x0#6 then some (.vpmul (w.extractLsb' 23 1) (w.extractLsb' 18 5) (w.extractLsb' 12 6) (w.extractLsb' 6 6))
    else none
  | 0x43#8 => some (.vpfma (w.extractLsb' 23 1) (w.extractLsb' 18 5) (w.extractLsb' 12 6) (w.extractLsb' 6 6) (w.extractLsb' 0 6))
  | 0x44#8 =>
    if w.extractLsb' 0 6 = 0x0#6 then some (.vpmin (w.extractLsb' 23 1) (w.extractLsb' 18 5) (w.extractLsb' 12 6) (w.extractLsb' 6 6))
    else none
  | 0x45#8 =>
    if w.extractLsb' 0 6 = 0x0#6 then some (.vpmax (w.extractLsb' 23 1) (w.extractLsb' 18 5) (w.extractLsb' 12 6) (w.extractLsb' 6 6))
    else none
  | 0x46#8 => some (.vpdot (w.extractLsb' 23 1) (w.extractLsb' 18 5) (w.extractLsb' 12 6) (w.extractLsb' 6 6) (w.extractLsb' 0 6))
  | 0x47#8 =>
    if w.extractLsb' 0 6 = 0x0#6 then some (.vpcmp (w.extractLsb' 23 1) (w.extractLsb' 18 5) (w.extractLsb' 12 6) (w.extractLsb' 6 6))
    else none
  | 0x50#8 =>
    if w.extractLsb' 10 2 = 0x3#2 ∧ w.extractLsb' 4 2 = 0x3#2 then some (.vcvt (w.extractLsb' 23 1) (w.extractLsb' 18 5) (w.extractLsb' 12 6) (w.extractLsb' 6 4) (w.extractLsb' 0 4))
    else none
  | 0x51#8 =>
    if w.extractLsb' 7 5 = 0x18#5 then some (.vcvtp2N (w.extractLsb' 23 1) (w.extractLsb' 18 5) (w.extractLsb' 12 6) (w.extractLsb' 6 1) (w.extractLsb' 0 6))
    else
    if w.extractLsb' 7 5 = 0x1c#5 then some (.vcvtp2W (w.extractLsb' 23 1) (w.extractLsb' 18 5) (w.extractLsb' 12 6) (w.extractLsb' 6 1) (w.extractLsb' 0 6))
    else none
  | 0x52#8 =>
    if w.extractLsb' 8 4 = 0xc#4 then some (.vcvtp4N (w.extractLsb' 23 1) (w.extractLsb' 18 5) (w.extractLsb' 12 6) (w.extractLsb' 6 2) (w.extractLsb' 0 6))
    else
    if w.extractLsb' 8 4 = 0xe#4 then some (.vcvtp4W (w.extractLsb' 23 1) (w.extractLsb' 18 5) (w.extractLsb' 12 6) (w.extractLsb' 6 2) (w.extractLsb' 0 6))
    else none
  | 0x53#8 =>
    if w.extractLsb' 9 3 = 0x6#3 then some (.vcvtp8N (w.extractLsb' 23 1) (w.extractLsb' 18 5) (w.extractLsb' 12 6) (w.extractLsb' 6 3) (w.extractLsb' 0 6))
    else
    if w.extractLsb' 9 3 = 0x7#3 then some (.vcvtp8W (w.extractLsb' 23 1) (w.extractLsb' 18 5) (w.extractLsb' 12 6) (w.extractLsb' 6 3) (w.extractLsb' 0 6))
    else none
  | 0x54#8 =>
    if w.extractLsb' 3 3 = 0x6#3 then some (.vqnt (w.extractLsb' 23 1) (w.extractLsb' 18 5) (w.extractLsb' 12 6) (w.extractLsb' 6 6) (w.extractLsb' 0 3))
    else none
  | 0x55#8 =>
    if w.extractLsb' 3 3 = 0x6#3 then some (.vqdiv (w.extractLsb' 23 1) (w.extractLsb' 18 5) (w.extractLsb' 12 6) (w.extractLsb' 6 6) (w.extractLsb' 0 3))
    else none
  | 0x56#8 =>
    if w.extractLsb' 3 3 = 0x6#3 then some (.vdeq (w.extractLsb' 23 1) (w.extractLsb' 18 5) (w.extractLsb' 12 6) (w.extractLsb' 6 6) (w.extractLsb' 0 3))
    else none
  | 0x57#8 =>
    if w.extractLsb' 6 6 = 0x30#6 then some (.vmxpackScale (w.extractLsb' 23 1) (w.extractLsb' 18 5) (w.extractLsb' 12 6) (w.extractLsb' 0 6))
    else
    if w.extractLsb' 6 6 = 0x31#6 then some (.vmxpackAscale (w.extractLsb' 23 1) (w.extractLsb' 18 5) (w.extractLsb' 12 6) (w.extractLsb' 0 6))
    else
    if w.extractLsb' 9 3 = 0x7#3 then some (.vmxpackPutp (w.extractLsb' 23 1) (w.extractLsb' 18 5) (w.extractLsb' 12 6) (w.extractLsb' 6 3) (w.extractLsb' 0 6))
    else none
  | 0x58#8 =>
    if w.extractLsb' 9 3 = 0x6#3 then some (.vmxunp (w.extractLsb' 23 1) (w.extractLsb' 18 5) (w.extractLsb' 12 6) (w.extractLsb' 6 3) (w.extractLsb' 0 6))
    else none
  | 0x59#8 =>
    if w.extractLsb' 7 5 = 0x18#5 ∧ w.extractLsb' 0 6 = 0x0#6 then some (.vftoi (w.extractLsb' 23 1) (w.extractLsb' 18 5) (w.extractLsb' 12 6) (w.extractLsb' 6 1))
    else none
  | 0x5a#8 =>
    if w.extractLsb' 7 5 = 0x18#5 ∧ w.extractLsb' 0 6 = 0x0#6 then some (.vitof (w.extractLsb' 23 1) (w.extractLsb' 18 5) (w.extractLsb' 12 6) (w.extractLsb' 6 1))
    else none
  | 0x60#8 =>
    if w.extractLsb' 0 12 = 0x0#12 then some (.vrcp (w.extractLsb' 23 1) (w.extractLsb' 18 5) (w.extractLsb' 12 6))
    else none
  | 0x61#8 =>
    if w.extractLsb' 0 12 = 0x0#12 then some (.vrsq (w.extractLsb' 23 1) (w.extractLsb' 18 5) (w.extractLsb' 12 6))
    else none
  | 0x62#8 =>
    if w.extractLsb' 0 12 = 0x0#12 then some (.vexp2 (w.extractLsb' 23 1) (w.extractLsb' 18 5) (w.extractLsb' 12 6))
    else none
  | 0x63#8 =>
    if w.extractLsb' 0 12 = 0x0#12 then some (.vlog2 (w.extractLsb' 23 1) (w.extractLsb' 18 5) (w.extractLsb' 12 6))
    else none
  | 0x64#8 =>
    if w.extractLsb' 0 12 = 0x0#12 then some (.vsin (w.extractLsb' 23 1) (w.extractLsb' 18 5) (w.extractLsb' 12 6))
    else none
  | 0x65#8 =>
    if w.extractLsb' 0 12 = 0x0#12 then some (.vcos (w.extractLsb' 23 1) (w.extractLsb' 18 5) (w.extractLsb' 12 6))
    else none
  | 0x66#8 =>
    if w.extractLsb' 0 12 = 0x0#12 then some (.vtanh (w.extractLsb' 23 1) (w.extractLsb' 18 5) (w.extractLsb' 12 6))
    else none
  | 0x67#8 =>
    if w.extractLsb' 0 12 = 0x0#12 then some (.vsigm (w.extractLsb' 23 1) (w.extractLsb' 18 5) (w.extractLsb' 12 6))
    else none
  | 0x68#8 =>
    if w.extractLsb' 0 12 = 0x0#12 then some (.vexp (w.extractLsb' 23 1) (w.extractLsb' 18 5) (w.extractLsb' 12 6))
    else none
  | 0x70#8 => some (.vperm (w.extractLsb' 23 1) (w.extractLsb' 18 5) (w.extractLsb' 12 6) (w.extractLsb' 6 6) (w.extractLsb' 0 6))
  | 0x71#8 =>
    if w.extractLsb' 4 8 = 0x0#8 then some (.vbcast (w.extractLsb' 23 1) (w.extractLsb' 18 5) (w.extractLsb' 12 6) (w.extractLsb' 0 4))
    else none
  | 0x72#8 =>
    if w.extractLsb' 4 8 = 0x0#8 then some (.xcl (w.extractLsb' 23 1) (w.extractLsb' 18 5) (w.extractLsb' 12 6) (w.extractLsb' 3 1) (w.extractLsb' 0 3))
    else none
  | 0x73#8 =>
    if w.extractLsb' 6 6 = 0x0#6 then some (.xclb (w.extractLsb' 23 1) (w.extractLsb' 18 5) (w.extractLsb' 12 6) (w.extractLsb' 3 3) (w.extractLsb' 0 3))
    else none
  | 0x74#8 =>
    if w.extractLsb' 2 10 = 0x0#10 then some (.xred (w.extractLsb' 23 1) (w.extractLsb' 18 5) (w.extractLsb' 12 6) (w.extractLsb' 0 2))
    else none
  | 0x75#8 =>
    if w.extractLsb' 0 12 = 0x0#12 then some (.xcopy (w.extractLsb' 23 1) (w.extractLsb' 18 5) (w.extractLsb' 12 6))
    else none
  | 0x76#8 =>
    if w.extractLsb' 0 12 = 0x0#12 then some (.vmov (w.extractLsb' 23 1) (w.extractLsb' 18 5) (w.extractLsb' 12 6))
    else none
  | 0x77#8 =>
    if w.extractLsb' 0 18 = 0x0#18 then some (.vmovi (w.extractLsb' 23 1) (w.extractLsb' 18 5))
    else none
  | 0x78#8 =>
    if w.extractLsb' 23 1 = 0x0#1 ∧ w.extractLsb' 0 6 = 0x0#6 then some (.vtos (w.extractLsb' 18 5) (w.extractLsb' 12 6) (w.extractLsb' 6 6))
    else none
  | 0x79#8 =>
    if w.extractLsb' 0 12 = 0x0#12 then some (.vtree (w.extractLsb' 23 1) (w.extractLsb' 18 5) (w.extractLsb' 12 6))
    else none
  | 0x7a#8 =>
    if w.extractLsb' 18 6 = 0x0#6 ∧ w.extractLsb' 9 3 = 0x0#3 then some (.vmopTest (w.extractLsb' 12 6) (w.extractLsb' 6 3) (w.extractLsb' 0 6))
    else
    if w.extractLsb' 18 6 = 0x0#6 ∧ w.extractLsb' 9 3 = 0x1#3 ∧ w.extractLsb' 0 6 = 0x0#6 then some (.vmopNz (w.extractLsb' 12 6) (w.extractLsb' 6 3))
    else
    if w.extractLsb' 9 9 = 0x2#9 ∧ w.extractLsb' 0 6 = 0x0#6 then some (.vmopGet (w.extractLsb' 23 1) (w.extractLsb' 18 5) (w.extractLsb' 6 3))
    else
    if w.extractLsb' 9 15 = 0x3#15 ∧ w.extractLsb' 3 3 = 0x0#3 then some (.vmopAnd (w.extractLsb' 6 3) (w.extractLsb' 0 3))
    else
    if w.extractLsb' 9 15 = 0x4#15 ∧ w.extractLsb' 3 3 = 0x0#3 then some (.vmopOr (w.extractLsb' 6 3) (w.extractLsb' 0 3))
    else
    if w.extractLsb' 9 15 = 0x5#15 ∧ w.extractLsb' 3 3 = 0x0#3 then some (.vmopXor (w.extractLsb' 6 3) (w.extractLsb' 0 3))
    else
    if w.extractLsb' 9 15 = 0x6#15 ∧ w.extractLsb' 3 3 = 0x0#3 then some (.vmopNot (w.extractLsb' 6 3) (w.extractLsb' 0 3))
    else none
  | 0x7b#8 => some (.viota (w.extractLsb' 23 1) (w.extractLsb' 18 5) (w.extractLsb' 12 6) (w.extractLsb' 0 12))
  | 0x7c#8 =>
    if w.extractLsb' 4 14 = 0x0#14 then some (.vrand (w.extractLsb' 23 1) (w.extractLsb' 18 5) (w.extractLsb' 2 2) (w.extractLsb' 0 2))
    else
    if w.extractLsb' 4 14 = 0x1#14 then some (.vrandA (w.extractLsb' 23 1) (w.extractLsb' 18 5) (w.extractLsb' 2 2) (w.extractLsb' 0 2))
    else none
  | 0x7d#8 =>
    if w.extractLsb' 0 12 = 0x0#12 then some (.vcount (w.extractLsb' 23 1) (w.extractLsb' 18 5) (w.extractLsb' 12 6))
    else none
  | 0x7e#8 =>
    if w.extractLsb' 8 4 = 0xc#4 ∧ w.extractLsb' 0 6 = 0x0#6 then some (.vscan (w.extractLsb' 23 1) (w.extractLsb' 18 5) (w.extractLsb' 12 6) (w.extractLsb' 6 2))
    else none
  | 0x7f#8 =>
    if w.extractLsb' 18 6 = 0x0#6 ∧ w.extractLsb' 0 6 = 0x0#6 then some (.vputk (w.extractLsb' 12 6) (w.extractLsb' 6 6))
    else none
  | _ => none

def decodeV (w : BitVec 32) : Option Instr := decodeVOp (w.extractLsb' 24 8) w

/-- The M slot' class of the opcode map (03:R65): the operation that a syllable encodes, none where the opcode is
not listed or a reserved field is not 0 (03:R64). -/
def decodeMOp (op : BitVec 8) (w : BitVec 32) : Option Instr :=
  match op with
  | 0x1#8 =>
    if w.extractLsb' 0 21 = 0x0#21 then some (.mset (w.extractLsb' 21 3))
    else none
  | 0x2#8 =>
    if w.extractLsb' 0 15 = 0x0#15 then some (.mcall (w.extractLsb' 15 9))
    else none
  | 0x3#8 =>
    if w.extractLsb' 0 12 = 0x0#12 then some (.mloads (w.extractLsb' 18 6) (w.extractLsb' 12 6))
    else none
  | 0x4#8 =>
    if w.extractLsb' 0 24 = 0x0#24 then some .mswap
    else none
  | 0x5#8 =>
    if w.extractLsb' 0 3 = 0x0#3 then some (.mstream (w.extractLsb' 18 6) (w.extractLsb' 12 6) (w.extractLsb' 4 8) (w.extractLsb' 3 1))
    else none
  | 0x6#8 =>
    if w.extractLsb' 0 18 = 0x0#18 then some (.mexp (w.extractLsb' 18 6))
    else none
  | 0x7#8 =>
    if w.extractLsb' 0 3 = 0x0#3 then some (.mdrain (w.extractLsb' 18 6) (w.extractLsb' 12 6) (w.extractLsb' 4 8) (w.extractLsb' 3 1))
    else none
  | 0x8#8 =>
    if w.extractLsb' 0 18 = 0x0#18 then some (.mepiCol (w.extractLsb' 18 6))
    else
    if w.extractLsb' 0 18 = 0x10000#18 then some (.mepiRow (w.extractLsb' 18 6))
    else
    if w.extractLsb' 0 18 = 0x20000#18 then some (.mepiCfg (w.extractLsb' 18 6))
    else none
  | 0x9#8 =>
    if w.extractLsb' 0 10 = 0x0#10 then some (.mclr (w.extractLsb' 18 6) (w.extractLsb' 10 8))
    else none
  | 0xa#8 =>
    if w.extractLsb' 0 18 = 0x0#18 then some (.mspmeta (w.extractLsb' 18 6))
    else none
  | 0xb#8 =>
    if w.extractLsb' 11 1 = 0x0#1 ∧ w.extractLsb' 0 4 = 0x0#4 then some (.macc (w.extractLsb' 18 6) (w.extractLsb' 12 6) (w.extractLsb' 4 7))
    else none
  | 0xc#8 =>
    if w.extractLsb' 0 24 = 0x0#24 then some .mtaintClr
    else
    if w.extractLsb' 0 24 = 0x400000#24 then some .mtaintSet
    else none
  | 0xd#8 =>
    if w.extractLsb' 0 18 = 0x0#18 then some (.mstat (w.extractLsb' 21 3) (w.extractLsb' 18 3))
    else none
  | _ => none

def decodeM (w : BitVec 32) : Option Instr := decodeMOp (w.extractLsb' 24 8) w

/-- The C slots' class of the opcode map (03:R65): the operation that a syllable encodes, none where the opcode is
not listed or a reserved field is not 0 (03:R64). -/
def decodeCOp (op : BitVec 8) (w : BitVec 32) : Option Instr :=
  match op with
  | 0x1#8 => some (.ldb (w.extractLsb' 21 3) (w.extractLsb' 16 5) (w.extractLsb' 12 4) (w.extractLsb' 0 12))
  | 0x2#8 => some (.ldh (w.extractLsb' 21 3) (w.extractLsb' 16 5) (w.extractLsb' 12 4) (w.extractLsb' 0 12))
  | 0x3#8 => some (.ldw (w.extractLsb' 21 3) (w.extractLsb' 16 5) (w.extractLsb' 12 4) (w.extractLsb' 0 12))
  | 0x4#8 => some (.ldd (w.extractLsb' 21 3) (w.extractLsb' 16 5) (w.extractLsb' 12 4) (w.extractLsb' 0 12))
  | 0x5#8 => some (.stb (w.extractLsb' 21 3) (w.extractLsb' 16 5) (w.extractLsb' 12 4) (w.extractLsb' 0 12))
  | 0x6#8 => some (.sth (w.extractLsb' 21 3) (w.extractLsb' 16 5) (w.extractLsb' 12 4) (w.extractLsb' 0 12))
  | 0x7#8 => some (.stw (w.extractLsb' 21 3) (w.extractLsb' 16 5) (w.extractLsb' 12 4) (w.extractLsb' 0 12))
  | 0x8#8 => some (.std (w.extractLsb' 21 3) (w.extractLsb' 16 5) (w.extractLsb' 12 4) (w.extractLsb' 0 12))
  | 0x9#8 => some (.ldv (w.extractLsb' 21 3) (w.extractLsb' 16 5) (w.extractLsb' 12 4) (w.extractLsb' 0 12))
  | 0xa#8 => some (.stv (w.extractLsb' 21 3) (w.extractLsb' 16 5) (w.extractLsb' 12 4) (w.extractLsb' 0 12))
  | 0xb#8 => some (.ldvb (w.extractLsb' 21 3) (w.extractLsb' 16 5) (w.extractLsb' 12 4) (w.extractLsb' 0 12))
  | 0xc#8 =>
    if w.extractLsb' 0 9 = 0x0#9 then some (.ldg (w.extractLsb' 23 1) (w.extractLsb' 18 5) (w.extractLsb' 13 5) (w.extractLsb' 9 4))
    else none
  | 0xd#8 =>
    if w.extractLsb' 0 9 = 0x0#9 then some (.stg (w.extractLsb' 23 1) (w.extractLsb' 18 5) (w.extractLsb' 13 5) (w.extractLsb' 9 4))
    else none
  | 0xe#8 => some (.cstv (w.extractLsb' 23 1) (w.extractLsb' 18 5) (w.extractLsb' 13 5) (w.extractLsb' 9 4) (w.extractLsb' 0 9))
  | 0xf#8 =>
    if w.extractLsb' 16 1 = 0x0#1 then some (.ldp (w.extractLsb' 21 3) (w.extractLsb' 17 4) (w.extractLsb' 12 4) (w.extractLsb' 0 12))
    else none
  | 0x10#8 =>
    if w.extractLsb' 16 1 = 0x0#1 then some (.stp (w.extractLsb' 21 3) (w.extractLsb' 17 4) (w.extractLsb' 12 4) (w.extractLsb' 0 12))
    else none
  | 0x11#8 =>
    if w.extractLsb' 20 4 = 0x8#4 ∧ w.extractLsb' 0 12 = 0x0#12 then some (.adda (w.extractLsb' 16 4) (w.extractLsb' 12 4))
    else none
  | 0x12#8 =>
    if w.extractLsb' 1 11 = 0x0#11 then some (.mova (w.extractLsb' 21 3) (w.extractLsb' 16 5) (w.extractLsb' 12 4) (w.extractLsb' 0 1))
    else none
  | 0x18#8 =>
    if w.extractLsb' 0 19 = 0x0#19 then some (.fence (w.extractLsb' 21 3) (w.extractLsb' 19 2))
    else none
  | 0x19#8 => some (.strel (w.extractLsb' 21 3) (w.extractLsb' 16 5) (w.extractLsb' 12 4) (w.extractLsb' 0 12))
  | 0x1a#8 => some (.ldacq (w.extractLsb' 21 3) (w.extractLsb' 16 5) (w.extractLsb' 12 4) (w.extractLsb' 0 12))
  | 0x20#8 => some (.atadd (w.extractLsb' 21 3) (w.extractLsb' 16 5) (w.extractLsb' 12 4) (w.extractLsb' 0 12))
  | 0x21#8 => some (.atmin (w.extractLsb' 21 3) (w.extractLsb' 16 5) (w.extractLsb' 12 4) (w.extractLsb' 0 12))
  | 0x22#8 => some (.atmax (w.extractLsb' 21 3) (w.extractLsb' 16 5) (w.extractLsb' 12 4) (w.extractLsb' 0 12))
  | 0x23#8 => some (.atand (w.extractLsb' 21 3) (w.extractLsb' 16 5) (w.extractLsb' 12 4) (w.extractLsb' 0 12))
  | 0x24#8 => some (.ator (w.extractLsb' 21 3) (w.extractLsb' 16 5) (w.extractLsb' 12 4) (w.extractLsb' 0 12))
  | 0x25#8 => some (.atswp (w.extractLsb' 21 3) (w.extractLsb' 16 5) (w.extractLsb' 12 4) (w.extractLsb' 0 12))
  | 0x26#8 => some (.atcas (w.extractLsb' 19 5) (w.extractLsb' 14 5) (w.extractLsb' 10 4) (w.extractLsb' 0 10))
  | 0x27#8 => some (.atfadd (w.extractLsb' 21 3) (w.extractLsb' 16 5) (w.extractLsb' 12 4) (w.extractLsb' 0 12))
  | 0x28#8 => some (.atbadd (w.extractLsb' 21 3) (w.extractLsb' 16 5) (w.extractLsb' 12 4) (w.extractLsb' 0 12))
  | 0x29#8 => some (.binrd (w.extractLsb' 21 3) (w.extractLsb' 16 5) (w.extractLsb' 12 4) (w.extractLsb' 0 12))
  | 0x2a#8 => some (.bininit (w.extractLsb' 21 3) (w.extractLsb' 16 5) (w.extractLsb' 12 4) (w.extractLsb' 0 12))
  | 0x30#8 =>
    if w.extractLsb' 0 8 = 0x0#8 then some (.qresv (w.extractLsb' 20 4) (w.extractLsb' 12 8) (w.extractLsb' 8 4))
    else none
  | 0x31#8 =>
    if w.extractLsb' 0 8 = 0x0#8 then some (.qpush (w.extractLsb' 20 4) (w.extractLsb' 17 3) (w.extractLsb' 12 5) (w.extractLsb' 8 4))
    else none
  | 0x32#8 =>
    if w.extractLsb' 0 10 = 0x0#10 then some (.qstat (w.extractLsb' 20 4) (w.extractLsb' 17 3) (w.extractLsb' 12 5) (w.extractLsb' 10 2))
    else none
  | 0x40#8 =>
    if w.extractLsb' 0 6 = 0x0#6 then some (.wopen (w.extractLsb' 22 2) (w.extractLsb' 18 4) (w.extractLsb' 6 12))
    else none
  | 0x41#8 =>
    if w.extractLsb' 0 15 = 0x0#15 then some (.wadv (w.extractLsb' 22 2) (w.extractLsb' 15 7))
    else none
  | 0x42#8 =>
    if w.extractLsb' 0 22 = 0x0#22 then some .wclose
    else none
  | 0x43#8 =>
    if w.extractLsb' 0 22 = 0x0#22 then some .wresRetry
    else
    if w.extractLsb' 0 22 = 0x200000#22 then some .wresFail
    else none
  | 0x44#8 =>
    if w.extractLsb' 0 14 = 0x0#14 then some (.wstat (w.extractLsb' 22 2) (w.extractLsb' 19 3) (w.extractLsb' 14 5))
    else none
  | 0x45#8 =>
    if w.extractLsb' 0 22 = 0x0#22 then some .wflush
    else none
  | 0x50#8 => some (.txsend (w.extractLsb' 20 4) (w.extractLsb' 16 4) (w.extractLsb' 0 16))
  | 0x51#8 =>
    if w.extractLsb' 0 20 = 0x0#20 then some .txwalk
    else none
  | 0x52#8 => some (.txcopy (w.extractLsb' 20 4) (w.extractLsb' 16 4) (w.extractLsb' 0 16))
  | 0x53#8 =>
    if w.extractLsb' 0 20 = 0x0#20 then some .txresRetry
    else
    if w.extractLsb' 0 20 = 0x80000#20 then some .txresFail
    else none
  | 0x54#8 =>
    if w.extractLsb' 0 16 = 0x0#16 then some (.rxarm (w.extractLsb' 21 3) (w.extractLsb' 16 5))
    else none
  | 0x55#8 => some (.rxflag (w.extractLsb' 21 3) (w.extractLsb' 16 5) (w.extractLsb' 0 16))
  | 0x56#8 => some (.mcsto (w.extractLsb' 20 4) (w.extractLsb' 16 4) (w.extractLsb' 0 16))
  | 0x57#8 =>
    if w.extractLsb' 22 2 = 0x0#2 ∧ w.extractLsb' 0 10 = 0x0#10 then some .mcapplBind
    else
    if w.extractLsb' 22 2 = 0x1#2 ∧ w.extractLsb' 0 14 = 0x0#14 then some (.mcapplRd (w.extractLsb' 19 3) (w.extractLsb' 14 5))
    else
    if w.extractLsb' 0 24 = 0x800000#24 then some .mcapplUnbind
    else none
  | 0x58#8 =>
    if w.extractLsb' 19 1 = 0x0#1 ∧ w.extractLsb' 0 11 = 0x0#11 then some (.mcjoinJoin (w.extractLsb' 20 4) (w.extractLsb' 16 3) (w.extractLsb' 11 5))
    else
    if w.extractLsb' 19 1 = 0x1#1 ∧ w.extractLsb' 0 11 = 0x0#11 then some (.mcjoinLeave (w.extractLsb' 20 4) (w.extractLsb' 16 3) (w.extractLsb' 11 5))
    else none
  | 0x59#8 => some (.ratom (w.extractLsb' 20 4) (w.extractLsb' 16 4) (w.extractLsb' 0 16))
  | 0x5a#8 => some (.rload (w.extractLsb' 20 4) (w.extractLsb' 16 4) (w.extractLsb' 0 16))
  | _ => none

def decodeC (w : BitVec 32) : Option Instr := decodeCOp (w.extractLsb' 24 8) w

/-- The syllable of a slot operation, most significant field first, from the encoding tables (03:R52 to R56 and the
home chapters). The 17 operations whose constructor has no arguments take their fields from the syllable `w`; an event
has no bits, and its syllable is none. -/
def encode (w : BitVec 32) : Instr → Option (BitVec 32)
  | .add d a b g n => some (cat 32 0x1#8 (cat 24 d (cat 19 a (cat 13 b (cat 7 g (cat 4 n 0x0#3))))))
  | .sub d a b g n => some (cat 32 0x2#8 (cat 24 d (cat 19 a (cat 13 b (cat 7 g (cat 4 n 0x0#3))))))
  | .mul d a b g n => some (cat 32 0x3#8 (cat 24 d (cat 19 a (cat 13 b (cat 7 g (cat 4 n 0x0#3))))))
  | .mulh d a b g n z => some (cat 32 0x4#8 (cat 24 d (cat 19 a (cat 13 b (cat 7 g (cat 4 n (cat 3 0x0#2 z)))))))
  | .div d a b g n z => some (cat 32 0x5#8 (cat 24 d (cat 19 a (cat 13 b (cat 7 g (cat 4 n (cat 3 0x0#2 z)))))))
  | .rem d a b g n z => some (cat 32 0x6#8 (cat 24 d (cat 19 a (cat 13 b (cat 7 g (cat 4 n (cat 3 0x0#2 z)))))))
  | .and d a b g n => some (cat 32 0x7#8 (cat 24 d (cat 19 a (cat 13 b (cat 7 g (cat 4 n 0x0#3))))))
  | .or d a b g n => some (cat 32 0x8#8 (cat 24 d (cat 19 a (cat 13 b (cat 7 g (cat 4 n 0x0#3))))))
  | .xor d a b g n => some (cat 32 0x9#8 (cat 24 d (cat 19 a (cat 13 b (cat 7 g (cat 4 n 0x0#3))))))
  | .andn d a b g n => some (cat 32 0xa#8 (cat 24 d (cat 19 a (cat 13 b (cat 7 g (cat 4 n 0x0#3))))))
  | .shl d a b g n => some (cat 32 0xb#8 (cat 24 d (cat 19 a (cat 13 b (cat 7 g (cat 4 n 0x0#3))))))
  | .shr d a b g n z => some (cat 32 0xc#8 (cat 24 d (cat 19 a (cat 13 b (cat 7 g (cat 4 n (cat 3 0x0#2 z)))))))
  | .rot d a b g n => some (cat 32 0xd#8 (cat 24 d (cat 19 a (cat 13 b (cat 7 g (cat 4 n 0x0#3))))))
  | .min d a b g n z => some (cat 32 0xe#8 (cat 24 d (cat 19 a (cat 13 b (cat 7 g (cat 4 n (cat 3 0x0#2 z)))))))
  | .max d a b g n z => some (cat 32 0xf#8 (cat 24 d (cat 19 a (cat 13 b (cat 7 g (cat 4 n (cat 3 0x0#2 z)))))))
  | .clz d a g n => some (cat 32 0x10#8 (cat 24 d (cat 19 a (cat 13 0x0#6 (cat 7 g (cat 4 n 0x0#3))))))
  | .ctz d a g n => some (cat 32 0x11#8 (cat 24 d (cat 19 a (cat 13 0x0#6 (cat 7 g (cat 4 n 0x0#3))))))
  | .popc d a g n => some (cat 32 0x12#8 (cat 24 d (cat 19 a (cat 13 0x0#6 (cat 7 g (cat 4 n 0x0#3))))))
  | .bswap d a g n => some (cat 32 0x13#8 (cat 24 d (cat 19 a (cat 13 0x0#6 (cat 7 g (cat 4 n 0x0#3))))))
  | .ext d a b g n z => some (cat 32 0x14#8 (cat 24 d (cat 19 a (cat 13 b (cat 7 g (cat 4 n (cat 3 0x0#2 z)))))))
  | .ins d a b g n => some (cat 32 0x15#8 (cat 24 d (cat 19 a (cat 13 b (cat 7 g (cat 4 n 0x0#3))))))
  | .sel d a b g n i => some (cat 32 0x16#8 (cat 24 d (cat 19 a (cat 13 b (cat 7 g (cat 4 n i))))))
  | .cmp d a b g n c => some (cat 32 0x17#8 (cat 24 0x0#2 (cat 22 d (cat 19 a (cat 13 b (cat 7 g (cat 4 n c)))))))
  | .gand d a b g n o => some (cat 32 0x18#8 (cat 24 0x0#2 (cat 22 d (cat 19 a (cat 13 b (cat 7 g (cat 4 n (cat 3 0x0#1 o))))))))
  | .addi d a i => some (cat 32 0x41#8 (cat 24 d (cat 19 a i)))
  | .andi d a i => some (cat 32 0x47#8 (cat 24 d (cat 19 a i)))
  | .ori d a i => some (cat 32 0x48#8 (cat 24 d (cat 19 a i)))
  | .xori d a i => some (cat 32 0x49#8 (cat 24 d (cat 19 a i)))
  | .shli d a c => some (cat 32 0x4b#8 (cat 24 d (cat 19 a (cat 13 0x0#7 c))))
  | .shri d a c => some (cat 32 0x4c#8 (cat 24 d (cat 19 a (cat 13 0x0#7 c))))
  | .cmpi c d a i => some (cat 32 0x57#8 (cat 24 c (cat 22 d (cat 19 a i))))
  | .movi d i => some (cat 32 0x58#8 (cat 24 d (cat 19 0x0#6 i)))
  | .movl d => some (cat 32 0x60#8 (cat 24 d 0x0#19))
  | .movlh d a => some (cat 32 0x61#8 (cat 24 d (cat 19 a 0x0#13)))
  | .addl d a => some (cat 32 0x62#8 (cat 24 d (cat 19 a 0x0#13)))
  | .br g n p => some (cat 32 0x80#8 (cat 24 g (cat 21 n p)))
  | .call g n p => some (cat 32 0x81#8 (cat 24 g (cat 21 n p)))
  | .bri d a g n => some (cat 32 0x82#8 (cat 24 d (cat 19 a (cat 13 0x0#6 (cat 7 g (cat 4 n 0x0#3))))))
  | .loop a n => some (cat 32 0x84#8 (cat 24 0x0#5 (cat 19 a (cat 13 0x0#3 n))))
  | .nopc n => some (cat 32 0x85#8 (cat 24 0x0#11 n))
  | .realign n => some (cat 32 0x86#8 (cat 24 0x0#18 n))
  | .setfmt a g n => some (cat 32 0x90#8 (cat 24 0x0#5 (cat 19 a (cat 13 0x0#6 (cat 7 g (cat 4 n 0x0#3))))))
  | .setcl a g n => some (cat 32 0x92#8 (cat 24 0x0#5 (cat 19 a (cat 13 0x0#6 (cat 7 g (cat 4 n 0x0#3))))))
  | .vmsel i g n v => some (cat 32 0x93#8 (cat 24 0x0#2 (cat 22 i (cat 19 0x0#12 (cat 7 g (cat 4 n (cat 3 0x0#2 v)))))))
  | .phpred a g n o => some (cat 32 0x94#8 (cat 24 0x0#5 (cat 19 a (cat 13 0x0#6 (cat 7 g (cat 4 n (cat 3 0x0#1 o)))))))
  | .signoff a b g n => some (cat 32 0x95#8 (cat 24 0x0#5 (cat 19 a (cat 13 b (cat 7 g (cat 4 n 0x0#3))))))
  | .tlreadV d a g n => some (cat 32 0x96#8 (cat 24 d (cat 19 a (cat 13 0x0#6 (cat 7 g (cat 4 n 0x0#3))))))
  | .tlwait a b g n => some (cat 32 0x97#8 (cat 24 0x0#5 (cat 19 a (cat 13 b (cat 7 g (cat 4 n 0x0#3))))))
  | .tlarm a b g n => some (cat 32 0x98#8 (cat 24 0x0#5 (cat 19 a (cat 13 b (cat 7 g (cat 4 n 0x0#3))))))
  | .qbind i a g n => some (cat 32 0x99#8 (cat 24 0x0#3 (cat 21 i (cat 19 a (cat 13 0x0#6 (cat 7 g (cat 4 n 0x0#3)))))))
  | .gtime d g n s => some (cat 32 0x9a#8 (cat 24 d (cat 19 0x0#12 (cat 7 g (cat 4 n s)))))
  | .csrr d a g n => some (cat 32 0x9b#8 (cat 24 d (cat 19 a (cat 13 0x0#6 (cat 7 g (cat 4 n 0x0#3))))))
  | .csrw a b g n => some (cat 32 0x9c#8 (cat 24 0x0#5 (cat 19 a (cat 13 b (cat 7 g (cat 4 n 0x0#3))))))
  | .putk a g n => some (cat 32 0x9d#8 (cat 24 0x0#5 (cat 19 a (cat 13 0x0#6 (cat 7 g (cat 4 n 0x0#3))))))
  | .rkey a b g n k => some (cat 32 0xa0#8 (cat 24 0x0#5 (cat 19 a (cat 13 b (cat 7 g (cat 4 n (cat 3 0x0#1 k)))))))
  | .rkeyS a b g n k => some (cat 32 0xa0#8 (cat 24 0x0#5 (cat 19 a (cat 13 b (cat 7 g (cat 4 n (cat 3 0x1#1 k)))))))
  | .rctr a b g n k => some (cat 32 0xa1#8 (cat 24 0x0#5 (cat 19 a (cat 13 b (cat 7 g (cat 4 n (cat 3 0x0#1 k)))))))
  | .rctrRd d a g n k => some (cat 32 0xa1#8 (cat 24 d (cat 19 a (cat 13 0x0#6 (cat 7 g (cat 4 n (cat 3 0x1#1 k)))))))
  | .rskip a b g n k => some (cat 32 0xa2#8 (cat 24 0x0#5 (cat 19 a (cat 13 b (cat 7 g (cat 4 n (cat 3 0x0#1 k)))))))
  | .rdraw d g n k => some (cat 32 0xa3#8 (cat 24 d (cat 19 0x0#12 (cat 7 g (cat 4 n (cat 3 0x0#1 k))))))
  | .stov d a g n v => some (cat 32 0xa8#8 (cat 24 d (cat 19 a (cat 13 0x0#6 (cat 7 g (cat 4 n (cat 3 0x0#2 v)))))))
  | .stom d a g n => some (cat 32 0xa9#8 (cat 24 d (cat 19 a (cat 13 0x0#6 (cat 7 g (cat 4 n 0x0#3))))))
  | .trap a g n => some (cat 32 0xc0#8 (cat 24 0x0#5 (cat 19 a (cat 13 0x0#6 (cat 7 g (cat 4 n 0x0#3))))))
  | .preempt d a b g n => some (cat 32 0xc2#8 (cat 24 d (cat 19 a (cat 13 b (cat 7 g (cat 4 n 0x0#3))))))
  | .launch d a b g n => some (cat 32 0xc3#8 (cat 24 d (cat 19 a (cat 13 b (cat 7 g (cat 4 n 0x0#3))))))
  | .phload d a b g n => some (cat 32 0xc4#8 (cat 24 d (cat 19 a (cat 13 b (cat 7 g (cat 4 n 0x0#3))))))
  | .savectx d a b g n => some (cat 32 0xc5#8 (cat 24 d (cat 19 a (cat 13 b (cat 7 g (cat 4 n 0x0#3))))))
  | .restctx d a b g n => some (cat 32 0xc6#8 (cat 24 d (cat 19 a (cat 13 b (cat 7 g (cat 4 n 0x0#3))))))
  | .fcst a g n => some (cat 32 0xc7#8 (cat 24 0x0#5 (cat 19 a (cat 13 0x0#6 (cat 7 g (cat 4 n 0x0#3))))))
  | .watchArm d a b g n => some (cat 32 0xc8#8 (cat 24 d (cat 19 a (cat 13 b (cat 7 g (cat 4 n 0x0#3))))))
  | .watchDis a g n => some (cat 32 0xc8#8 (cat 24 0x0#5 (cat 19 a (cat 13 0x0#6 (cat 7 g (cat 4 n 0x1#3))))))
  | .mcode d a b g n => some (cat 32 0xc9#8 (cat 24 d (cat 19 a (cat 13 b (cat 7 g (cat 4 n 0x0#3))))))
  | .tlbinvPage a g n => some (cat 32 0xca#8 (cat 24 0x0#5 (cat 19 a (cat 13 0x0#6 (cat 7 g (cat 4 n 0x0#3))))))
  | .repair d a b g n => some (cat 32 0xcb#8 (cat 24 d (cat 19 a (cat 13 b (cat 7 g (cat 4 n 0x0#3))))))
  | .hostirq a g n => some (cat 32 0xcc#8 (cat 24 0x0#5 (cat 19 a (cat 13 0x0#6 (cat 7 g (cat 4 n 0x0#3))))))
  | .vadd w1 d a b => some (cat 32 0x1#8 (cat 24 w1 (cat 23 d (cat 18 a (cat 12 b 0x0#6)))))
  | .vsub w1 d a b => some (cat 32 0x2#8 (cat 24 w1 (cat 23 d (cat 18 a (cat 12 b 0x0#6)))))
  | .vmul w1 d a b => some (cat 32 0x3#8 (cat 24 w1 (cat 23 d (cat 18 a (cat 12 b 0x0#6)))))
  | .vmulhi w1 d a b => some (cat 32 0x4#8 (cat 24 w1 (cat 23 d (cat 18 a (cat 12 b 0x0#6)))))
  | .vmulhz w1 d a b => some (cat 32 0x5#8 (cat 24 w1 (cat 23 d (cat 18 a (cat 12 b 0x0#6)))))
  | .vmad w1 d a b c => some (cat 32 0x6#8 (cat 24 w1 (cat 23 d (cat 18 a (cat 12 b c)))))
  | .vand w1 d a b => some (cat 32 0x7#8 (cat 24 w1 (cat 23 d (cat 18 a (cat 12 b 0x0#6)))))
  | .vor w1 d a b => some (cat 32 0x8#8 (cat 24 w1 (cat 23 d (cat 18 a (cat 12 b 0x0#6)))))
  | .vxor w1 d a b => some (cat 32 0x9#8 (cat 24 w1 (cat 23 d (cat 18 a (cat 12 b 0x0#6)))))
  | .vandn w1 d a b => some (cat 32 0xa#8 (cat 24 w1 (cat 23 d (cat 18 a (cat 12 b 0x0#6)))))
  | .vshl w1 d a b => some (cat 32 0xb#8 (cat 24 w1 (cat 23 d (cat 18 a (cat 12 b 0x0#6)))))
  | .vshri w1 d a b => some (cat 32 0xc#8 (cat 24 w1 (cat 23 d (cat 18 a (cat 12 b 0x0#6)))))
  | .vshrz w1 d a b => some (cat 32 0xd#8 (cat 24 w1 (cat 23 d (cat 18 a (cat 12 b 0x0#6)))))
  | .vmini w1 d a b => some (cat 32 0xe#8 (cat 24 w1 (cat 23 d (cat 18 a (cat 12 b 0x0#6)))))
  | .vminz w1 d a b => some (cat 32 0xf#8 (cat 24 w1 (cat 23 d (cat 18 a (cat 12 b 0x0#6)))))
  | .vmaxi w1 d a b => some (cat 32 0x10#8 (cat 24 w1 (cat 23 d (cat 18 a (cat 12 b 0x0#6)))))
  | .vmaxz w1 d a b => some (cat 32 0x11#8 (cat 24 w1 (cat 23 d (cat 18 a (cat 12 b 0x0#6)))))
  | .vabsi w1 d a => some (cat 32 0x12#8 (cat 24 w1 (cat 23 d (cat 18 a 0x0#12))))
  | .vclz w1 d a => some (cat 32 0x13#8 (cat 24 w1 (cat 23 d (cat 18 a 0x0#12))))
  | .vpopc w1 d a => some (cat 32 0x14#8 (cat 24 w1 (cat 23 d (cat 18 a 0x0#12))))
  | .vaddsi w1 d a b => some (cat 32 0x15#8 (cat 24 w1 (cat 23 d (cat 18 a (cat 12 b 0x0#6)))))
  | .vsubsi w1 d a b => some (cat 32 0x16#8 (cat 24 w1 (cat 23 d (cat 18 a (cat 12 b 0x0#6)))))
  | .vcmpi w1 d a b => some (cat 32 0x17#8 (cat 24 w1 (cat 23 d (cat 18 a (cat 12 b 0x0#6)))))
  | .vsel w1 d a b c => some (cat 32 0x18#8 (cat 24 w1 (cat 23 d (cat 18 a (cat 12 b c)))))
  | .vfadd w1 d a b => some (cat 32 0x20#8 (cat 24 w1 (cat 23 d (cat 18 a (cat 12 b 0x0#6)))))
  | .vfsub w1 d a b => some (cat 32 0x21#8 (cat 24 w1 (cat 23 d (cat 18 a (cat 12 b 0x0#6)))))
  | .vfmul w1 d a b => some (cat 32 0x22#8 (cat 24 w1 (cat 23 d (cat 18 a (cat 12 b 0x0#6)))))
  | .vfma w1 d a b c => some (cat 32 0x23#8 (cat 24 w1 (cat 23 d (cat 18 a (cat 12 b c)))))
  | .vfms w1 d a b c => some (cat 32 0x24#8 (cat 24 w1 (cat 23 d (cat 18 a (cat 12 b c)))))
  | .vfnma w1 d a b c => some (cat 32 0x25#8 (cat 24 w1 (cat 23 d (cat 18 a (cat 12 b c)))))
  | .vfmin w1 d a b => some (cat 32 0x26#8 (cat 24 w1 (cat 23 d (cat 18 a (cat 12 b 0x0#6)))))
  | .vfmax w1 d a b => some (cat 32 0x27#8 (cat 24 w1 (cat 23 d (cat 18 a (cat 12 b 0x0#6)))))
  | .vfabs w1 d a => some (cat 32 0x28#8 (cat 24 w1 (cat 23 d (cat 18 a 0x0#12))))
  | .vfneg w1 d a => some (cat 32 0x29#8 (cat 24 w1 (cat 23 d (cat 18 a 0x0#12))))
  | .vfcmp w1 d a b => some (cat 32 0x2a#8 (cat 24 w1 (cat 23 d (cat 18 a (cat 12 b 0x0#6)))))
  | .vfclass w1 d a => some (cat 32 0x2b#8 (cat 24 w1 (cat 23 d (cat 18 a 0x0#12))))
  | .vfscale w1 d a b => some (cat 32 0x2c#8 (cat 24 w1 (cat 23 d (cat 18 a (cat 12 b 0x0#6)))))
  | .vfdiv w1 d a b => some (cat 32 0x2d#8 (cat 24 w1 (cat 23 d (cat 18 a (cat 12 b 0x0#6)))))
  | .vfsqrt w1 d a => some (cat 32 0x2e#8 (cat 24 w1 (cat 23 d (cat 18 a 0x0#12))))
  | .vadd2 d a b => some (cat 32 0x30#8 (cat 24 0x0#1 (cat 23 d (cat 19 0x0#1 (cat 18 a (cat 12 b 0x0#6))))))
  | .vsub2 d a b => some (cat 32 0x31#8 (cat 24 0x0#1 (cat 23 d (cat 19 0x0#1 (cat 18 a (cat 12 b 0x0#6))))))
  | .vmul2 d a b => some (cat 32 0x32#8 (cat 24 0x0#1 (cat 23 d (cat 19 0x0#1 (cat 18 a (cat 12 b 0x0#6))))))
  | .dwadd d a b => some (cat 32 0x33#8 (cat 24 0x0#1 (cat 23 d (cat 19 0x0#2 (cat 17 a (cat 13 0x0#2 (cat 11 b 0x0#7)))))))
  | .dwadds d a b => some (cat 32 0x34#8 (cat 24 0x0#1 (cat 23 d (cat 19 0x0#2 (cat 17 a (cat 13 0x0#1 (cat 12 b 0x0#6)))))))
  | .dwmul d a b => some (cat 32 0x35#8 (cat 24 0x0#1 (cat 23 d (cat 19 0x0#2 (cat 17 a (cat 13 0x0#2 (cat 11 b 0x0#7)))))))
  | .dwmuls d a b => some (cat 32 0x36#8 (cat 24 0x0#1 (cat 23 d (cat 19 0x0#2 (cat 17 a (cat 13 0x0#1 (cat 12 b 0x0#6)))))))
  | .dwnorm d a => some (cat 32 0x37#8 (cat 24 0x0#1 (cat 23 d (cat 19 0x0#2 (cat 17 a 0x0#13)))))
  | .dwcvt w1 d a => some (cat 32 0x38#8 (cat 24 w1 (cat 23 d (cat 18 0x0#1 (cat 17 a 0x0#13)))))
  | .vrsum2 d a => some (cat 32 0x39#8 (cat 24 0x0#1 (cat 23 d (cat 19 0x0#1 (cat 18 a 0x0#12)))))
  | .vrsum w1 d a => some (cat 32 0x3a#8 (cat 24 w1 (cat 23 d (cat 18 a 0x0#12))))
  | .vrmax w1 d a => some (cat 32 0x3b#8 (cat 24 w1 (cat 23 d (cat 18 a 0x0#12))))
  | .vrmin w1 d a => some (cat 32 0x3c#8 (cat 24 w1 (cat 23 d (cat 18 a 0x0#12))))
  | .vpadd w1 d a b => some (cat 32 0x40#8 (cat 24 w1 (cat 23 d (cat 18 a (cat 12 b 0x0#6)))))
  | .vpsub w1 d a b => some (cat 32 0x41#8 (cat 24 w1 (cat 23 d (cat 18 a (cat 12 b 0x0#6)))))
  | .vpmul w1 d a b => some (cat 32 0x42#8 (cat 24 w1 (cat 23 d (cat 18 a (cat 12 b 0x0#6)))))
  | .vpfma w1 d a b c => some (cat 32 0x43#8 (cat 24 w1 (cat 23 d (cat 18 a (cat 12 b c)))))
  | .vpmin w1 d a b => some (cat 32 0x44#8 (cat 24 w1 (cat 23 d (cat 18 a (cat 12 b 0x0#6)))))
  | .vpmax w1 d a b => some (cat 32 0x45#8 (cat 24 w1 (cat 23 d (cat 18 a (cat 12 b 0x0#6)))))
  | .vpdot w1 d a b c => some (cat 32 0x46#8 (cat 24 w1 (cat 23 d (cat 18 a (cat 12 b c)))))
  | .vpcmp w1 d a b => some (cat 32 0x47#8 (cat 24 w1 (cat 23 d (cat 18 a (cat 12 b 0x0#6)))))
  | .vcvt w1 d a t s => some (cat 32 0x50#8 (cat 24 w1 (cat 23 d (cat 18 a (cat 12 0x3#2 (cat 10 t (cat 6 0x3#2 s)))))))
  | .vcvtp2N w1 d a p c => some (cat 32 0x51#8 (cat 24 w1 (cat 23 d (cat 18 a (cat 12 0x18#5 (cat 7 p c))))))
  | .vcvtp2W w1 d a p c => some (cat 32 0x51#8 (cat 24 w1 (cat 23 d (cat 18 a (cat 12 0x1c#5 (cat 7 p c))))))
  | .vcvtp4N w1 d a p c => some (cat 32 0x52#8 (cat 24 w1 (cat 23 d (cat 18 a (cat 12 0xc#4 (cat 8 p c))))))
  | .vcvtp4W w1 d a p c => some (cat 32 0x52#8 (cat 24 w1 (cat 23 d (cat 18 a (cat 12 0xe#4 (cat 8 p c))))))
  | .vcvtp8N w1 d a p c => some (cat 32 0x53#8 (cat 24 w1 (cat 23 d (cat 18 a (cat 12 0x6#3 (cat 9 p c))))))
  | .vcvtp8W w1 d a p c => some (cat 32 0x53#8 (cat 24 w1 (cat 23 d (cat 18 a (cat 12 0x7#3 (cat 9 p c))))))
  | .vqnt w1 d a b p => some (cat 32 0x54#8 (cat 24 w1 (cat 23 d (cat 18 a (cat 12 b (cat 6 0x6#3 p))))))
  | .vqdiv w1 d a b p => some (cat 32 0x55#8 (cat 24 w1 (cat 23 d (cat 18 a (cat 12 b (cat 6 0x6#3 p))))))
  | .vdeq w1 d a b p => some (cat 32 0x56#8 (cat 24 w1 (cat 23 d (cat 18 a (cat 12 b (cat 6 0x6#3 p))))))
  | .vmxpackScale w1 d a c => some (cat 32 0x57#8 (cat 24 w1 (cat 23 d (cat 18 a (cat 12 0x30#6 c)))))
  | .vmxpackAscale w1 d a c => some (cat 32 0x57#8 (cat 24 w1 (cat 23 d (cat 18 a (cat 12 0x31#6 c)))))
  | .vmxpackPutp w1 d a p c => some (cat 32 0x57#8 (cat 24 w1 (cat 23 d (cat 18 a (cat 12 0x7#3 (cat 9 p c))))))
  | .vmxunp w1 d a p c => some (cat 32 0x58#8 (cat 24 w1 (cat 23 d (cat 18 a (cat 12 0x6#3 (cat 9 p c))))))
  | .vftoi w1 d a z => some (cat 32 0x59#8 (cat 24 w1 (cat 23 d (cat 18 a (cat 12 0x18#5 (cat 7 z 0x0#6))))))
  | .vitof w1 d a z => some (cat 32 0x5a#8 (cat 24 w1 (cat 23 d (cat 18 a (cat 12 0x18#5 (cat 7 z 0x0#6))))))
  | .vrcp w1 d a => some (cat 32 0x60#8 (cat 24 w1 (cat 23 d (cat 18 a 0x0#12))))
  | .vrsq w1 d a => some (cat 32 0x61#8 (cat 24 w1 (cat 23 d (cat 18 a 0x0#12))))
  | .vexp2 w1 d a => some (cat 32 0x62#8 (cat 24 w1 (cat 23 d (cat 18 a 0x0#12))))
  | .vlog2 w1 d a => some (cat 32 0x63#8 (cat 24 w1 (cat 23 d (cat 18 a 0x0#12))))
  | .vsin w1 d a => some (cat 32 0x64#8 (cat 24 w1 (cat 23 d (cat 18 a 0x0#12))))
  | .vcos w1 d a => some (cat 32 0x65#8 (cat 24 w1 (cat 23 d (cat 18 a 0x0#12))))
  | .vtanh w1 d a => some (cat 32 0x66#8 (cat 24 w1 (cat 23 d (cat 18 a 0x0#12))))
  | .vsigm w1 d a => some (cat 32 0x67#8 (cat 24 w1 (cat 23 d (cat 18 a 0x0#12))))
  | .vexp w1 d a => some (cat 32 0x68#8 (cat 24 w1 (cat 23 d (cat 18 a 0x0#12))))
  | .vperm w1 d a b c => some (cat 32 0x70#8 (cat 24 w1 (cat 23 d (cat 18 a (cat 12 b c)))))
  | .vbcast w1 d a p => some (cat 32 0x71#8 (cat 24 w1 (cat 23 d (cat 18 a (cat 12 0x0#8 p)))))
  | .xcl w1 d a u s => some (cat 32 0x72#8 (cat 24 w1 (cat 23 d (cat 18 a (cat 12 0x0#8 (cat 4 u s))))))
  | .xclb w1 d a s c => some (cat 32 0x73#8 (cat 24 w1 (cat 23 d (cat 18 a (cat 12 0x0#6 (cat 6 s c))))))
  | .xred w1 d a k => some (cat 32 0x74#8 (cat 24 w1 (cat 23 d (cat 18 a (cat 12 0x0#10 k)))))
  | .xcopy w1 d a => some (cat 32 0x75#8 (cat 24 w1 (cat 23 d (cat 18 a 0x0#12))))
  | .vmov w1 d a => some (cat 32 0x76#8 (cat 24 w1 (cat 23 d (cat 18 a 0x0#12))))
  | .vmovi w1 d => some (cat 32 0x77#8 (cat 24 w1 (cat 23 d 0x0#18)))
  | .vtos d a b => some (cat 32 0x78#8 (cat 24 0x0#1 (cat 23 d (cat 18 a (cat 12 b 0x0#6)))))
  | .vtree w1 d a => some (cat 32 0x79#8 (cat 24 w1 (cat 23 d (cat 18 a 0x0#12))))
  | .vmopTest a i b => some (cat 32 0x7a#8 (cat 24 0x0#6 (cat 18 a (cat 12 0x0#3 (cat 9 i b)))))
  | .vmopNz a i => some (cat 32 0x7a#8 (cat 24 0x0#6 (cat 18 a (cat 12 0x1#3 (cat 9 i 0x0#6)))))
  | .vmopGet w1 d i => some (cat 32 0x7a#8 (cat 24 w1 (cat 23 d (cat 18 0x2#9 (cat 9 i 0x0#6)))))
  | .vmopAnd i j => some (cat 32 0x7a#8 (cat 24 0x3#15 (cat 9 i (cat 6 0x0#3 j))))
  | .vmopOr i j => some (cat 32 0x7a#8 (cat 24 0x4#15 (cat 9 i (cat 6 0x0#3 j))))
  | .vmopXor i j => some (cat 32 0x7a#8 (cat 24 0x5#15 (cat 9 i (cat 6 0x0#3 j))))
  | .vmopNot i j => some (cat 32 0x7a#8 (cat 24 0x6#15 (cat 9 i (cat 6 0x0#3 j))))
  | .viota w1 d a s => some (cat 32 0x7b#8 (cat 24 w1 (cat 23 d (cat 18 a s))))
  | .vrand w1 d s k => some (cat 32 0x7c#8 (cat 24 w1 (cat 23 d (cat 18 0x0#14 (cat 4 s k)))))
  | .vrandA w1 d s k => some (cat 32 0x7c#8 (cat 24 w1 (cat 23 d (cat 18 0x1#14 (cat 4 s k)))))
  | .vcount w1 d a => some (cat 32 0x7d#8 (cat 24 w1 (cat 23 d (cat 18 a 0x0#12))))
  | .vscan w1 d a k => some (cat 32 0x7e#8 (cat 24 w1 (cat 23 d (cat 18 a (cat 12 0xc#4 (cat 8 k 0x0#6))))))
  | .vputk a b => some (cat 32 0x7f#8 (cat 24 0x0#6 (cat 18 a (cat 12 b 0x0#6))))
  | .mset d => some (cat 32 0x1#8 (cat 24 d 0x0#21))
  | .mcall i => some (cat 32 0x2#8 (cat 24 i 0x0#15))
  | .mloads a x => some (cat 32 0x3#8 (cat 24 a (cat 18 x 0x0#12)))
  | .mstream s r n z => some (cat 32 0x5#8 (cat 24 s (cat 18 r (cat 12 n (cat 4 z 0x0#3)))))
  | .mexp e => some (cat 32 0x6#8 (cat 24 e 0x0#18))
  | .mdrain d r n k => some (cat 32 0x7#8 (cat 24 d (cat 18 r (cat 12 n (cat 4 k 0x0#3)))))
  | .mepiCol a => some (cat 32 0x8#8 (cat 24 a 0x0#18))
  | .mepiRow a => some (cat 32 0x8#8 (cat 24 a 0x10000#18))
  | .mepiCfg a => some (cat 32 0x8#8 (cat 24 a 0x20000#18))
  | .mclr r n => some (cat 32 0x9#8 (cat 24 r (cat 18 n 0x0#10)))
  | .mspmeta a => some (cat 32 0xa#8 (cat 24 a 0x0#18))
  | .macc d r n => some (cat 32 0xb#8 (cat 24 d (cat 18 r (cat 12 0x0#1 (cat 11 n 0x0#4)))))
  | .mstat d s => some (cat 32 0xd#8 (cat 24 d (cat 21 s 0x0#18)))
  | .ldb f r b o => some (cat 32 0x1#8 (cat 24 f (cat 21 r (cat 16 b o))))
  | .ldh f r b o => some (cat 32 0x2#8 (cat 24 f (cat 21 r (cat 16 b o))))
  | .ldw f r b o => some (cat 32 0x3#8 (cat 24 f (cat 21 r (cat 16 b o))))
  | .ldd f r b o => some (cat 32 0x4#8 (cat 24 f (cat 21 r (cat 16 b o))))
  | .stb f r b o => some (cat 32 0x5#8 (cat 24 f (cat 21 r (cat 16 b o))))
  | .sth f r b o => some (cat 32 0x6#8 (cat 24 f (cat 21 r (cat 16 b o))))
  | .stw f r b o => some (cat 32 0x7#8 (cat 24 f (cat 21 r (cat 16 b o))))
  | .std f r b o => some (cat 32 0x8#8 (cat 24 f (cat 21 r (cat 16 b o))))
  | .ldv f r b o => some (cat 32 0x9#8 (cat 24 f (cat 21 r (cat 16 b o))))
  | .stv f r b o => some (cat 32 0xa#8 (cat 24 f (cat 21 r (cat 16 b o))))
  | .ldvb f r b o => some (cat 32 0xb#8 (cat 24 f (cat 21 r (cat 16 b o))))
  | .ldg f d i b => some (cat 32 0xc#8 (cat 24 f (cat 23 d (cat 18 i (cat 13 b 0x0#9)))))
  | .stg f d i b => some (cat 32 0xd#8 (cat 24 f (cat 23 d (cat 18 i (cat 13 b 0x0#9)))))
  | .cstv f d v b o => some (cat 32 0xe#8 (cat 24 f (cat 23 d (cat 18 v (cat 13 b o)))))
  | .ldp f r b o => some (cat 32 0xf#8 (cat 24 f (cat 21 r (cat 17 0x0#1 (cat 16 b o)))))
  | .stp f r b o => some (cat 32 0x10#8 (cat 24 f (cat 21 r (cat 17 0x0#1 (cat 16 b o)))))
  | .adda r b => some (cat 32 0x11#8 (cat 24 0x8#4 (cat 20 r (cat 16 b 0x0#12))))
  | .mova f r b x => some (cat 32 0x12#8 (cat 24 f (cat 21 r (cat 16 b (cat 12 0x0#11 x)))))
  | .fence s k => some (cat 32 0x18#8 (cat 24 s (cat 21 k 0x0#19)))
  | .strel f r b o => some (cat 32 0x19#8 (cat 24 f (cat 21 r (cat 16 b o))))
  | .ldacq f r b o => some (cat 32 0x1a#8 (cat 24 f (cat 21 r (cat 16 b o))))
  | .atadd f r b o => some (cat 32 0x20#8 (cat 24 f (cat 21 r (cat 16 b o))))
  | .atmin f r b o => some (cat 32 0x21#8 (cat 24 f (cat 21 r (cat 16 b o))))
  | .atmax f r b o => some (cat 32 0x22#8 (cat 24 f (cat 21 r (cat 16 b o))))
  | .atand f r b o => some (cat 32 0x23#8 (cat 24 f (cat 21 r (cat 16 b o))))
  | .ator f r b o => some (cat 32 0x24#8 (cat 24 f (cat 21 r (cat 16 b o))))
  | .atswp f r b o => some (cat 32 0x25#8 (cat 24 f (cat 21 r (cat 16 b o))))
  | .atcas d w1 b o => some (cat 32 0x26#8 (cat 24 d (cat 19 w1 (cat 14 b o))))
  | .atfadd f r b o => some (cat 32 0x27#8 (cat 24 f (cat 21 r (cat 16 b o))))
  | .atbadd f r b o => some (cat 32 0x28#8 (cat 24 f (cat 21 r (cat 16 b o))))
  | .binrd f r b o => some (cat 32 0x29#8 (cat 24 f (cat 21 r (cat 16 b o))))
  | .bininit f r b o => some (cat 32 0x2a#8 (cat 24 f (cat 21 r (cat 16 b o))))
  | .qresv c k t => some (cat 32 0x30#8 (cat 24 c (cat 20 k (cat 12 t 0x0#8))))
  | .qpush c f r t => some (cat 32 0x31#8 (cat 24 c (cat 20 f (cat 17 r (cat 12 t 0x0#8)))))
  | .qstat c f r s => some (cat 32 0x32#8 (cat 24 c (cat 20 f (cat 17 r (cat 12 s 0x0#10)))))
  | .wopen w1 b o => some (cat 32 0x40#8 (cat 24 w1 (cat 22 b (cat 18 o 0x0#6))))
  | .wadv w1 k => some (cat 32 0x41#8 (cat 24 w1 (cat 22 k 0x0#15)))
  | .wstat w1 f r => some (cat 32 0x44#8 (cat 24 w1 (cat 22 f (cat 19 r 0x0#14))))
  | .txsend c b o => some (cat 32 0x50#8 (cat 24 c (cat 20 b o)))
  | .txcopy c b o => some (cat 32 0x52#8 (cat 24 c (cat 20 b o)))
  | .rxarm f r => some (cat 32 0x54#8 (cat 24 f (cat 21 r 0x0#16)))
  | .rxflag f r t => some (cat 32 0x55#8 (cat 24 f (cat 21 r t)))
  | .mcsto c b o => some (cat 32 0x56#8 (cat 24 c (cat 20 b o)))
  | .mcapplRd f r => some (cat 32 0x57#8 (cat 24 0x1#2 (cat 22 f (cat 19 r 0x0#14))))
  | .mcjoinJoin c f r => some (cat 32 0x58#8 (cat 24 c (cat 20 0x0#1 (cat 19 f (cat 16 r 0x0#11)))))
  | .mcjoinLeave c f r => some (cat 32 0x58#8 (cat 24 c (cat 20 0x1#1 (cat 19 f (cat 16 r 0x0#11)))))
  | .ratom c b o => some (cat 32 0x59#8 (cat 24 c (cat 20 b o)))
  | .rload c b o => some (cat 32 0x5a#8 (cat 24 c (cat 20 b o)))
  | .nop => some (cat 32 0x0#8 0x0#24)
  | .ret => some (cat 32 0x83#8 (cat 24 0x0#17 (cat 7 (w.extractLsb' 4 3) (cat 4 (w.extractLsb' 3 1) 0x0#3))))
  | .halt => some (cat 32 0x87#8 (cat 24 0x0#17 (cat 7 (w.extractLsb' 4 3) (cat 4 (w.extractLsb' 3 1) 0x0#3))))
  | .getfmt => some (cat 32 0x91#8 (cat 24 (w.extractLsb' 19 5) (cat 19 0x0#12 (cat 7 (w.extractLsb' 4 3) (cat 4 (w.extractLsb' 3 1) 0x0#3)))))
  | .tlreadE => some (cat 32 0x96#8 (cat 24 (w.extractLsb' 19 5) (cat 19 0x0#12 (cat 7 (w.extractLsb' 4 3) (cat 4 (w.extractLsb' 3 1) 0x1#3)))))
  | .tlreadEc => some (cat 32 0x96#8 (cat 24 (w.extractLsb' 19 5) (cat 19 0x0#12 (cat 7 (w.extractLsb' 4 3) (cat 4 (w.extractLsb' 3 1) 0x2#3)))))
  | .eret => some (cat 32 0xc1#8 (cat 24 0x0#17 (cat 7 (w.extractLsb' 4 3) (cat 4 (w.extractLsb' 3 1) 0x0#3))))
  | .eretReplay => some (cat 32 0xc1#8 (cat 24 0x0#17 (cat 7 (w.extractLsb' 4 3) (cat 4 (w.extractLsb' 3 1) 0x1#3))))
  | .eretFail => some (cat 32 0xc1#8 (cat 24 0x0#17 (cat 7 (w.extractLsb' 4 3) (cat 4 (w.extractLsb' 3 1) 0x2#3))))
  | .tlbinvAll => some (cat 32 0xca#8 (cat 24 0x0#17 (cat 7 (w.extractLsb' 4 3) (cat 4 (w.extractLsb' 3 1) 0x1#3))))
  | .mswap => some (cat 32 0x4#8 0x0#24)
  | .mtaintClr => some (cat 32 0xc#8 0x0#24)
  | .mtaintSet => some (cat 32 0xc#8 0x400000#24)
  | .wclose => some (cat 32 0x42#8 (cat 24 (w.extractLsb' 22 2) 0x0#22))
  | .wresRetry => some (cat 32 0x43#8 (cat 24 (w.extractLsb' 22 2) 0x0#22))
  | .wresFail => some (cat 32 0x43#8 (cat 24 (w.extractLsb' 22 2) 0x200000#22))
  | .wflush => some (cat 32 0x45#8 (cat 24 (w.extractLsb' 22 2) 0x0#22))
  | .txwalk => some (cat 32 0x51#8 (cat 24 (w.extractLsb' 20 4) 0x0#20))
  | .txresRetry => some (cat 32 0x53#8 (cat 24 (w.extractLsb' 20 4) 0x0#20))
  | .txresFail => some (cat 32 0x53#8 (cat 24 (w.extractLsb' 20 4) 0x80000#20))
  | .mcapplBind => some (cat 32 0x57#8 (cat 24 0x0#2 (cat 22 (w.extractLsb' 10 12) 0x0#10)))
  | .mcapplUnbind => some (cat 32 0x57#8 0x800000#24)
  | .emptyBundle => none
  | .resultLanding => none
  | .bankAccess => none
  | .engineBankAccess => none
  | .eccRewrite => none
  | .arrayRowAccumulate => none
  | .drainRowWrite => none
  | .urgentContextEntry => none
  | .shadowDelivery => none
  | .preemptDelivery => none
  | .tlwaitRelease => none
  | .realignRelease => none
  | .c1LoadArrival => none
  | .fenceDone => none
  | .fetchMissFill => none
  | .phloadDone => none
  | .launchDone => none
  | .mcodeDone => none
  | .mcodeTargetLoad => none
  | .repairDone => none
  | .tlbinvDone => none
  | .watchArmDone => none
  | .watchFire => none
  | .hostirqRelease => none
  | .irqWindowExpiry => none
  | .msixUnmask => none
  | .signoffMessage => none
  | .portSignoff => none
  | .receiveSignoff => none
  | .cloveArrival => none
  | .phaseStart => none
  | .missedSignoff => none
  | .slackOverrun => none
  | .slackHardLimit => none
  | .maceWindow => none
  | .rowFill => none
  | .rowDrain => none
  | .windowOpComplete => none
  | .eventOverflowMove => none
  | .pageWalk => none
  | .transferComplete => none
  | .notifyPush => none
  | .qresvComplete => none
  | .qpushEnqueue => none
  | .timetableSourceRead => none
  | .timetabledFlitDepart => none
  | .flitArrival => none
  | .flitReplay => none
  | .linkRetrainDone => none
  | .linkLoss => none
  | .multicastStamp => none
  | .multicastApply => none
  | .multicastResend => none
  | .mcstoComplete => none
  | .multicastJoinRecord => none
  | .remoteAtomicPerform => none
  | .ratomReply => none
  | .ratomResend => none
  | .alignmentLost => none
  | .thermalStop => none
  | .thermalIndexUpdate => none
  | .taskAdmission => none
  | .taskStart => none
  | .indirectCountRead => none
  | .backfillCutoff => none
  | .ensemblePartnerTimeout => none
  | .taskEnd => none
  | .savePoint => none
  | .restctxDone => none
  | .form => none
  | .dissolve => none
  | .opench => none
  | .closech => none
  | .group => none
  | .restart => none
  | .domain => none
  | .sparecc => none
  | .fwstage => none
  | .fwact => none
  | .serviceCommandComplete => none
  | .irqwinWrite => none
  | .allotWrite => none
  | .registerWrite => none
  | .hostWrite => none
  | .hostRead => none
  | .patrolScrub => none
  | .coldReset => none
  | .warmReset => none
  | .getVersion => none
  | .getCapabilities => none
  | .negotiateAlgorithms => none
  | .getDigests => none
  | .getCertificate => none
  | .challenge => none
  | .getMeasurements => none
  | .thermalLimitReached => none
  | .hbmRefresh => none
  | .c1StorePerformed => none
  | .multicastMemberFailed => none

/-! ### Bundles -/

/-- An operation of a bundle: its slot, its syllable and what it is. -/
structure Op where
  slot : Nat
  syl : W32
  ins : Instr
deriving DecidableEq, Repr

/-- A bundle (03:R47): head, lend value, length in syllables, and the operations in slot order. -/
structure Bundle where
  head : W32
  lend : W32
  len : Nat
  ops : List Op
deriving DecidableEq, Repr

/-- What the decoder makes of the syllables at an address. -/
inductive Decoded where
  | legal (b : Bundle)
  /-- the conditions met, and the slots of the operations at fault with the cause recorded, 15 where none is -/
  | illegal (why : List Illegal) (slots : List Nat)
deriving DecidableEq, Repr

/-- The class of a slot. -/
def decodeSlot (slot : Nat) (w : W32) : Option Instr :=
  if slot = 0 then decodeS w
  else if slot ≤ 2 then decodeV w
  else if slot = 3 then decodeM w
  else decodeC w

/-- The slots of a head, in slot order. -/
def presentSlots (h : W32) : List Nat := [0, 1, 2, 3, 4, 5].filter (headP h)

/-- Syllables in a bundle with this head (03:R47). -/
def bundleLen (h : W32) : Nat := 1 + (if headL h then 1 else 0) + (presentSlots h).length

/-- The operations of the present slots; none where some syllable encodes nothing. -/
def decodeOps : List Nat → List W32 → Option (List Op)
  | [], _ => some []
  | s :: ss, ws =>
    match decodeSlot s (ws.headD 0), decodeOps ss ws.tail with
    | some i, some l => some (⟨s, ws.headD 0, i⟩ :: l)
    | _, _ => none

/-- The cause recorded for an illegal bundle (03:R64): 0x0A only where every condition is an urgent-context one. -/
def illegalCause (why : List Illegal) : W8 := if why.all (fun x => x.cause = 0x0A) then 0x0A else 0x01

/-- The slots whose syllables encode nothing. -/
def badSlots : List Nat → List W32 → List Nat
  | [], _ => []
  | s :: ss, ws => if (decodeSlot s (ws.headD 0)).isNone then s :: badSlots ss ws.tail else badSlots ss ws.tail

/-- The slots at fault with the cause recorded; 15 where the head alone is. -/
def illegalSlots (cc urg : Bool) (h : W32) (cause : W8) (ops : List (Nat × Shape)) : List Nat :=
  match (ops.filter (fun o => (opIllegal cc urg h o.1 o.2).any (fun x => x.cause = cause))).map (·.1) with
  | [] => [15]
  | l => l

/-- The bundle whose syllables start at the head of the list; missing syllables read 0. -/
def decodeBundle (cc urg : Bool) (ws : List W32) : Decoded :=
  let h := ws.headD 0
  let rest := if headL h then ws.tail.tail else ws.tail
  match decodeOps (presentSlots h) rest with
  | none => .illegal [.encoding] (badSlots (presentSlots h) rest)
  | some ops =>
    let shapes := ops.map (fun o => (o.slot, shape o.syl o.ins))
    match bundleIllegal cc urg h shapes with
    | [] => .legal ⟨h, if headL h then ws.tail.headD 0 else 0, bundleLen h, ops⟩
    | why => .illegal why (illegalSlots cc urg h (illegalCause why) shapes)

/-! ### One word of the opcode table -/

/-- The slot whose class reads a syllable. The classes share opcode values, so the word alone does not fix its slot: the
first class in the order S, V, C, M that has the word is taken, in slot V0 of the class V, and in C0 of the class C unless the
operation is for C1 alone (entry 12 of the log). -/
def tableSlot (w : W32) : Nat :=
  if (decodeS w).isSome then 0
  else if (decodeV w).isSome then 1
  else match decodeC w with
    | some i => if (shape w i).c1Only then 5 else 4
    | none => 3

/-- The operation that the decoder reads from one 32-bit syllable, its low byte first in memory (03:R47). -/
def decodeTableWord (nbits w : Nat) : Option Instr :=
  if nbits = 32 then decodeSlot (tableSlot (BitVec.ofNat 32 w)) (BitVec.ofNat 32 w) else none

/-- The head of a bundle that holds the one operation `i` in `slot` and satisfies the port and lend rules of R60, R61 and
R51 where the operation asks for them: port A or B for a source 40 or 41 or for file-3 store data, and the write port for
an operation that must own it. -/
def soloHead (slot : Nat) (s : Shape) : W32 :=
  let own (b : Bool) : Nat := if b then slot + 1 else 0
  let a := s.src.contains 40 || (s.file = 3 && s.cm.stores)
  let b := s.src.contains 41
  let w := (s.file = 3 && s.cm.loads) || s.res = .must
  BitVec.ofNat 32 (2 ^ (31 - slot) + (if s.lend then 2 ^ 25 else 0)
    + own a * 2 ^ 18 + (if s.file = 3 && s.cm.stores then s.reg % 16 else 0) * 2 ^ 14 + own b * 2 ^ 11
    + own w * 2 ^ 4 + (if s.file = 3 && s.cm.loads then s.reg % 16 else 0))

/-- The syllables of that bundle, with a lend value of 0. -/
def soloBundle (w : W32) : List W32 :=
  let slot := tableSlot w
  match decodeSlot slot w with
  | none => [soloHead slot {}, w]
  | some i =>
    let s := shape w i
    if s.lend then [soloHead slot s, 0, w] else [soloHead slot s, w]

/-- The bytes of syllables, little-endian (03:R47). -/
def syllableBytes : List W32 → List W8
  | [] => []
  | w :: ws => w.extractLsb' 0 8 :: w.extractLsb' 8 8 :: w.extractLsb' 16 8 :: w.extractLsb' 24 8 :: syllableBytes ws

end Sys2Proof
end

