-- ==== Sys2Proof/Machine/Float.lean ====
section
/-!
DEFINITION. Floating-point values, exact sums and the rounding of 02:R22 to R46. A finite value is a sign, a natural
magnitude m and an exponent e, worth (-1)^s m 2^e; every operation forms its exact result in these and rounds once.
Flags are a byte in the bit order of 02:R31.
-/

namespace Sys2Proof.Machine

/-- Rounding modes of FMT.rm (02:R27). -/
inductive RM where
  | rne | rz | ru | rd
deriving DecidableEq, Repr

def rmOf (b : BitVec 2) : RM :=
  if b = 0#2 then .rne else if b = 1#2 then .rz else if b = 2#2 then .ru else .rd

/-- The floating-point element formats of 02:R22. -/
inductive FT where
  | f32 | bf16 | e4m3 | e5m2 | e2m1
deriving DecidableEq, Repr

/-- Fraction bits. -/
def FT.fb : FT → Nat
  | .f32 => 23 | .bf16 => 7 | .e4m3 => 3 | .e5m2 => 2 | .e2m1 => 1

/-- Exponent of the smallest normal. -/
def FT.emin : FT → Int
  | .f32 => -126 | .bf16 => -126 | .e4m3 => -6 | .e5m2 => -14 | .e2m1 => 0

/-- Code of the largest finite magnitude. -/
def FT.maxc : FT → Nat
  | .f32 => 0x7F7FFFFF | .bf16 => 0x7F7F | .e4m3 => 0x7E | .e5m2 => 0x7B | .e2m1 => 7

/-- Bit position of the sign, which is the width minus one. -/
def FT.sb : FT → Nat
  | .f32 => 31 | .bf16 => 15 | .e4m3 => 7 | .e5m2 => 7 | .e2m1 => 3

/-- The canonical NaN; e2m1 has none and gives +0 (02:R22, R30). -/
def FT.nan : FT → W32
  | .f32 => 0x7FC00000 | .bf16 => 0x7FC0 | .e4m3 => 0x7F | .e5m2 => 0x7E | .e2m1 => 0

/-- The code of +Inf, where the format has one. -/
def FT.inf : FT → W32
  | .f32 => 0x7F800000 | .bf16 => 0x7F80 | .e4m3 => 0x7F | .e5m2 => 0x7C | .e2m1 => 7

/-- A decoded value. -/
inductive FV where
  | nan
  | inf (neg : Bool)
  | fin (neg : Bool) (m : Nat) (e : Int)
deriving DecidableEq, Repr

def fINV : W8 := 0x01
def fDZ : W8 := 0x02
def fOVF : W8 := 0x04
def fUNF : W8 := 0x08
def fINX : W8 := 0x10
def fPINX : W8 := 0x20
def fPOVF : W8 := 0x40
def fNNAN : W8 := 0x80

/-- A result code with the flags it raises. -/
structure FR where
  v : W32
  f : W8
deriving DecidableEq, Repr

/-- The value of a code (02:R22, R23): every NaN is quiet, and subnormals count. -/
def fdec (t : FT) (c : W32) : FV :=
  let n := c.toNat % 2 ^ (t.sb + 1)
  let neg := decide (n / 2 ^ t.sb = 1)
  let a := n % 2 ^ t.sb
  if a ≤ t.maxc then
    let ex := a / 2 ^ t.fb
    let fr := a % 2 ^ t.fb
    if ex = 0 then .fin neg fr (t.emin - t.fb) else .fin neg (fr + 2 ^ t.fb) (t.emin - t.fb + (ex : Int) - 1)
  else if t ≠ .e4m3 ∧ a = t.maxc + 1 then .inf neg
  else .nan

/-- The code of a magnitude with a sign. -/
def fsign (t : FT) (neg : Bool) (a : Nat) : W32 := BitVec.ofNat 32 (a + if neg then 2 ^ t.sb else 0)

def fzero (t : FT) (neg : Bool) : W32 := fsign t neg 0

/-- m * 2^e, with a fraction strictly between 0 and one unit more when sticky, rounded to a whole number of units 2^q:
the integer, and whether anything was discarded. -/
def roundUnits (rm : RM) (neg : Bool) (m : Nat) (e : Int) (sticky : Bool) (q : Int) : Nat × Bool :=
  if q ≤ e then
    let r := m * 2 ^ (e - q).toNat
    if sticky then ((match rm with | .ru => if neg then r else r + 1 | .rd => if neg then r + 1 else r | _ => r), true)
    else (r, false)
  else
    let d := (q - e).toNat
    let fl := m / 2 ^ d
    let rem := m % 2 ^ d
    let half := 2 ^ (d - 1)
    let inx := rem ≠ 0 || sticky
    let up : Bool := match rm with
      | .rne => decide (rem > half) || (rem = half && (sticky || fl % 2 = 1))
      | .rz => false
      | .ru => !neg && inx
      | .rd => neg && inx
    (if up then fl + 1 else fl, inx)

/-- What an overflow delivers (02:R29), with its flags: the delivered result differs from the exact one. -/
def foverflow (t : FT) (rm : RM) (sat : Bool) (neg : Bool) : FR :=
  let toMax : Bool := match rm with
    | .rne => false | .rz => true | .ru => neg | .rd => !neg
  match t with
  | .e2m1 => ⟨fsign t neg t.maxc, fOVF ||| fINX⟩
  | .e4m3 => if sat || toMax then ⟨fsign t neg t.maxc, fOVF ||| fINX⟩ else ⟨t.nan, fOVF ||| fINX ||| fNNAN⟩
  | .e5m2 => if sat || toMax then ⟨fsign t neg t.maxc, fOVF ||| fINX⟩ else ⟨fsign t neg t.inf.toNat, fOVF ||| fINX⟩
  | _ => if toMax then ⟨fsign t neg t.maxc, fOVF ||| fINX⟩ else ⟨fsign t neg t.inf.toNat, fOVF ||| fINX⟩

/-- A finite magnitude m * 2^e (and a sticky part below its last unit) rounded into a format (02:R28, R29): tininess is
judged before rounding. -/
def fround (t : FT) (rm : RM) (sat : Bool) (neg : Bool) (m : Nat) (e : Int) (sticky : Bool) : FR :=
  if m = 0 then ⟨fzero t neg, if sticky then fUNF ||| fINX else 0⟩
  else
    let ex : Int := (m.log2 : Int) + e
    let q0 := t.emin - t.fb
    let q := max (ex - t.fb) q0
    let (r, inx) := roundUnits rm neg m e sticky q
    let code := (q - q0).toNat * 2 ^ t.fb + r
    if code > t.maxc then foverflow t rm sat neg
    else ⟨fsign t neg code, if inx then (if ex < t.emin then fINX ||| fUNF else fINX) else 0⟩

/-- A NaN written into a format (02:R30, R31). -/
def fnanOut (t : FT) : FR :=
  ⟨t.nan, match t with | .f32 => 0 | .bf16 => 0 | _ => fNNAN⟩

/-- An infinity written into a format (02:R30). DEDUCED (entry 100): it sets the flags that R30 lists and not inexact, which 02:R31 could
be read to ask where a finite value is delivered. -/
def finfOut (t : FT) (sat : Bool) (neg : Bool) : FR :=
  match t with
  | .e2m1 => ⟨fsign t neg t.maxc, fOVF⟩
  | .e4m3 => if sat then ⟨fsign t neg t.maxc, fOVF⟩ else ⟨t.nan, fOVF ||| fNNAN⟩
  | .e5m2 => if sat then ⟨fsign t neg t.maxc, fOVF⟩ else ⟨fsign t neg t.inf.toNat, 0⟩
  | _ => ⟨fsign t neg t.inf.toNat, 0⟩

/-- A value written into a format, rounded once. -/
def fput (t : FT) (rm : RM) (sat : Bool) : FV → FR
  | .nan => fnanOut t
  | .inf neg => finfOut t sat neg
  | .fin neg m e => fround t rm sat neg m e false

def fneg : FV → FV
  | .nan => .nan
  | .inf s => .inf (!s)
  | .fin s m e => .fin (!s) m e

def fisNan : FV → Bool
  | .nan => true
  | _ => false

def fisInf : FV → Bool
  | .inf _ => true
  | _ => false

def fisZero : FV → Bool
  | .fin _ 0 _ => true
  | _ => false

def fsgn : FV → Bool
  | .nan => false
  | .inf s => s
  | .fin s _ _ => s

/-- The product of two values, none being NaN, and whether it is 0 times Inf. -/
def fprod (a b : FV) : FV × Bool :=
  match a, b with
  | .nan, _ => (.nan, false)
  | _, .nan => (.nan, false)
  | .fin s m e, .fin s' m' e' => (.fin (s != s') (m * m') (e + e'), false)
  | .inf s, .inf s' => (.inf (s != s'), false)
  | .inf s, .fin s' m' _ => if m' = 0 then (.nan, true) else (.inf (s != s'), false)
  | .fin s m _, .inf s' => if m = 0 then (.nan, true) else (.inf (s != s'), false)

/-- The exact sum of finite terms: an integer count of units 2^e with e the least exponent of the list. -/
def fexpMin : List FV → Int → Int
  | [], e => e
  | .fin _ m e :: t, d => fexpMin t (if m = 0 then d else min e d)
  | _ :: t, d => fexpMin t d

def fsumAt (e0 : Int) : List FV → Int
  | [] => 0
  | .fin s m e :: t => (if m = 0 then 0 else (if s then -1 else 1) * ((m * 2 ^ (e - e0).toNat : Nat) : Int)) + fsumAt e0 t
  | _ :: t => fsumAt e0 t

/-- A least exponent at or below every term that can occur. -/
def fexp0 (ts : List FV) : Int := fexpMin ts 4096

/-- The sign of an exact zero sum (02:R42). -/
def fzeroSign (rm : RM) (ts : List FV) : Bool :=
  if ts.all (fun t => fisZero t && fsgn t) && !ts.isEmpty then true
  else if ts.all (fun t => fisZero t && !(fsgn t)) then false
  else rm = .rd

/-- An exact sum of terms rounded once into a format. `bad` says that some product was 0 times Inf. A NaN among the
inputs gives NaN and no flag of its own (02:R31); otherwise 0 times Inf and Inf minus Inf are invalid. -/
def fsum (t : FT) (rm : RM) (sat : Bool) (anyNan bad : Bool) (ts : List FV) : FR :=
  if anyNan then fnanOut t
  else
    let pinf := ts.any (fun x => x = .inf false)
    let ninf := ts.any (fun x => x = .inf true)
    if bad || (pinf && ninf) then ⟨(fnanOut t).v, (fnanOut t).f ||| fINV⟩
    else if pinf then finfOut t sat false
    else if ninf then finfOut t sat true
    else
      let e0 := fexp0 ts
      let s := fsumAt e0 ts
      if s = 0 then ⟨fzero t (fzeroSign rm ts), 0⟩
      else fround t rm sat (decide (s < 0)) s.natAbs e0 false

def fadd (t : FT) (rm : RM) (sat : Bool) (a b : FV) : FR := fsum t rm sat (fisNan a || fisNan b) false [a, b]

def fmul (t : FT) (rm : RM) (sat : Bool) (a b : FV) : FR :=
  if fisNan a || fisNan b then fnanOut t
  else match fprod a b with
    | (_, true) => ⟨(fnanOut t).v, (fnanOut t).f ||| fINV⟩
    | (p, false) => fput t rm sat p

/-- a * b + c with one rounding. -/
def ffma (t : FT) (rm : RM) (sat : Bool) (a b c : FV) : FR :=
  let p := fprod a b
  fsum t rm sat (fisNan a || fisNan b || fisNan c) p.2 [p.1, c]

/-- a / b with one rounding (02:R31 for the special cases): 0/0 and Inf/Inf are invalid, a finite nonzero value over 0
is divide-by-zero. The quotient is formed to 160 bits below the leading one, the rest is the sticky part. -/
def fdiv (t : FT) (rm : RM) (sat : Bool) (a b : FV) : FR :=
  match a, b with
  | .nan, _ => fnanOut t
  | _, .nan => fnanOut t
  | .inf _, .inf _ => ⟨(fnanOut t).v, (fnanOut t).f ||| fINV⟩
  | .inf s, .fin s' _ _ => finfOut t sat (s != s')
  | .fin s _ _, .inf s' => ⟨fzero t (s != s'), 0⟩
  | .fin s m e, .fin s' m' e' =>
    if m' = 0 then
      if m = 0 then ⟨(fnanOut t).v, (fnanOut t).f ||| fINV⟩
      else ⟨(finfOut t sat (s != s')).v, (finfOut t sat (s != s')).f ||| fDZ⟩
    else if m = 0 then ⟨fzero t (s != s'), 0⟩
    else
      let k := 160 + m'.log2
      let q := m * 2 ^ k / m'
      fround t rm sat (s != s') q (e - e' - k) (decide (m * 2 ^ k % m' ≠ 0))

/-- The integer square root, one bit a step from bit k down. -/
def isqrtBits (n : Nat) : Nat → Nat → Nat
  | 0, r => r
  | k + 1, r => if (r + 2 ^ k) * (r + 2 ^ k) ≤ n then isqrtBits n k (r + 2 ^ k) else isqrtBits n k r

def isqrt (n : Nat) : Nat := isqrtBits n (n.log2 / 2 + 1) 0

def fsqrt (rm : RM) (a : FV) : FR :=
  match a with
  | .nan => fnanOut .f32
  | .inf false => finfOut .f32 false false
  | .inf true => ⟨FT.nan .f32, fINV⟩
  | .fin s m e =>
    if m = 0 then ⟨fzero .f32 s, 0⟩
    else if s then ⟨FT.nan .f32, fINV⟩
    else
      let k : Nat := if e % 2 = 0 then 200 else 201
      let n := m * 2 ^ k
      let r := isqrt n
      fround .f32 rm false false r ((e - k) / 2) (decide (r * r ≠ n))

/-- a < b among values that are not NaN; zeros of either sign are equal. -/
def flt (a b : FV) : Bool :=
  match a, b with
  | .nan, _ => false
  | _, .nan => false
  | .inf s, .inf s' => s && !s'
  | .inf s, .fin _ _ _ => s
  | .fin _ _ _, .inf s' => !s'
  | .fin s m e, .fin s' m' e' =>
    let e0 := min e e'
    let x : Int := (if s then -1 else 1) * ((m * 2 ^ (e - e0).toNat : Nat) : Int)
    let y : Int := (if s' then -1 else 1) * ((m' * 2 ^ (e' - e0).toNat : Nat) : Int)
    decide (x < y)

def feq (a b : FV) : Bool := !fisNan a && !fisNan b && !flt a b && !flt b a

/-- Maximum and minimum on f32 codes (02:R43): NaN wins and is canonical, -0 lies below +0. -/
def fmaxCode (t : FT) (a b : W32) : W32 :=
  let x := fdec t a
  let y := fdec t b
  if fisNan x || fisNan y then t.nan
  else if flt x y then b
  else if flt y x then a
  else if fsgn x then b else a

def fminCode (t : FT) (a b : W32) : W32 :=
  let x := fdec t a
  let y := fdec t b
  if fisNan x || fisNan y then t.nan
  else if flt x y then a
  else if flt y x then b
  else if fsgn x then a else b

/-- A value rounded to an integer, and whether a fraction was discarded. -/
def ftoInt (rm : RM) (neg : Bool) (m : Nat) (e : Int) : Int × Bool :=
  let (r, inx) := roundUnits rm neg m e false 0
  (if neg then -(r : Int) else r, inx)

/-- Conversion to an integer range (02:R30): out of range saturates and is invalid only. -/
def fconvInt (rm : RM) (lo hi : Int) : FV → Int × W8
  | .nan => (0, fINV)
  | .inf s => (if s then lo else hi, fINV)
  | .fin s m e =>
    let (v, inx) := ftoInt rm s m e
    if v < lo then (lo, fINV) else if v > hi then (hi, fINV) else (v, if inx then fINX else 0)

/-- SAT(v, T) for the range lo..hi (02:R34). -/
def satInt (lo hi v : Int) : Int := if v < lo then lo else if v > hi then hi else v

/-- An integer as an exact value. -/
def fofInt (v : Int) (e : Int) : FV := .fin (decide (v < 0)) v.natAbs e

/-- TWOSUM (02:R34, R35): the rounded sum and its exact error, always to nearest even. -/
def twoSum (a b : W32) : W32 × W32 × W8 :=
  let x := fdec .f32 a
  let y := fdec .f32 b
  let s := fadd .f32 .rne false x y
  match x, y with
  | .fin _ _ _, .fin _ _ _ =>
    match fdec .f32 s.v with
    | .fin sn sm se =>
      let ts := [x, y, .fin (!sn) sm se]
      let e0 := fexp0 ts
      let d := fsumAt e0 ts
      (s.v, if d = 0 then 0 else (fround .f32 .rne false (decide (d < 0)) d.natAbs e0 false).v, s.f)
    | _ => (s.v, 0, s.f ||| fPOVF)
  | _, _ => (s.v, 0, s.f)

/-- TWOPROD (02:R34, R35). -/
def twoProd (a b : W32) : W32 × W32 × W8 :=
  let x := fdec .f32 a
  let y := fdec .f32 b
  let p := fmul .f32 .rne false x y
  match x, y with
  | .fin _ _ _, .fin _ _ _ =>
    match fdec .f32 p.v with
    | .fin sn sm se =>
      let ts := [(fprod x y).1, .fin (!sn) sm se]
      let e0 := fexp0 ts
      let d := fsumAt e0 ts
      if d = 0 then (p.v, 0, p.f)
      else
        let r := fround .f32 .rne false (decide (d < 0)) d.natAbs e0 false
        let v := if r.v &&& 0x7FFFFFFF = 0 then 0 else r.v
        (p.v, v, if r.f &&& fINX ≠ 0 then p.f ||| fPINX else p.f)
    | _ => (p.v, 0, p.f ||| fPOVF)
  | _, _ => (p.v, 0, p.f)

/-- BINSPLIT (02:R34): three signed 32-bit parts, or none for ABOVE. -/
def binSplit (a : W32) (E : Int) : Option (Int × Int × Int) :=
  match fdec .f32 a with
  | .fin s m e =>
    -- |a| >= 2^(E+1)
    let above : Bool := m ≠ 0 && decide ((m.log2 : Int) + e ≥ E + 1)
    if above then none
    else
      let u := E - 95
      let t := if u ≤ e then m * 2 ^ (e - u).toNat else m / 2 ^ (u - e).toNat
      let sg : Int := if s then -1 else 1
      some (sg * ((t % 2 ^ 32 : Nat) : Int), sg * ((t / 2 ^ 32 % 2 ^ 32 : Nat) : Int), sg * ((t / 2 ^ 64 % 2 ^ 32 : Nat) : Int))
  | _ => none

/-- The value of a scale code e8m0 as a power of two, none for NaN (02:R24). -/
def scaleExp (s : W8) : Option Int := if s = 0xFF#8 then none else some ((s.toNat : Int) - 127)

/-- A value times 2^k. -/
def fscale2 (v : FV) (k : Int) : FV :=
  match v with
  | .fin s m e => .fin s m (e + k)
  | v => v

end Sys2Proof.Machine
end

