-- ==== Sys2Proof/Config.lean ====
section
/-!
DEFINITION. What the spec leaves open. Each constant here is opaque: it has a type and no body, so nothing can be proved of
its values, and a statement holds whatever they are. They are applied to a counter that the state advances
(State.oracle), so that two choices need not agree.
-/

namespace Sys2Proof.Config

/-- The choice the hardware makes among things that may happen next, or that the spec does not order (00:R2, 17:R353,
24:R437; entry 3 of the log). -/
opaque freeChoice : Nat → Nat

/-- A byte string of the requested length that the spec leaves open: certificates, signatures, digests, random numbers
(20:R409; entry 10), and the bytes of a descriptor that lie beyond the end of a data memory (16:R332; entry 98). -/
opaque freeByte : Nat → Nat → W8

/-- Whether a signature or a checksum that the outside world supplies verifies (20:R407, R408; entry 9). -/
opaque verifies : List W8 → Bool

/-- A chip number is in the domain of this one, and another chip allots a 256 KiB page of its HBM to a partition: its region by the
ALLOT table, and the page not retired (11:R227, R230): other chips are outside (entry 14). -/
opaque inDomain : Nat → Bool
opaque remoteAllot : Nat → Nat → Nat → Bool

/-- The standard matrix routine that holds a word below 384 of the microprogram store (13:R272; entry 10). -/
opaque stdWord : Nat → Nat

/-- The latency class of the path between two chips: 0, 1 or 2 for A, B or C, modulo 3 (16:R323; entry 14). Number 512 stands for
the domain root (15:R309). -/
opaque pathClass : Nat → Nat → Nat

/-- The largest class among the paths of an ensemble's chips, by ENSID, modulo 3 (15:R310; entry 14). -/
opaque ensembleClass : Nat → Nat

end Sys2Proof.Config
end

