-- ==== Sys2Proof/Machine/State.lean ====
section
/-!
DEFINITION. The state of one Oltia 880 package (01:R8) as plain data, and State.reset. The other chips of a domain and
the host are outside: what they send arrives as inputs, and what leaves is appended to the outbox. Each structure names the
rules that give its fields; fields that are the model's own bookkeeping say so.
-/

namespace Sys2Proof.Machine

/-- Why a step can stop with a fault. -/
inductive Fault where
  /-- An input of the outside world names a core, gang, port or register that the chip does not have: raised by step only.
  Safe: the machine stops where the hardware has no such event. -/
  | noSuchUnit
deriving DecidableEq, Repr

/-- Why a step can be refused. -/
inductive Refusal where
  /-- An instruction whose meaning has not been written: raised by an arm of exec only. Safe. -/
  | notModelled (mnemonic : String)
deriving DecidableEq, Repr

/-- A core of the chip: one of the 128 vector-matrix cores or one of the 8 control cores (01:R13, R14). -/
structure CoreRef where
  /-- true for a control core -/
  cc : Bool
  num : Nat
deriving DecidableEq, Repr

/-! ### Values and results in flight -/

/-- A value on its way to a register: 64 bits, a vector, a pair of vectors, or a mask. -/
inductive Val where
  | w (v : W64)
  | v (l : Lanes)
  | p (a b : Lanes)
  | m (b : W128)
deriving DecidableEq, Repr

/-- The register a result is written to (05:R90). A vector destination carries its active lanes (05:R100). -/
inductive Dst where
  | none
  | s (r : Nat)
  | k (r : Nat)
  /-- an address register; true for n -/
  | a (n : Bool) (r : Nat)
  | mp (r : Nat)
  | g (r : Nat)
  /-- xh or yh (true for y) -/
  | mask (y : Bool) (r : Nat)
  | vec (y : Bool) (r : Nat) (act : W128)
  | pair (y : Bool) (r : Nat) (act : W128)
deriving DecidableEq, Repr

/-- What a queue-head latch is bound to (14:R287). -/
inductive QSrc where
  | chan (c : Nat)
  | rq (i : Nat)
  | evq
deriving DecidableEq, Repr

/-- A change of control state that takes place at its due cycle (19:R389). -/
inductive Eff where
  | fmt (v : W32)
  | clmask (v : W8)
  | sel (y : Bool) (i : BitVec 3)
  | csr (n : Nat) (v : W64)
  | skey (i : Nat) (v : W128)
  | sctr (i : Nat) (v : W128)
  | pred (v : W8)
  | bind (i : Nat) (q : Option QSrc)
  | arm (ctr : Nat) (b : W64) (tag : BitVec 24)
  | bindTl7 (g : Option Nat)
  | clrErr (bits : W16)
  | clrQempty (bits : BitVec 4)
  | clrFull
deriving DecidableEq, Repr

/-- A result or control effect issued and not yet due (04:R73, 19:R388, R389, R390). -/
structure Pend where
  /-- the model's number of the operation: a bank access finds the result it fills by it -/
  serial : Nat := 0
  slot : Nat
  /-- the architectural cycle at which it lands -/
  due : Nat
  /-- the real cycle from which the native value exists (04:R83) -/
  exist : Nat := 0
  /-- bank accesses or arrivals still to come before the value is there -/
  wait : Nat := 0
  dst : Dst := .none
  val : Val := .w 0
  /-- the latch line the result enters (05:R97) -/
  latch : Option Nat := .none
  effs : List Eff := []
  flags : W8 := 0
  istat : BitVec 2 := 0
  /-- FMT.TEN as read at issue (02:R32) -/
  ten : BitVec 7 := 0
  /-- the first poisoned granule read (10:R211) -/
  poison : Option W64 := .none
  /-- the code of a software TRAP due here (19:R392) -/
  swtrap : Option W16 := .none
  /-- the value of a control-core C1 load may come later than its due cycle (10:R212) -/
  late : Bool := false
deriving DecidableEq, Repr

/-- One level of the loop stack (06:R123). -/
structure LoopLvl where
  body : W64
  /-- bundles of the body -/
  len : Nat
  /-- position of the bundle to issue next, from 1 -/
  pos : Nat
  /-- iterations still to begin after the current one -/
  remain : Nat
deriving DecidableEq, Repr

/-- What an issue stall waits for. -/
inductive StallKind where
  | tlwait | realign | fence | c1 | fetch | phload | launch | restctx | savectx | mcode | repair | tlbinv | watch | hostirq
deriving DecidableEq, Repr

/-- A stalled instruction: its operands, and where its result goes. -/
structure Stall where
  kind : StallKind
  a : W64 := 0
  b : W64 := 0
  dst : Dst := .none
  /-- reference tick at which it began -/
  since : Nat := 0
  /-- number of the operation in the owner's own list, where it has one -/
  k : Nat := 0
  /-- the number of the operation, by which its result is ordered among others (03:R62) -/
  serial : Nat := 0
deriving DecidableEq, Repr

/-- One context of a core: main or urgent (05:R90 to R105, 02:R31, 06:R132, 14:R287, 18:R379). -/
structure Ctx where
  s : List W64 := List.replicate 32 0
  x : List Lanes := List.replicate 32 []
  y : List Lanes := List.replicate 32 []
  m : List W64 := List.replicate 16 0
  n : List W64 := List.replicate 16 0
  /-- guards; bit 0 reads 1 -/
  g : W8 := 1
  xh : List W128 := List.replicate 8 0
  yh : List W128 := List.replicate 8 0
  /-- per slot: (result cycle, value), latest last -/
  latch : List (List (Nat × Val)) := List.replicate 6 []
  /-- results before this cycle are no longer read (05:R99) -/
  latchBase : Nat := 0
  q : List (Option QSrc) := List.replicate 4 none
  qempty : BitVec 4 := 0
  fmt : W32 := 0
  clmask : W8 := 0xFF
  sel0 : BitVec 3 := 0
  sel1 : BitVec 3 := 0
  fflags : W8 := 0
  istat : BitVec 2 := 0
  loops : List LoopLvl := []
  /-- pending redirections: bundles still to issue before each, and its target (04:R75, R76) -/
  redirs : List (Nat × W64) := []
  /-- stream slots: key and counter (18:R379) -/
  ks : List (W128 × W128) := List.replicate 4 (0, 0)
  pends : List Pend := []
  pc : W64 := 0
  /-- the architectural cycle of the next issue (04:R78) -/
  next : Nat := 0
  /-- what issue waits for -/
  stall : Option Stall := none
deriving DecidableEq, Repr

/-- The trap registers (19:R391). -/
structure TrapRegs where
  tcause : W64 := 0
  tpc : W64 := 0
  tinfo : W64 := 0
  ttime : W64 := 0
  tstate : W64 := 0
  tvec : W64 := 0
  tscr : W64 := 0
deriving DecidableEq, Repr

/-! ### The near memory of a core (10) -/

/-- Scalar atomics (10:R205, R206). -/
inductive AtOp where
  | add | min | max | and | or | swp | cas | fadd
deriving DecidableEq, Repr

/-- How the bytes of a load become a register value (10:R200). -/
inductive LoadFmt where
  | zext | lanes | bcast | pair
deriving DecidableEq, Repr

/-- What a scheduled access does at its bank cycle (10:R200 to R207). -/
inductive AccOp where
  | load (n : Nat) (f : LoadFmt)
  /-- lanes and their byte addresses -/
  | gather (items : List (Nat × Nat))
  | store (bs : List W8)
  | scatter (items : List (Nat × W32))
  | atom (op : AtOp) (size : Nat) (v cmp : W64)
  | cstv (d n : Lanes) (act : W128)
  | binInit (e : W8)
  | binAdd (v : W32)
  | binRead
  /-- the descriptor of an engine operation (11:R218, 16:R335) -/
  | desc (n : Nat)
deriving DecidableEq, Repr

/-- A scheduled access issued and not yet at its bank cycle (10:R190, R191). -/
structure Access where
  /-- the result it fills -/
  serial : Nat
  /-- issuing core -/
  src : CoreRef
  op : AccOp
  addr : Nat
  /-- first reserved cycle and the cycle at which it takes effect, counted by the target core -/
  first : Nat
  due : Nat
  /-- real cycles from the bank touch to the value (04:R83) -/
  ret : Nat
  /-- an LDACQ of a control core (10:R212) -/
  acq : Bool := false
  /-- what an atomic read at its first reserved cycle: bytes, the poisoned granule's address, the real cycle (10:R204) -/
  seen : Option (List W8 × Option W64 × Nat) := none
deriving DecidableEq, Repr

/-- A vault, or a control core's data memory (10:R188, R212). -/
structure Near where
  mem : List Host.Cell := []
  /-- granule numbers whose poison bit is set, ascending (10:R210) -/
  poison : List Nat := []
  /-- granules holding a correctable, and an uncorrectable, error (10:R210) -/
  cerr : List Nat := []
  uerr : List Nat := []
  /-- corrected errors: bank and tick (20:R411) -/
  ecc : List (Nat × Nat) := []
  /-- banks replaced by a spare (20:R410) -/
  spared : List Nat := []
  /-- scheduled claims: cycle and banks (04:R86) -/
  claims : List (Nat × BitVec 64) := []
  accs : List Access := []
  /-- granules whose atomic reservation ends in a cycle: (granule, cycle) (10:R204) -/
  holds : List (Nat × Nat) := []
  /-- granules read with a correctable error, to be rewritten (10:R210) -/
  fixes : List Nat := []
  /-- banks whose engine half of the present core cycle is used (10:R190) -/
  used : BitVec 64 := 0
deriving DecidableEq, Repr

/-! ### Clocks, phases and stalls of a core -/

/-- The clock of a core (04:R83, 06:R127, 15:R297, R300). -/
structure Clk where
  /-- GTIME.cyc -/
  cyc : Nat := 0
  /-- the architectural cycle -/
  arch : Nat := 0
  /-- clock step code -/
  step : Nat := 0
  /-- ninths of a core cycle gathered -/
  acc : Nat := 0
  /-- a core cycle has begun in this tick and nothing has issued in it yet -/
  due : Bool := false
  /-- parts of this cycle's array work still to be done: its accumulations, and then its writes (12:R239) -/
  arr : Nat := 0
deriving DecidableEq, Repr

/-- What a core holds of its phase (06:R136, 15:R305 to R313). -/
structure CorePh where
  phnum : W8 := 0
  buf : Bool := false
  inph : Bool := false
  solo : Bool := false
  repl : Bool := false
  detf : Bool := false
  /-- profile of the code now running (04:R82) -/
  prof : Nat := 2
  gpos : Nat := 0
  gsize : Nat := 0
  /-- the gang's number in the chip's list, where the core is in one -/
  gang : Option Nat := none
  /-- GTIME.phc -/
  phc : Nat := 0
  length : Nat := 0
  /-- takes no part in the running phase (15:R305), or was stopped by ERET.replay or .fail (19:R393) -/
  absent : Bool := true
  p : W8 := 0
  /-- SIGNOFF has issued in this phase: its P, its conditions (counter, number), and the counters whose ERR it carries -/
  signed : Bool := false
  sigP : W8 := 0
  sigConds : List (Nat × Nat) := []
  sigErr : W16 := 0
  /-- the message is still to be sent -/
  sigPend : Bool := false
  /-- REPLAY and ERR forced by a handler or a core fault (19:R393, R397) -/
  sigReplay : Bool := false
  sigFail : Bool := false
  /-- the trap cause that its sign-off carries to the TASK record (18:R372) -/
  sigCause : W8 := 0
  /-- a TXWALK has issued in this phase: another one fails (16:R336) -/
  txwalked : Bool := false
  /-- Mace: counts of the running window and its number (15:R315), and the grant in force -/
  mCount : Nat := 0
  vCount : Nat := 0
  grantM : Nat := 0
  grantV : Nat := 0
deriving DecidableEq, Repr

/-- Whether a core issues (06:R126, 15:R312, 19:R397). -/
inductive Run where
  | idle | running | halted | stopped | faulted
deriving DecidableEq, Repr

/-- A trap taken and not yet returned from (19:R386 to R393). -/
structure TrapSt where
  /-- the urgent context is active -/
  active : Bool := false
  /-- its registers have been reset and its first bundle may issue (19:R387) -/
  entered : Bool := false
  /-- the trap cycle (architectural) -/
  t : Nat := 0
  /-- results and effects held by the shadow latches: due holds the offset d until ERET, then r + d -/
  shadow : List Pend := []
  /-- r, once the main context has resumed -/
  resumed : Option Nat := none
  /-- the main context was halted when it was pre-empted (19:R394) -/
  halted : Bool := false
  /-- phase cycles are frozen (solo phase) -/
  frozenPh : Bool := false
  /-- a queued pre-emption: its value and the earliest tick (19:R394) -/
  preempt : Option (W64 × Nat) := none
deriving DecidableEq, Repr

/-! ### The matrix array (12, 13) -/

/-- A weight plane (12:R237): tile, sidebar and metadata as the 512-byte blocks read, and its record. -/
structure Plane where
  tile : List (List W8) := []
  side : List (List W8) := []
  nibs : List (List W8) := []
  typ : BitVec 4 := 0
  spn : BitVec 2 := 0
  valid : Bool := false
  taint : Bool := false
deriving DecidableEq, Repr

/-- A row in the array (12:R239): entered, its partial sums formed, not yet accumulated. -/
structure MRow where
  /-- entry cycle e -/
  e : Nat
  psum : List W32
  /-- flags of the column chain, set at accumulation (12:R242) -/
  flags : W8
  /-- accumulator row -/
  ar : Nat
  z : Bool
  i32 : Bool
  scaled : Bool
  exp : Option W8 := none
  taint : Bool
deriving DecidableEq, Repr

/-- What the array still has to do, each at its cycle (12:R239, R249 to R260, 13:R268). `id` numbers a drain, `j` its rows
or blocks. -/
inductive MOp where
  /-- read block b of a tile, a sidebar or metadata into the shadow plane -/
  | tile (b addr : Nat)
  | side (b addr : Nat)
  | nib (b addr : Nat)
  | loaded (typ : BitVec 4) (spn : BitVec 2)
  | swap
  /-- read a row chunk: address, bytes, accumulator row, replace, FMT, and under E the buffer index -/
  | feed (addr len ar : Nat) (z : Bool) (fmt : W32) (ex : Option Nat)
  | enter (bytes : List W8) (poisoned : Bool) (ar : Nat) (z : Bool) (fmt : W32) (ex : Option Nat)
  | exp (code : W8)
  | epiCol (addr : Nat)
  | epiRow (addr : Nat)
  | setCol (bs : List W8) (poisoned : Bool)
  | setRow (bs : List W8) (poisoned : Bool)
  | cfg (v : W8)
  | clr (ar n : Nat) (i32 : Bool)
  | taintClr
  | taintSet
  /-- clear the array flags that an MSTAT returned -/
  | statClr (bits : BitVec 5)
  | xld (addr : Nat)
  /-- drain accumulator row r; `mask` is the mask row's number -/
  | drain (id r addr : Nat) (cfg : W8) (keep : Bool) (fmt : W32) (mask : Option Nat)
  | maskRd (id j addr : Nat)
  /-- read n rows for a transposed drain, and write its row j of len bytes -/
  | transRd (id ar n : Nat) (cfg : W8) (keep masked : Bool) (fmt : W32)
  | transWr (id j addr len : Nat) (cfg : W8) (masked : Bool) (fmt : W32)
  | maccRd (id j ar addr : Nat) (fmt : W32)
  | maccWr (id j addr : Nat) (fmt : W32)
deriving DecidableEq, Repr

/-- A mask, a transposed row or a MACC block read and not yet used: bytes, flags, taint of its two halves. -/
structure MBuf where
  id : Nat
  j : Nat
  bs : List W8
  flags : W8 := 0
  taintLo : Bool := false
  taintHi : Bool := false
deriving DecidableEq, Repr

structure MEvt where
  due : Nat
  op : MOp
deriving DecidableEq, Repr

/-- The matrix array and its microprogram store. -/
structure Matrix where
  act : Plane := {}
  shd : Plane := {}
  /-- accumulator rows of 64 words; a missing row is cleared f32 (12:R262) -/
  acc : List (List W32) := List.replicate 256 (List.replicate 64 0x80000000)
  rtaint : BitVec 256 := 0
  rows : List MRow := []
  evts : List MEvt := []
  rowscale : List W32 := List.replicate 256 0x3F800000
  colscale : List W32 := List.replicate 64 0x3F800000
  bias : List W32 := List.replicate 64 0x80000000
  epicfg : W8 := 0
  etaint : Bool := false
  /-- IOVF, AINX, AUNF, AOVF, AINV (12:R259) -/
  mflags : BitVec 5 := 0
  /-- last busy cycle + 1 of each unit (12:R245): shadow load, shadow use, active use, row feed, drain port, routine -/
  busyLoad : Nat := 0
  useShd : Nat := 0
  useAct : Nat := 0
  busyFeed : Nat := 0
  busyDrain : Nat := 0
  busyRoutine : Nat := 0
  /-- entry cycle of the last row still to enter, plus 1 -/
  lastEnter : Nat := 0
  /-- blocks being read that found poison -/
  loadTaint : Bool := false
  /-- exponent buffer: code and taint (13:R268) -/
  xbuf : List (W8 × Bool) := List.replicate 256 (0, false)
  /-- masks, transposed rows and MACC blocks read and not yet used, by drain number -/
  drainBuf : List MBuf := []
  /-- microprogram store words and directory (13:R264): valid, start, length -/
  ucode : List (Nat × BitVec 96) := []
  udir : List (Nat × Nat × Nat) := []
deriving DecidableEq, Repr

/-! ### Counters, windows and transfer contexts (14, 11, 16) -/

/-- A timeline counter (14:R277, R278): value, last number given, numbers complete beyond the value. -/
structure TL where
  val : Nat := 0
  next : Nat := 0
  done : List Nat := []
deriving DecidableEq, Repr

/-- An armed threshold (14:R281), in arming order. -/
structure Armed where
  ctr : Nat
  b : Nat
  tag : BitVec 24
deriving DecidableEq, Repr

/-- Window operations (11:R216). -/
inductive WKind where
  | opn | adv (k : Nat) | close | flush | wres
deriving DecidableEq, Repr

structure WinOp where
  /-- its number; 0 for the close at task end (11:R224) -/
  num : Nat
  kind : WKind
  /-- serial of the descriptor read of a WOPEN -/
  serial : Nat := 0
  desc : List W8 := []
  poisoned : Bool := false
  /-- the descriptor has been read -/
  ready : Bool := true
  /-- status and detail of a failure, or of a poison report, decided so far; status 255 is a failure that posts no record
  (18:R372) -/
  out : Option (Nat × Nat) := none
  /-- scheduled writes of a smaller serial are waited for: the release of 11:R217 -/
  after : Nat := 0
deriving DecidableEq, Repr

/-- One row to fill or drain: its 64-byte granules still to move (11:R219). -/
structure RowJob where
  fill : Bool
  row : Nat
  todo : List Nat
  /-- the row lies at or above NROWS -/
  tail : Bool
  /-- granules of another chip's memory asked for, or written, and not yet answered (11:R226) -/
  asked : List Nat := []
deriving DecidableEq, Repr

/-- A fault that stops a window or transfer context (11:R230). -/
structure EngFault where
  code : Nat
  va : Nat
  /-- the operation that faulted -/
  num : Nat
deriving DecidableEq, Repr

structure Win where
  opn : Bool := false
  tbase : Nat := 0
  pitch : Int := 0
  rowlen : Nat := 0
  ringoff : Nat := 0
  depth : Nat := 0
  dir : Nat := 0
  firstrow : Nat := 0
  nrows : Nat := 0
  head : Nat := 0
  /-- the descriptor's 64 bytes, kept for a save (19:R399) -/
  descr : List W8 := []
  ops : List WinOp := []
  /-- the oldest operation has been started -/
  started : Bool := false
  work : List RowJob := []
  fault : Option EngFault := none
  /-- pages, by number, whose walks it waits for (11:R229) -/
  waits : List Nat := []
deriving DecidableEq, Repr

/-- Operations of a transfer context (16:R331, 14:R291). -/
inductive TxKind where
  | send | copy | rload | walk | res | mcsto | ratom
  | join (g : Nat) (q : Nat)
  | leave (g : Nat)
  | qresv (ch k : Nat)
  | qpush (ch : Nat) (v : W64)
deriving DecidableEq, Repr

/-- An operation of a transfer context, not yet complete (16:R333). -/
structure TxOp where
  num : Nat
  kind : TxKind
  serial : Nat := 0
  /-- offset of the first descriptor in the near memory -/
  daddr : Nat := 0
  desc : List W8 := []
  poisoned : Bool := false
  ready : Bool := true
  /-- scheduled writes of a smaller serial are waited for: the release of 16:R333 -/
  after : Nat := 0
  started : Bool := false
  /-- descriptors of the chain done, and whether the present one has been checked -/
  chain : Nat := 0
  loaded : Bool := false
  /-- pieces of the present descriptor still to read -/
  todo : List Nat := []
  /-- flits sent and not yet acknowledged -/
  unacked : Nat := 0
  /-- the notification of the present descriptor: 0 not sent, 1 on its way, 2 pushed -/
  note : Nat := 0
  /-- flits lost (ROUTE), the address of poison to report, the tile id of the first rerouted entry -/
  lost : Bool := false
  pois : Option Nat := none
  moved : Option Nat := none
  /-- timetable flits still to read (entry * 1024 + flit), flits read and still to leave, and the phase cycle from which it
  reads -/
  walk : List Nat := []
  flits : Nat := 0
  start : Nat := 0
  /-- RATOM: packets sent, next resend; MCSTO: sequence and generation stamped -/
  sent : Nat := 0
  deadline : Nat := 0
  seqn : Nat := 0
  gen : Nat := 0
  /-- the answer of a home: its status, and the old value of an atomic -/
  settled : Option Nat := none
  old : W64 := 0
  /-- the address whose walk it waits for -/
  wait : Option Nat := none
  /-- parts of a source in another chip's memory: asked for, and received with their poison, by virtual address (11:R226) -/
  asked : List Nat := []
  got : List (Nat × List W8 × Bool) := []
  /-- the operation's outcome, once decided: status and detail; status 255 is a failure that posts no record (18:R372) -/
  out : Option (Nat × Nat) := none
deriving DecidableEq, Repr

structure Tx where
  ops : List TxOp := []
  fault : Option EngFault := none
  /-- slots reserved: (channel, count) (14:R291) -/
  resv : List (Nat × Nat) := []
deriving DecidableEq, Repr

/-- A receive-tile slot (16:R338). -/
structure RxSlot where
  id : Nat := 0
  expected : Nat := 0
  counted : Nat := 0
  ready : Bool := false
  armed : Bool := false
  pois : Bool := false
  excess : Bool := false
  /-- number of the RXARM on tl6, and the core cycle from which words count -/
  num : Nat := 0
  start : Nat := 0
  /-- number that the last RXARM of the slot took, kept past its completion for an overcount's record -/
  armNum : Nat := 0
  overPosted : Bool := false
deriving DecidableEq, Repr

/-- What travels in a flit (16:R320, R342, R347, R335). -/
inductive FKind where
  | data | ack | rloadReq | nack
  | atomic | atomicReply
  | mcStore | mcMember | mcAck | mcResend
  | mcJoin | mcLeave | mcJoined
  | notify
  /-- an access to memory of another chip, and its answer (11:R226) -/
  | memReq | memReply
deriving DecidableEq, Repr

/-- A flit, or an acknowledgement or request of the same size or less (16:R320). -/
structure Flit where
  kind : FKind
  timed : Bool := false
  part : Nat := 0
  srcChip : Nat := 0
  srcCc : Bool := false
  srcCore : Nat := 0
  ctx : Nat := 0
  num : Nat := 0
  dstChip : Nat := 0
  dstCc : Bool := false
  dstCore : Nat := 0
  /-- virtual destination address, or vault offset -/
  virt : Bool := false
  off : Nat := 0
  bytes : List W8 := []
  /-- poisoned payload granules -/
  pois : List Nat := []
  mode : Nat := 0
  tile : Nat := 0
  /-- entry number in the timetable, for the order of equal arrivals (16:R328) -/
  entry : Nat := 0
  port : Nat := 0
  grp : Nat := 0
  seqn : Nat := 0
  gen : Nat := 0
  /-- which of how many flits of a store -/
  idx : Nat := 0
  cnt : Nat := 1
  /-- operation code and result of a remote atomic, status of a reply -/
  op : Nat := 0
  a : W64 := 0
  b : W64 := 0
  stat : Nat := 0
  /-- arrival tick, or the earliest slot of departure -/
  due : Nat := 0
  rerouted : Bool := false
  /-- tick at which it has left its port for good (16:R322) -/
  hop : Nat := 0
  /-- payload granules written, or chunks of a request served -/
  fill : Nat := 0
deriving DecidableEq, Repr

/-- A member's side of a multicast group (16:R343). -/
structure Member where
  grp : Nat
  applied : Nat
  gen : Nat
  /-- stores held back: flits by sequence -/
  held : List Flit := []
  leaving : Bool := false
deriving DecidableEq, Repr

/-- The engines of one core. -/
structure Engines where
  tl : List TL := List.replicate 16 {}
  err : W16 := 0
  armed : List Armed := []
  wins : List Win := List.replicate 4 {}
  txs : List Tx := List.replicate 16 {}
  rx : List RxSlot := List.replicate 64 {}
  /-- RXARMs that failed and are still to complete: number, status, detail -/
  rxFails : List (Nat × Nat × Nat) := []
  rqs : List (List W64) := List.replicate 4 []
  /-- NOTEs waiting for room: (queue, value, sender's chip, core, control core, context, number) -/
  notes : List (Nat × W64 × Flit) := []
  tl7 : Option Nat := none
  members : List Member := []
  /-- payload bytes of the running phase received (16:R330) -/
  inbound : Nat := 0
  rxErr : Bool := false
  /-- micro-TLBs: windows 0..3, transfer contexts 4..19, C1 path 20, fetch 21; latest use last -/
  utlb : List (List (Nat × W64 × Bool)) := List.replicate 22 []
deriving DecidableEq, Repr

/-! ### Control cores (10:R212, 18:R364, 14:R295) -/

inductive C1Kind where
  | load (n : Nat)
  | store (bs : List W8)
  | atom (op : AtOp) (size : Nat) (v cmp : W64)
  | binInit (e : W8)
  | binAdd (v : W32)
  | binRead
deriving DecidableEq, Repr

/-- A C1 access translated and not yet performed. -/
structure C1Acc where
  k : Nat
  serial : Nat
  kind : C1Kind
  va : Nat
  pa : Nat
  /-- page kind: 0 unordered, 1 release-consistent, 2 strongly ordered -/
  pk : Nat
  /-- STREL waits for every earlier access; LDACQ and SO hold back later ones -/
  rel : Bool := false
  acq : Bool := false
  /-- its request to another chip has left (11:R226) -/
  sent : Bool := false
deriving DecidableEq, Repr

/-- A line of the small cache: physical base and bytes. What it would write back is the list of accesses not yet
performed. -/
structure CLine where
  pa : Nat
  bytes : List W8
deriving DecidableEq, Repr

/-- An MCODE under way: the context that issued it, the words of the image, and the cores still to load (13:R270, R271). -/
structure MJob where
  urg : Bool
  img : List (BitVec 96)
  left : List Nat
deriving DecidableEq, Repr

structure Ctl where
  mcode : List MJob := []
  c1 : List C1Acc := []
  lines : List CLine := []
  /-- instruction cache: virtual line address and bytes -/
  icache : List (Nat × List W8) := []
  /-- lines whose fetch ahead of issue failed (18:R364) -/
  badLines : List Nat := []
  /-- watch slots: physical granule and b (14:R295) -/
  watch : List (Option (Nat × BitVec 24)) := List.replicate 8 none
  fired : List (Nat × Nat × BitVec 24) := []
  /-- the value of an FCST, which takes effect in the next cycle (15:R317) -/
  fcst : Option W16 := none
deriving DecidableEq, Repr

/-! ### A core -/

structure Core where
  main : Ctx := {}
  urg : Ctx := {}
  k : List W64 := List.replicate 16 0
  mp : List W64 := List.replicate 8 0
  tr : TrapRegs := {}
  tp : TrapSt := {}
  clk : Clk := {}
  ph : CorePh := {}
  run : Run := .idle
  near : Near := {}
  eng : Engines := {}
  mx : Matrix := {}
  ctl : Ctl := {}
  /-- instruction store and CODELEN (18:R363) -/
  istore : List Host.Cell := []
  codelen : Nat := 0
  /-- partition, where the core is in one -/
  part : Option Nat := none
  thermal : W8 := 0
  /-- cycle of the last vault or link claim, other than an M claim, of the main context (19:R387) -/
  lastClaim : Nat := 0
  /-- the core was replaced by a die spare (20:R410) -/
  spared : Bool := false
  /-- PHLOADs under way whose stall a phase start has ended, oldest first (15:R302, R312) -/
  loads : List Stall := []
deriving DecidableEq, Repr

/-! ### Phase tables and gangs (15, 18) -/

/-- A phase record with the tables it points to, by gang position (15:R299, R301, 16:R325). -/
structure PhRec where
  img : List W8 := []
  phnum : Nat := 0
  fin : Bool := false
  solo : Bool := false
  repl : Bool := false
  det : Bool := false
  prof : Nat := 2
  stepmax : Nat := 0
  sel0 : Nat := 0
  sel1 : Nat := 0
  length : Nat := 0
  slack : Nat := 0
  succ : List (Nat × Bool) := []
  entry : List Nat := []
  grant : List (Nat × Nat) := []
  lateral : Bool := false
  /-- per position: the timetable entries (32 bytes each) and INBOUND -/
  fab : List (List (List W8) × Nat) := []
  /-- per position: raster entries -/
  raster : List (List W64) := []
deriving DecidableEq, Repr

/-- A sign-off message on its way to the root (15:R307). -/
structure SigMsg where
  /-- 0 core, 1 port, 2 receive controller, 3 the other chips of an ensemble, 4 a thermal stop of this chip -/
  who : Nat
  idx : Nat
  /-- P, where the message carries one -/
  p : Option W8
  step : Nat
  cool : Nat
  err : Bool
  replay : Bool
  /-- arrival tick at the root -/
  due : Nat
  /-- of the other chips: the OR of their P, and a thermal stop among them -/
  por : W8 := 0
  thermal : Bool := false
deriving DecidableEq, Repr

structure Gang where
  live : Bool := true
  part : Nat := 0
  taskid : Nat := 0
  index : Nat := 0
  launch : Nat := 0
  /-- logical cores by gang position -/
  cores : List Nat := []
  stores : List (Nat × Nat) := []
  bufA : Option (List PhRec) := none
  bufB : Option (List PhRec) := none
  /-- power held, in eighths of a watt (15:R316) -/
  resv : Nat := 0
  d : Nat := 64
  /-- start of free-running code, and of the first or next phase -/
  startT : Nat := 0
  running : Bool := false
  /-- timetabled flits of the phase that have left, by port -/
  left : List (Nat × Nat) := []
  /-- ports of which a flit of the phase failed or was rejected (16:R330) -/
  perr : List Nat := []
  /-- running record: buffer (true B) and index; none before the first phase -/
  cur : Option (Bool × Nat) := none
  s : Nat := 0
  step : Nat := 0
  msgs : List SigMsg := []
  /-- participants that have not arrived: (who, idx) -/
  awaited : List (Nat × Nat) := []
  /-- the selected successor and the tick it starts at, none while the gang waits for its buffer (15:R311) -/
  nextRec : Option (Bool × Nat) := none
  nextAt : Option Nat := none
  /-- the start that 15:R310 gives it -/
  nextMin : Nat := 0
  agreed : Nat := 0
  arrived : Bool := false
  replays : Nat := 0
  slackPosted : Bool := false
  /-- failing or ending: status, and the trap cause or PHLOAD status of the TASK record -/
  ending : Option (Nat × Nat) := none
  /-- a pending save: area, VAULTS, requesting control core where there is one (19:R398) -/
  save : Option (Nat × Bool × Option Nat) := none
  saving : Bool := false
  /-- restored gang waiting for its withheld phase (19:R400) -/
  restored : Bool := false
  ens : Bool := false
  ensid : Nat := 0
  lastPh : Nat := 0
  lastBuf : Bool := false
  /-- worst status of the windows closed at its end (11:R224) -/
  worst : Nat := 0
  /-- an operation stopped by a translation fault was resolved by its end (18:R372) -/
  resolved : Bool := false
  /-- how far the end has come: 0 not begun, 1 cores stopped and work settled, 2 its windows are being closed -/
  stage : Nat := 0
deriving DecidableEq, Repr

/-- A launch entry (18:R366 to R369). -/
structure Launch where
  id : Nat
  part : Nat
  rcd : List W8
  prio : Nat
  det : Bool
  num : Option (Nat × Nat)
  task0 : Nat
  /-- group count once fixed, next index to place, tasks not yet reported -/
  g : Option Nat
  nextIx : Nat := 0
  left : Nat := 0
  queued : Bool := true
  waitSince : Option Nat := none
  noBackfill : Bool := false
  /-- saved context area (19:R400) -/
  area : Option Nat := none
  hdr : List W8 := []
deriving DecidableEq, Repr

/-- A token-queue channel (14:R289). -/
structure Chan where
  opn : Bool := true
  /-- joined consuming side (partition, channel) of a producing channel, or producing side of a consuming one -/
  peer : Option (Nat × Nat) := none
  prod : Bool := false
  cons : Bool := false
  entries : List W64 := []
deriving DecidableEq, Repr

/-- A partition (18:R362, 20:R405). -/
structure Part where
  formed : Bool := false
  cores : W128 := 0
  ptroot : Nat := 0
  ovfl : Nat := 0
  stores : W32 := 0
  power : Nat := 0
  ports : BitVec 36 := 0
  salt : W64 := 0
  dispatch : W64 := 0
  nextTask : Nat := 1
  chans : List Chan := List.replicate 16 {}
  /-- event queue: slot of the head record, unpopped records, overflow head and count, FULL (14:R283, R286) -/
  evHead : Nat := 0
  evCount : Nat := 0
  ovHead : Nat := 0
  ovCount : Nat := 0
  evFull : Bool := false
  /-- records of agents that cannot wait, held until there is room -/
  evWait : List (List W8) := []
  /-- records posted in the present tick, which enter the queue at its end (14:R288) -/
  evNew : List (List W8) := []
  forecast : W16 := 0
  /-- its cores' clocks are stopped by an over-current until RESTART (15:R319) -/
  thermal : Bool := false
deriving DecidableEq, Repr

/-! ### Fabric, groups, service -/

/-- An Afgen port (16:R320 to R322). -/
structure Port where
  up : Bool := true
  spareUsed : Bool := false
  retrain : Nat := 0
  nextSlot : Nat := 0
  timed : List Flit := []
  untimed : List Flit := []
  failures : Nat := 0
  /-- the port over which its flits go since its link was lost, and the further ticks of that path (16:R323) -/
  detour : Option (Nat × Nat) := none
deriving DecidableEq, Repr

/-- The home side of a multicast group (16:R340, R342). -/
structure Group where
  part : Option Nat := none
  members : List (Nat × Nat) := []
  gen : Nat := 0
  seqn : Nat := 0
  /-- stamped stores kept: their flits -/
  kept : List Flit := []
  /-- flits arrived and not yet stamped, join and leave requests, resend requests -/
  inq : List Flit := []
  joins : List Flit := []
  asks : List Flit := []
  /-- stores not yet acknowledged by every member: (flit, members left, membership changed) -/
  open_ : List (Flit × List (Nat × Nat) × Bool) := []
deriving DecidableEq, Repr

/-- The mailbox and the service registers (20:R403, R412 to R415). -/
structure Service where
  argc : BitVec 48 := 0
  part : W8 := 0
  code : W8 := 0
  arg0 : W64 := 0
  arg1 : W64 := 0
  busy : Bool := false
  ovr : Bool := false
  result : W8 := 0
  /-- the running command has finished and its result is to be written -/
  done : Option W8 := none
  bootst : W64 := 0
  irqwin : List (BitVec 10) := List.replicate 64 1
  allot : List W8 := List.replicate 2048 0
  retired : List Nat := []
  elog : List (List W8) := List.replicate 256 (List.replicate 32 0)
  elogw : W16 := 0
  elogr : W16 := 0
  elogOvf : Bool := false
  /-- MSI-X of the VFs: per vector PEND, timer end, masked, held in the PBA -/
  pend : List Bool := List.replicate 64 false
  timer : List (Option Nat) := List.replicate 64 none
  masked : List Bool := List.replicate 64 false
  pba : List Bool := List.replicate 64 false
  /-- firmware: version of slots A and B, running slot, staged and verified, rollback counter, raise at next cold reset -/
  slotA : Nat := 1
  slotB : Nat := 0
  running : Bool := false
  /-- the slot staged and verified, true for B, and the slot whose version has still to raise the counter (20:R408) -/
  staged : Option Bool := none
  fresh : Option Bool := none
  rollback : Nat := 0
  blob : Bool := false
  ucodeOk : Bool := false
  /-- corrections: HBM base page and tick -/
  ecc : List (Nat × Nat) := []
  /-- the patrol scrubber (11:R233): start of its pass, regions with the errors found in it, and the regions being rescanned with
  the start of their rescan and the errors found in it -/
  patrol : Nat := 0
  found : List (Nat × Nat) := []
  hot : List (Nat × Nat × Nat) := []
  /-- spare cores left per die, spare control cores left per die, control cores replaced -/
  spares : List Nat := [2, 2]
  spareCc : List Nat := [1, 1]
  ccSpared : List Nat := []
deriving DecidableEq, Repr

/-- A page-table walk waiting or under way (11:R229): the page, and who waits: core, micro-TLB, address. -/
structure Walk where
  die : Nat
  part : Nat
  va : Nat
  who : List (CoreRef × Nat × Nat) := []
deriving DecidableEq, Repr

/-- A die TLB entry: die, partition, page base, large, leaf entry. -/
structure TlbEnt where
  die : Nat
  part : Nat
  base : Nat
  large : Bool
  leaf : W64
deriving DecidableEq, Repr

/-- What has left the package. -/
inductive OutMsg where
  | flit (f : Flit)
  | msix (vf vec : Nat) (t : Nat)
  | vec0 (t : Nat)
  | readDone (bytes : List W8) (poisoned : Bool)
  | spdm (bytes : List W8)
  | signoff (m : SigMsg)
  /-- admission of an ensemble's task: partition, ENSID, index, group count, tick (18:R378) -/
  | admitted (part ensid index g t : Nat)
deriving DecidableEq, Repr

/-- The bundle being issued: which core and slot, its words and its address. Bookkeeping of the model. -/
structure Cur where
  core : CoreRef := ⟨false, 0⟩
  slot : Nat := 0
  syl : W32 := 0
  head : W32 := 0
  lend : W32 := 0
  pc : W64 := 0
  len : Nat := 0
  /-- issue-time checks that failed: cause, TINFO, slot -/
  fails : List (W8 × W64 × Nat) := []
  /-- a LOOP with count 0: the address after its body (06:R122) -/
  skip : Option W64 := none
  /-- an ERET of this bundle has ended its context (19:R393) -/
  left : Bool := false
  /-- State.serial when the bundle began: what was issued before it has a smaller number (17:R352) -/
  base : Nat := 0
  /-- QEMPTY bits that reads of this bundle have set (14:R288) -/
  noted : BitVec 4 := 0
deriving DecidableEq, Repr

/-- What comes with an event: where it happens, and what the outside world supplies. Bookkeeping of the model. -/
structure Ev where
  core : CoreRef := ⟨false, 0⟩
  i : Nat := 0
  j : Nat := 0
  v : W64 := 0
  bytes : List W8 := []
  flit : Option Flit := none
deriving DecidableEq, Repr

/-- The machine. -/
structure State where
  /-- reference ticks since power-on; the DCC is now minus dccBase (15:R296) -/
  now : Nat := 0
  /-- the second half of the tick has begun: what banks, arrays and engines do in it follows the issue of the cores -/
  half : Bool := false
  dccBase : Nat := 0
  oracle : Nat := 0
  serial : Nat := 0
  cur : Cur := {}
  ev : Ev := {}
  /-- what the outside world will do: (tick, event, its data), in order -/
  inputs : List (Nat × Instr × Ev) := []
  outbox : List OutMsg := []
  vms : List Core
  ccs : List Core
  chip : Nat := 0
  /-- a DOMAIN command has been obeyed since the last cold reset (18:R367) -/
  domain : Bool := false
  alignLost : Bool := false
  /-- system memory by physical address (11:R226): local HBM, HBM of other chips, host memory -/
  sys : List Host.Cell := []
  /-- poisoned 64-byte granules of system memory -/
  syspoison : List Nat := []
  syscerr : List Nat := []
  sysuerr : List Nat := []
  /-- lateral link slots claimed: gang, core cycle, link (10:R196) -/
  links : List (Nat × Nat × Nat) := []
  tlbs : List TlbEnt := []
  walks : List Walk := []
  parts : List Part := List.replicate 8 {}
  gangs : List Gang := []
  launches : List Launch := []
  launchId : Nat := 0
  ports : List Port := List.replicate 36 {}
  flits : List Flit := []
  groups : List (Nat × Group) := []
  /-- reply caches of remote atomics: source chip, core, context, sequence, old value (16:R348) -/
  replies : List (Nat × Nat × Nat × Nat × W64) := []
  /-- remote atomics arrived and not performed -/
  ratoms : List Flit := []
  svc : Service := {}
  /-- thermal and power controller: requested STEP and COOL (15:R307) -/
  stepReq : Nat := 0
  cool : Nat := 0
  /-- HBM banks in refresh: (bank, end tick) (15:R313) -/
  refresh : List (Nat × Nat) := []
  /-- admissions of partner launches: partition, ENSID, index, group count, tick (18:R378) -/
  notices : List (Nat × Nat × Nat × Nat × Nat) := []
deriving DecidableEq, Repr

/-- The machine right after reset: every core idle with its registers at the values of 05:R94, nothing allotted. -/
def State.reset : State := { vms := List.replicate 128 {}, ccs := List.replicate 8 {} }

end Sys2Proof.Machine
end

