-- ==== Sys2Proof/Machine/Ops.lean ====
section
/-!
DEFINITION. The named operations over the state that the meanings share: memory in its canonical form, reaching a core and
its contexts, completion records and counters (14), results in flight (04:R73), and taking a trap, ending one and core
faults (19:R386 to R397).
-/

namespace Sys2Proof.Machine

/-! ### Bytes and memory -/

/-- The number that bytes spell, the first being the least significant (01:R1). -/
def leNat : List W8 → Nat
  | [] => 0
  | b :: t => b.toNat + 256 * leNat t

/-- The n low bytes of a number, least significant first. -/
def natBytes : Nat → Nat → List W8
  | 0, _ => []
  | n + 1, v => BitVec.ofNat 8 v :: natBytes n (v / 256)

def leW64 (bs : List W8) : W64 := BitVec.ofNat 64 (leNat bs)

def leW32 (bs : List W8) : W32 := BitVec.ofNat 32 (leNat bs)

def word32Bytes (v : W32) : List W8 :=
  [v.extractLsb' 0 8, v.extractLsb' 8 8, v.extractLsb' 16 8, v.extractLsb' 24 8]

/-- n bytes of a byte list from offset o; bytes beyond its end read 0. -/
def byteSlice (bs : List W8) (o n : Nat) : List W8 := (List.range n).map (fun i => bs.getD (o + i) 0)

/-- An unsigned field of n bytes at offset o of a byte list. -/
def fieldAt (bs : List W8) (o n : Nat) : Nat := leNat (byteSlice bs o n)

/-- Bits hi..lo of a number. -/
def bitsOf (v hi lo : Nat) : Nat := v / 2 ^ lo % 2 ^ (hi + 1 - lo)

def bitOf (v i : Nat) : Bool := v / 2 ^ i % 2 = 1

/-- Bit i of a status word. -/
def flagAt (b : Bool) (i : Nat) : Nat := if b then 2 ^ i else 0

/-- A number below 2^w read as two's complement. -/
def toSigned (w v : Nat) : Int := if v % 2 ^ w < 2 ^ (w - 1) then (v % 2 ^ w : Nat) else ((v % 2 ^ w : Nat) : Int) - (2 ^ w : Nat)

/-- What a byte that no entry lists reads as: 0 in every memory of the device (10:R193; entry 5 of the log). -/
def unlisted : W8 := 0

/-- The byte at an address. -/
def memGet : List Host.Cell → Nat → W8
  | [], _ => unlisted
  | (k, v) :: t, a => if k = a then v else if a < k then unlisted else memGet t a

/-- Write one byte, keeping the canonical form. -/
def memSet : List Host.Cell → Nat → W8 → List Host.Cell
  | [], a, v => if v = unlisted then [] else [(a, v)]
  | (k, x) :: t, a, v =>
    if a < k then (if v = unlisted then (k, x) :: t else (a, v) :: (k, x) :: t)
    else if a = k then (if v = unlisted then t else (a, v) :: t)
    else (k, x) :: memSet t a v

/-- Every entry lies above `lo`, addresses rise strictly, and no entry holds what an unlisted byte reads. -/
def memWfFrom : Option Nat → List Host.Cell → Bool
  | _, [] => true
  | lo, (k, v) :: t => (match lo with | none => true | some l => l < k) && v ≠ unlisted && memWfFrom (some k) t

/-- The canonical form of a memory. -/
def Memory.wf (m : List Host.Cell) : Bool := memWfFrom none m

/-- n bytes from an address. -/
def memRead (m : List Host.Cell) (a n : Nat) : List W8 := (List.range n).map (fun i => memGet m (a + i))

/-- Write bytes at ascending addresses. -/
def memWrite : List Host.Cell → Nat → List W8 → List Host.Cell
  | m, _, [] => m
  | m, a, b :: bs => memWrite (memSet m a b) (a + 1) bs

/-- Write only the bytes of the items given: (address, byte). -/
def memWriteItems (m : List Host.Cell) (l : List (Nat × W8)) : List Host.Cell :=
  l.foldl (fun m x => memSet m x.1 x.2) m

/-- Insert in a strictly ascending list of numbers. -/
def insNat (a : Nat) : List Nat → List Nat
  | [] => [a]
  | k :: t => if a < k then a :: k :: t else if a = k then k :: t else k :: insNat a t

/-- The granule numbers, of g bytes each, that n bytes at an address touch. -/
def granules (g a n : Nat) : List Nat := if n = 0 then [] else (List.range ((a + n - 1) / g + 1 - a / g)).map (fun i => a / g + i)

/-- The granules that n bytes at an address fill whole. -/
def fullGranules (g a n : Nat) : List Nat := (granules g a n).filter (fun k => a ≤ k * g && (k + 1) * g ≤ a + n)

/-! ### Cores -/

def State.core (s : State) (c : CoreRef) : Core := (if c.cc then s.ccs else s.vms).getD c.num {}

/-- Replace a core. -/
def State.setCore (s : State) (c : CoreRef) (k : Core) : State :=
  if c.cc then { s with ccs := s.ccs.set c.num k } else { s with vms := s.vms.set c.num k }

/-- Change a core. -/
def State.upd (s : State) (c : CoreRef) (f : Core → Core) : State := s.setCore c (f (s.core c))

/-- The context that issues: the urgent one while it is active (19:R386). -/
def Core.ctx (k : Core) : Ctx := if k.tp.active then k.urg else k.main

def Core.setCtx (k : Core) (x : Ctx) : Core := if k.tp.active then { k with urg := x } else { k with main := x }

/-- Change the issuing context. -/
def Core.updCtx (k : Core) (f : Ctx → Ctx) : Core := k.setCtx (f k.ctx)

/-- The chip has the core. -/
def hasCore (s : State) (c : CoreRef) : Bool := c.num < (if c.cc then s.ccs else s.vms).length

/-- Every core: the vector-matrix cores in number order, then the control cores. -/
def allCores (s : State) : List CoreRef :=
  (List.range s.vms.length).map (fun i => ⟨false, i⟩) ++ (List.range s.ccs.length).map (fun i => ⟨true, i⟩)

/-- The profile that code of the issuing context runs under: the urgent context is always under profile 2 (04:R82). -/
def Core.profile (k : Core) : Nat := if k.tp.active then 2 else k.ph.prof

/-- The partition of a core: control core p serves partition p (18:R364). -/
def partOf (s : State) (c : CoreRef) : Nat := if c.cc then c.num else (s.core c).part.getD 0

def getPart (s : State) (p : Nat) : Part := s.parts.getD p {}

def updPart (s : State) (p : Nat) (f : Part → Part) : State := { s with parts := s.parts.set p (f (getPart s p)) }

def getGang (s : State) (g : Nat) : Gang := s.gangs.getD g {}

def updGang (s : State) (g : Nat) (f : Gang → Gang) : State := { s with gangs := s.gangs.set g (f (getGang s g)) }

/-- The gang of a core, where its task is running. -/
def gangOf (s : State) (c : CoreRef) : Option Gang :=
  match (s.core c).ph.gang with
  | none => none
  | some g => some (getGang s g)

/-- Task identifier and item index of a core's task; 0 outside tasks (14:R284). -/
def taskOf (s : State) (c : CoreRef) : Nat := match gangOf s c with | none => 0 | some g => g.taskid

def itemOf (s : State) (c : CoreRef) : Nat := match gangOf s c with | none => 0 | some g => g.index

/-- A number of the model's own, for finding a result by it. -/
def freshSerial (s : State) : State := { s with serial := s.serial + 1 }

/-- Draw one free choice among n possibilities (entry 3). -/
def draw (s : State) (n : Nat) : Nat × State := (Config.freeChoice s.oracle % n, { s with oracle := s.oracle + 1 })

/-! ### Near memory -/

/-- The bytes of a core's vault or data memory. -/
def nearRead (s : State) (c : CoreRef) (a n : Nat) : List W8 := memRead (s.core c).near.mem a n

def Near.poisoned (m : Near) (a n : Nat) : Bool := (granules 16 a n).any (fun g => m.poison.contains g)

/-- A whole-granule write clears poison and errors; other granules keep theirs (10:R210). -/
def Near.write (m : Near) (a : Nat) (bs : List W8) : Near :=
  let full := fullGranules 16 a bs.length
  { m with mem := memWrite m.mem a bs
           poison := m.poison.filter (fun g => !full.contains g)
           cerr := m.cerr.filter (fun g => !full.contains g)
           fixes := m.fixes.filter (fun g => !full.contains g)
           uerr := m.uerr.filter (fun g => !full.contains g) }

/-- Set the poison bit of every granule that the bytes touch. -/
def Near.taintBytes (m : Near) (a n : Nat) : Near :=
  { m with poison := (granules 16 a n).foldl (fun l g => insNat g l) m.poison }

/-- An engine's write of whole or partial granules: poison is cleared on whole granules, and partial granules that are
poisoned stay poisoned (10:R210). -/
def engWrite (s : State) (c : CoreRef) (a : Nat) (bs : List W8) : State :=
  s.upd c (fun k => { k with near := k.near.write a bs })

/-! ### Errors found by reads (10:R210, 11:R233, 20:R411, R415) -/

/-- 24 hours in reference ticks. -/
def dayTicks : Nat := 233280000000000

/-- An entry of the error log, and vector 0 (20:R415). -/
def logError (s : State) (kind part wher addr cnt : Nat) : State :=
  let v := s.svc
  let e := natBytes 1 kind ++ natBytes 1 part ++ natBytes 2 0 ++ natBytes 4 wher ++ natBytes 8 addr
    ++ natBytes 8 (s.now - s.dccBase) ++ natBytes 4 cnt ++ natBytes 4 0
  { s with
    svc := { v with elog := v.elog.set (v.elogw.toNat % 256) e, elogw := v.elogw + 1
                    elogOvf := v.elogOvf || decide (256 ≤ (v.elogw - v.elogr).toNat) }
    outbox := s.outbox ++ [.vec0 s.now] }

/-- The bank of a granule (10:R188). -/
def bankOf (g : Nat) : Nat := g % 64

/-- PART of a log entry about a core. -/
def corePartByte (s : State) (c : CoreRef) : Nat :=
  if c.cc then c.num else match (s.core c).part with | some p => p | none => 0x80

/-- A read of one granule of near memory meets its error: an uncorrectable one sets the poison bit, a correctable one is
counted, and the granule is to be rewritten. -/
def nearMeet (s : State) (c : CoreRef) (g : Nat) : State :=
  let m := (s.core c).near
  let wher := c.num + bankOf g * 65536
  let old := m.ecc.filter (fun e => s.now < e.2 + dayTicks)
  let l := old ++ [(bankOf g, s.now)]
  let n := l.countP (fun e => e.1 = bankOf g)
  if m.uerr.contains g then
    logError (s.upd c (fun k => { k with near := { k.near with uerr := k.near.uerr.filter (· ≠ g), poison := insNat g k.near.poison } }))
      3 (corePartByte s c) wher (16 * g) (n - 1)
  else if m.cerr.contains g then
    let s1 := logError (s.upd c (fun k => { k with near := { k.near with ecc := l, fixes := insNat g k.near.fixes } })) 1 (corePartByte s c) wher (16 * g) n
    if n = 64 then logError s1 6 (corePartByte s c) wher 0 n else s1
  else s

/-- The errors that a read of n bytes meets. -/
def nearTouch (s : State) (c : CoreRef) (a n : Nat) : State := (granules 16 a n).foldl (fun s g => nearMeet s c g) s

/-- PART of a log entry about local HBM. -/
def sysPartByte (s : State) (a : Nat) : Nat :=
  let b := (s.svc.allot.getD (a / 2 ^ 28) 0).toNat
  if 128 ≤ b then b % 8 else 0x80

/-- A read of one granule of system memory meets its error. -/
def sysMeet (s : State) (g : Nat) : State :=
  let page := 64 * g / 2 ^ 18
  let l := (s.svc.ecc.filter (fun e => s.now < e.2 + dayTicks)) ++ [(page, s.now)]
  let n := l.countP (fun e => e.1 = page)
  if s.sysuerr.contains g then
    logError { s with sysuerr := s.sysuerr.filter (· ≠ g), syspoison := insNat g s.syspoison } 4 (sysPartByte s (64 * g)) 0 (64 * g) (n - 1)
  else if s.syscerr.contains g then
    let s1 := logError { s with svc := { s.svc with ecc := l } } 2 (sysPartByte s (64 * g)) 0 (64 * g) n
    if n = 16 then logError s1 5 (sysPartByte s (64 * g)) 0 (page * 2 ^ 18) n else s1
  else s

/-- The errors that a read of n bytes of system memory meets. -/
def sysTouch (s : State) (a n : Nat) : State :=
  ((s.syscerr ++ s.sysuerr).filter (fun g => decide (a < 64 * (g + 1) ∧ 64 * g < a + n))).foldl sysMeet s

/-! ### System memory (11:R226, R233, R235, 14:R295) -/

/-- Bytes of system memory by physical address. -/
def sysRead (s : State) (a n : Nat) : List W8 := memRead s.sys a n

def sysPoisoned (s : State) (a n : Nat) : Bool := (granules 64 a n).any (fun g => s.syspoison.contains g)

/-- A write to granule g performed: the watch slots on it fire (14:R295). -/
def watchHit (s : State) (g : Nat) : State :=
  if s.ccs.any (fun k => k.ctl.watch.any (fun w => match w with | some x => x.1 = g | none => false)) then
    { s with ccs := s.ccs.map (fun k =>
        let idx := (k.ctl.watch.zip (List.range 8)).filterMap (fun x => match x.1 with
          | some w => if w.1 = g then some (x.2, g, w.2) else none
          | none => none)
        { k with ctl := { k.ctl with
            watch := k.ctl.watch.map (fun w => match w with | some x => if x.1 = g then none else some x | none => none)
            fired := k.ctl.fired ++ idx } }) }
  else s

/-- Write bytes within one 64-byte granule. A partial write reads the granule first, and over poison it is not committed
(11:R235); a whole one clears poison. The Bool says that it was committed. -/
def sysWriteUnit (s : State) (a : Nat) (bs : List W8) : Bool × State :=
  let g := a / 64
  if bs.length = 64 then
    (true, watchHit { s with sys := memWrite s.sys a bs, syspoison := s.syspoison.filter (· ≠ g)
                             syscerr := s.syscerr.filter (· ≠ g), sysuerr := s.sysuerr.filter (· ≠ g) } g)
  else
    let s1 := sysMeet s g
    if s1.syspoison.contains g then (false, s1) else (true, watchHit { s1 with sys := memWrite s1.sys a bs } g)

/-- The parts of n bytes at a that lie in each unit of size g. -/
def unitParts (g a : Nat) (bs : List W8) : List (Nat × List W8) :=
  (granules g a bs.length).map (fun k =>
    let lo := max a (g * k)
    let hi := min (a + bs.length) (g * k + g)
    (lo, byteSlice bs (lo - a) (hi - lo)))

/-- Write bytes, unit by unit. -/
def sysWrite (s : State) (a : Nat) (bs : List W8) : Bool × State :=
  (unitParts 64 a bs).foldl (fun r p => let w := sysWriteUnit r.2 p.1 p.2; (r.1 && w.1, w.2)) (true, s)

/-- Write the poison pattern into a granule (11:R233, R234). -/
def sysPoison (s : State) (g : Nat) : State :=
  watchHit { s with syspoison := insNat g s.syspoison, syscerr := s.syscerr.filter (· ≠ g), sysuerr := s.sysuerr.filter (· ≠ g) } g

/-! ### Completion records (14:R283 to R286) -/

/-- SOURCE of a record (14:R284). -/
def recSource (s : State) (c : CoreRef) : Nat := c.num + (if c.cc then 256 else 0) + s.chip * 65536

/-- The 32 bytes of a completion record (14:R284). -/
def mkRecord (kind status part ctr source task item count detail : Nat) : List W8 :=
  natBytes 1 kind ++ natBytes 1 status ++ natBytes 1 part ++ natBytes 1 ctr ++ natBytes 4 source ++ natBytes 4 task
    ++ natBytes 4 item ++ natBytes 8 count ++ natBytes 8 detail

/-- The ring or the overflow area has room for n more records, after those posted in this tick (14:R286). -/
def evRoom (s : State) (p n : Nat) : Bool :=
  let q := getPart s p
  let n := n + q.evNew.length
  q.evWait = [] && ((q.ovCount = 0 && q.evCount + n ≤ 4096) || q.ovCount + n ≤ 32768)

/-- Raise FULL (14:R286, R294). -/
def evSetFull (s : State) (p : Nat) : State := updPart s p (fun q => { q with evFull := true })

/-- Post a record: it enters the queue at the end of the tick, so that what reads the queue in this tick does not see it
(14:R288). -/
def postRecord (s : State) (p : Nat) (r : List W8) : State := updPart s p (fun q => { q with evNew := q.evNew ++ [r] })

/-- A record enters the queue: the ring while nothing is in overflow and it has room, else the overflow area; else it waits and
FULL is set (14:R283, R286). -/
def enterRecord (s : State) (p : Nat) (r : List W8) : State :=
  let q := getPart s p
  if q.evWait ≠ [] then evSetFull (updPart s p (fun q => { q with evWait := q.evWait ++ [r] })) p
  else if q.ovCount = 0 ∧ q.evCount < 4096 then
    let a := 0x20000 + 32 * ((q.evHead + q.evCount) % 4096)
    engWrite (updPart s p (fun q => { q with evCount := q.evCount + 1 })) ⟨true, p⟩ a r
  else if q.ovCount < 32768 then
    let a := q.ovfl + 32 * ((q.ovHead + q.ovCount) % 32768)
    (sysWrite (updPart s p (fun q => { q with ovCount := q.ovCount + 1 })) a r).2
  else evSetFull (updPart s p (fun q => { q with evWait := [r] })) p

/-- The records posted in a tick enter the queues of the partitions. -/
def flushRecords (s : State) : State :=
  (List.range 8).foldl (fun s p => match (getPart s p).evNew with
    | [] => s
    | l => l.foldl (fun s r => enterRecord s p r) (updPart s p (fun q => { q with evNew := [] }))) s

/-- The record of an engine context of a core. -/
def coreRecord (s : State) (c : CoreRef) (kind status ctr item count detail : Nat) : List W8 :=
  mkRecord kind status (partOf s c) ctr (recSource s c) (taskOf s c) item count detail

def postCore (s : State) (c : CoreRef) (kind status ctr item count detail : Nat) : State :=
  postRecord s (partOf s c) (coreRecord s c kind status ctr item count detail)

/-! ### Timeline counters (14:R277 to R282) -/

/-- Move the value over every finished number that follows it. -/
def tlAdvance : Nat → TL → TL
  | 0, t => t
  | n + 1, t => if t.done.contains (t.val + 1) then tlAdvance n { t with val := t.val + 1, done := t.done.filter (· ≠ t.val + 1) } else t

def getTL (k : Core) (i : Nat) : TL := k.eng.tl.getD i {}

def setTL (k : Core) (i : Nat) (t : TL) : Core := { k with eng := { k.eng with tl := k.eng.tl.set i t } }

/-- Insert by threshold, after the equal ones (14:R282). -/
def insArmed (a : Armed) : List Armed → List Armed
  | [] => [a]
  | x :: t => if a.b < x.b then a :: x :: t else x :: insArmed a t

/-- Thresholds that a counter at v has reached, in firing order (14:R281, R282). -/
def armedMet (l : List Armed) (ctr v : Nat) : List Armed :=
  (l.filter (fun a => a.ctr = ctr && a.b ≤ v)).foldl (fun acc a => insArmed a acc) []

/-- Fire what a counter's value has reached: one THRESH record each, and disarm (14:R281, R285). -/
def fireThresholds (s : State) (c : CoreRef) (ctr : Nat) : State :=
  let k := s.core c
  let v := (getTL k ctr).val
  let met := armedMet k.eng.armed ctr v
  let s1 := s.upd c (fun k => { k with eng := { k.eng with armed := k.eng.armed.filter (fun a => !(a.ctr = ctr && a.b ≤ v)) } })
  met.foldl (fun s a => postCore s c 3 0 ctr (a.b % 2 ^ 32) v a.tag.toNat) s1

/-- Operation number n of a counter is complete: advance and fire (14:R278, R282). -/
def tlComplete (s : State) (c : CoreRef) (ctr n : Nat) : State :=
  let s1 := s.upd c (fun k =>
    let t := getTL k ctr
    let t := { t with done := insNat n t.done }
    setTL k ctr (tlAdvance t.done.length t))
  fireThresholds s1 c ctr

/-- Records that completing number n would post. -/
def tlFires (s : State) (c : CoreRef) (ctr n : Nat) : Nat :=
  let k := s.core c
  let t := getTL k ctr
  let t := { t with done := insNat n t.done }
  (armedMet k.eng.armed ctr (tlAdvance t.done.length t).val).length

def setErr (s : State) (c : CoreRef) (ctr : Nat) : State :=
  s.upd c (fun k => { k with eng := { k.eng with err := k.eng.err ||| BitVec.ofNat 16 (2 ^ ctr) } })

/-- The next operation number of a counter (14:R278), and the state after giving it. -/
def takeNumber (s : State) (c : CoreRef) (ctr : Nat) : Nat × State :=
  let n := (getTL (s.core c) ctr).next + 1
  (n, s.upd c (fun k => setTL k ctr { getTL k ctr with next := n }))

/-- tl7 of a vector-matrix core shows the applied sequence of its bound group, 0 where it is not a member (16:R343, R344);
thresholds on it fire. -/
def syncTl7 (s : State) (c : CoreRef) : State :=
  let k := s.core c
  let v := match k.eng.tl7 with
    | none => 0
    | some g => match k.eng.members.find? (fun m => m.grp = g) with
      | some m => m.applied
      | none => 0
  if c.cc then s else fireThresholds (s.upd c (fun k => setTL k 7 { getTL k 7 with val := v })) c 7

/-! ### Acquires of a control core -/

/-- An acquire of a control core invalidates its small cache before its next C1 access issues (17:R355). -/
def acquireLines (s : State) (c : CoreRef) : State :=
  if c.cc then s.upd c (fun k => { k with ctl := { k.ctl with lines := [] } }) else s

/-! ### Tasks that fail -/

/-- A task fails or ends with a status: the end itself is the row TASK_END (18:R372, 19:R401). The first failure stands. -/
def endTask (s : State) (g : Nat) (status detail : Nat) : State :=
  updGang s g (fun x => match x.ending with | none => { x with ending := some (status, detail) } | some _ => x)

/-! ### Traps -/

/-- The core that a core fault stops; inside a timetabled phase its sign-off is still to be sent, with ERR. -/
def faultedCore (k : Core) (urgent main : W8) : Core :=
  { k with
    run := .faulted
    main := { k.main with pends := [], redirs := [], stall := none }
    urg := { k.urg with pends := [], redirs := [], stall := none }
    tp := { k.tp with active := false, entered := false, shadow := [], preempt := none, frozenPh := false }
    ph := { k.ph with sigPend := k.ph.inph, sigFail := k.ph.inph || k.ph.sigFail, signed := k.ph.inph || k.ph.signed
                      sigConds := [], sigP := 0, sigErr := 0
                      sigCause := if urgent = 0 then main else urgent } }

/-- A core fault (19:R397): the core stops, results in flight are discarded, a CORE record is posted, and the task fails,
through its sign-off inside a timetabled phase and at once outside one. -/
def coreFault (s : State) (c : CoreRef) (urgent main : W8) (addr : W64) : State :=
  let k := s.core c
  let s1 := s.upd c (fun k => faultedCore k urgent main)
  let detail := urgent.toNat + main.toNat * 256 + (addr.toNat % 2 ^ 48) * 65536
  let s2 := postCore s1 c 12 2 0 (itemOf s c) k.tr.ttime.toNat detail
  match k.ph.gang with
  | none => s2
  | some g => if k.ph.inph then s2 else endTask s2 g 2 (if urgent = 0 then main else urgent).toNat

/-- TVEC as a trap at t reads it: a CSRW whose effect falls due at t counts, one that the shadow delivers among them (19:R387,
R389). -/
def tvecAt (k : Core) (t : Nat) : W64 :=
  (((if k.tp.resumed.isSome then k.tp.shadow else []) ++ k.main.pends).filter (fun p => p.due ≤ t)).foldl (fun v p => p.effs.foldl (fun v e => match e with
    | .csr n w => if n = 0x15 then w else v
    | _ => v) v) k.tr.tvec

/-- The address names a possible handler (19:R387). -/
def handlerOk (c : CoreRef) (k : Core) (tvec : W64) : Bool :=
  let v := tvec.toNat
  v ≠ 0 && v % 4 = 0 && v < 2 ^ 48 && (c.cc || v < k.codelen)

/-- The operations of a slot among results and effects: the two parts of one operation count once (19:R389, R390). -/
def opCount (l : List Pend) (slot : Nat) : Nat :=
  ((l.filter (fun p => p.slot = slot)).map (·.serial)).eraseDups.length

/-- Shadow entries per slot, as TSTATE.OCC holds them (19:R391). -/
def occOf (l : List Pend) : Nat :=
  (List.range 6).foldl (fun a i => a + opCount l i % 16 * 2 ^ (16 + 4 * i)) 0

/-- The core after a trap at its present cycle t (19:R386, R387, R391): the trap registers are written, results due at t or
later go to the shadow with their offsets from t, as does a C1 load past its cycle whose value has not arrived; the urgent
context is reset and may issue from t+8 and after the last claim. What 05:R94 does not name, its FFLAGS, ISTAT and QEMPTY bits,
stays as the last handler left it (entry 101). `drop` lists results that are not delivered: those of the failing operation. -/
def trapEntry (k : Core) (cause : W8) (info : W64) (slot : Nat) (rt : Bool) (drop : List Nat) : Core :=
  let t := k.clk.arch
  let old := if k.tp.resumed.isSome then k.tp.shadow else []
  let held := (old ++ k.main.pends).filter (fun p => (t ≤ p.due || p.late && p.wait ≠ 0) && !drop.contains p.serial)
  let shadow := held.map (fun p => { p with due := p.due - t })
  let broken := k.ph.inph && !k.ph.solo
  { k with
    tr := { k.tr with
      tcause := BitVec.ofNat 64 (slot * 4096 + (if rt then 256 else 0) + cause.toNat)
      tpc := k.main.pc
      tinfo := info
      ttime := BitVec.ofNat 64 k.clk.cyc
      tstate := BitVec.ofNat 64 (occOf shadow + min k.main.redirs.length 3 * 64 + (if broken then 2 else 0)
        + (if k.ph.inph then 1 else 0)) }
    main := { k.main with pends := [], latch := List.replicate 6 [], latchBase := t,
                          stall := match k.main.stall with
                            | some st => if st.kind = .tlwait ∨ st.kind = .realign ∨ st.kind = .fetch ∨ st.kind = .c1 then none else some st
                            | none => none }
    urg := { pc := tvecAt k t, next := max (t + 8) (k.lastClaim + 1), qempty := k.urg.qempty,
             fflags := k.urg.fflags, istat := k.urg.istat }
    tp := { k.tp with active := true, entered := false, t := t, shadow := shadow, resumed := none,
                      halted := decide (k.run = .halted), frozenPh := k.ph.inph && k.ph.solo }
    run := .running }

/-- The core runs inside a timetabled phase: not past LENGTH, where a handler that began in a phase without the solo flag is in slack
(15:R313). -/
def Core.timed (k : Core) : Bool := k.ph.inph && !(k.tp.active && !k.ph.solo && decide (k.ph.length ≤ k.ph.phc))

/-- Taking a trap (19:R386, R387, R391) at the core's present cycle; inside the urgent context, and without a possible
handler, it is a core fault. -/
def takeTrap (s : State) (c : CoreRef) (cause : W8) (info : W64) (slot : Nat) (rt : Bool) (drop : List Nat) : State :=
  let k := s.core c
  if k.tp.active then coreFault s c cause (k.tr.tcause.setWidth 8) k.urg.pc
  else
    let s1 := s.setCore c (trapEntry k cause info slot rt drop)
    if handlerOk c k (tvecAt k k.clk.arch) then s1
    else coreFault (s1.upd c (fun k => { k with tp := { k.tp with active := false } })) c 0 cause k.main.pc

/-- An issue-time check of the issuing operation fails (04:R85): the trap is taken at the bundle, with no effect of the
bundle. The failure is also noted, since the bundle's other slots are checked too and the lowest cause is the one taken
(04:R87). -/
def issueFail (s : State) (cause : W8) (info : W64) : State :=
  let s1 := takeTrap s s.cur.core cause info s.cur.slot false []
  { s1 with cur := { s1.cur with fails := s.cur.fails ++ [(cause, info, s.cur.slot)] } }

/-- The failure with the lowest cause, the first slot among equals (04:R87). -/
def worstFail : List (W8 × W64 × Nat) → Option (W8 × W64 × Nat)
  | [] => none
  | x :: t => match worstFail t with
    | none => some x
    | some y => if y.1.toNat < x.1.toNat then some y else some x

/-- The failures with the lowest cause (04:R87). -/
def lowestFails (l : List (W8 × W64 × Nat)) : List (W8 × W64 × Nat) :=
  match worstFail l with
  | none => []
  | some f => l.filter (fun x => x.1 = f.1)

end Sys2Proof.Machine
end

