-- ==== Sys2Proof/Machine/Operands.lean ====
section
/-!
DEFINITION. Operands and results of the slot operations: guards (03:R53), the source namespace (03:R57 to R59), latches
(05:R96), queue heads (14:R288), common ports (03:R60), active lanes (05:R100), and how a result is sent on its way
(04:R73, 05:R97, 03:R61, 19:R390).
-/

namespace Sys2Proof.Machine

/-! ### The issuing core -/

/-- The issuing core. -/
def me (s : State) : Core := s.core s.cur.core

/-- The issuing context. -/
def cx (s : State) : Ctx := (me s).ctx

/-- The architectural cycle of issue, c+0. -/
def cyc (s : State) : Nat := (me s).clk.arch

def isCC (s : State) : Bool := s.cur.core.cc

def isUrg (s : State) : Bool := (me s).tp.active

/-- Inside a timetabled phase, in the main context (06:R136). -/
def inPhase (s : State) : Bool := (me s).timed

/-- Change the issuing core. -/
def updMe (s : State) (f : Core → Core) : State := s.upd s.cur.core f

/-- Change the issuing context. -/
def updCx (s : State) (f : Ctx → Ctx) : State := updMe s (fun k => k.updCtx f)

/-- A field of the syllable being executed: l bits from bit p. -/
def sylField (s : State) (p l : Nat) : BitVec l := s.cur.syl.extractLsb' p l

/-! ### FMT (05:R102) -/

def fmtRM (f : W32) : RM := rmOf (f.extractLsb' 14 2)
def fmtSat (f : W32) : Bool := f.getLsbD 16
def fmtVtype (f : W32) : Nat := (f.extractLsb' 0 4).toNat
def fmtTen (f : W32) : BitVec 7 := f.extractLsb' 25 7

/-! ### Guards (03:R53) -/

/-- g[i]; g0 reads 1. -/
def readG (x : Ctx) (i : Nat) : Bool := i = 0 || x.g.getLsbD i

/-- The operation executes. -/
def guardOn (s : State) (g : BitVec 3) (n : BitVec 1) : Bool := readG (cx s) g.toNat != (n = 1)

/-! ### Registers -/

/-- s[r]; s0 reads 0 (05:R91). -/
def readS (x : Ctx) (r : Nat) : W64 := if r = 0 then 0 else x.s.getD r 0

def readK (k : Core) (r : Nat) : W64 := k.k.getD r 0

/-- m[r] in C0, n[r] in C1. -/
def readA (x : Ctx) (c1 : Bool) (r : Nat) : W64 := if c1 then x.n.getD r 0 else x.m.getD r 0

/-- A vector as 128 lanes. -/
def pad (l : Lanes) : Lanes := l ++ List.replicate (128 - l.length) 0

/-- x[r], or y[r]. -/
def readV (x : Ctx) (y : Bool) (r : Nat) : Lanes := pad (if y then x.y.getD r [] else x.x.getD r [])

/-- xh[r], or yh[r]; index 0 reads all ones (05:R91). -/
def readMask (x : Ctx) (y : Bool) (r : Nat) : W128 :=
  if r = 0 then BitVec.allOnes 128 else if y then x.yh.getD r 0 else x.xh.getD r 0

/-! ### Latches (05:R96) -/

/-- The value that operand l(i) of a slot's line reads in the cycle t. -/
def latchAt (x : Ctx) (slot i t : Nat) : Option Val :=
  (((x.latch.getD slot []).filter (fun e => e.1 + i = t && x.latchBase ≤ e.1)).getLast?).map (·.2)

/-- A latch entry as 64 bits. -/
def valWord : Val → W64
  | .w v => v
  | .v l => (lane l 1) ++ (lane l 0)
  | .p a _ => (lane a 1) ++ (lane a 0)
  | .m b => b.setWidth 64

/-- A latch entry of a V line as lanes: 64 bits occupy lanes 1 and 0 (05:R97). -/
def valLanes : Val → Lanes
  | .w v => pad [v.extractLsb' 0 32, v.extractLsb' 32 32]
  | .v l => pad l
  | .p a _ => pad a
  | .m _ => pad []

def latchWord (s : State) (i : Nat) : W64 := (latchAt (cx s) s.cur.slot i (cyc s)).elim 0 valWord

def latchLanes (s : State) (i : Nat) : Lanes := (latchAt (cx s) s.cur.slot i (cyc s)).elim (pad []) valLanes

/-! ### Queue heads (14:R287, R288) -/

/-- The entry that a source shows, none where it is empty. -/
def sourceHead (s : State) (c : CoreRef) : QSrc → Option W64
  | .chan ch => (((getPart s (partOf s c)).chans.getD ch {}).entries).head?
  | .rq i => ((s.core c).eng.rqs.getD i []).head?
  | .evq =>
    let q := getPart s (partOf s c)
    if q.evCount = 0 then none
    else
      let a := 0x20000 + 32 * q.evHead
      some (BitVec.ofNat 64 (leNat (nearRead s c a 4) + a * 2 ^ 32))

/-- What latch q(i) of the issuing context shows: none where it is unbound or its valid bit is 0. -/
def queueHead (s : State) (i : Nat) : Option W64 :=
  match (cx s).q.getD i none with
  | none => none
  | some src => sourceHead s s.cur.core src

/-- A source value reads an invalid or unbound latch, which sets its QEMPTY bit (14:R288). -/
def emptyRead (s : State) (v : Nat) : BitVec 4 :=
  if 36 ≤ v ∧ v ≤ 39 ∧ queueHead s (v - 36) = none then BitVec.ofNat 4 (2 ^ (v - 36)) else 0

/-- A source value shows an entry, which its reader acquires (14:R288, 17:R355). -/
def shownRead (s : State) (v : Nat) : Bool := 36 ≤ v && v ≤ 39 && (queueHead s (v - 36)).isSome

/-- The queue-head reads of an executed operation's sources. -/
def noteReads (s0 : State) (vs : List Nat) : State :=
  let s := if vs.any (shownRead s0) then acquireLines s0 s0.cur.core else s0
  let b := vs.foldl (fun a v => a ||| emptyRead s v) 0
  let old := (cx s).qempty
  if b = 0 then s
  else { updCx s (fun x => { x with qempty := x.qempty ||| b }) with
         cur := { s.cur with noted := s.cur.noted ||| (b &&& ~~~ old) } }

/-- The QEMPTY bits as an operation of the bundle reads them: those that reads of the bundle itself set are not seen (03:R49). -/
def qemptySeen (s : State) : BitVec 4 := (cx s).qempty &&& ~~~ s.cur.noted

/-! ### Sources (03:R57 to R59) -/

/-- The integer constant of codes 48 to 63. -/
def intConst (w v : Nat) : BitVec w := (BitVec.ofNat 4 (v - 48)).signExtend w

/-- The f32 constant table (03:R59). -/
def f32Const (v : Nat) : W32 :=
  match v with
  | 48 => 0x00000000 | 49 => 0x3F800000 | 50 => 0x40000000 | 51 => 0x3F000000
  | 52 => 0xBF800000 | 53 => 0x80000000 | 54 => 0x7F800000 | 55 => 0xFF800000
  | 56 => 0x40400000 | 57 => 0x3E800000 | 58 => 0x3F317218 | 59 => 0x3FB8AA3B
  | 60 => 0x40490FDB | 61 => 0x3EA2F983 | 62 => 0x7F7FFFFF | _ => 0x00800000

def portA (s : State) : W64 := readK (me s) (headAReg s.cur.head)

def portB (s : State) : W64 := readK (me s) (headBReg s.cur.head)

/-- The 64-bit value of a scalar operand that is not a register or a constant. -/
def scalarSrc (s : State) (v : Nat) : W64 :=
  if v ≤ 35 then latchWord s (v - 32)
  else if v ≤ 39 then (queueHead s (v - 36)).getD 0
  else if v = 40 then portA s
  else portB s

/-- A source of the S slot. -/
def srcS (s : State) (f : BitVec 6) : W64 :=
  if f.toNat ≤ 31 then readS (cx s) f.toNat
  else if 48 ≤ f.toNat then intConst 64 f.toNat
  else scalarSrc s f.toNat

/-- A source of the M slot. -/
def srcM (s : State) (f : BitVec 6) : W64 :=
  if f.toNat ≤ 31 then (me s).mp.getD f.toNat 0
  else if 48 ≤ f.toNat then intConst 64 f.toNat
  else scalarSrc s f.toNat

/-- The issuing slot is V1, whose file is y. -/
def isY (s : State) : Bool := s.cur.slot = 2

/-- A source of a V slot; `f32` says that the position is an f32 one (03:R59). -/
def srcV (s : State) (f32 : Bool) (f : BitVec 6) : Lanes :=
  let v := f.toNat
  if v ≤ 31 then readV (cx s) (isY s) v
  else if v ≤ 35 then latchLanes s (v - 32)
  else if v = 42 then laneIdx.map (BitVec.ofNat 32)
  else if v = 43 then laneIdx.map (fun i => BitVec.ofNat 32 (i / 16))
  else if 48 ≤ v then List.replicate 128 (if f32 then f32Const v else intConst 32 v)
  else List.replicate 128 ((scalarSrc s v).setWidth 32)

/-! ### Active lanes (05:R100) -/

/-- The lanes of the clusters that CLMASK enables. -/
def clusterLanes (m : W8) : W128 :=
  (List.range 8).foldl (fun a c => if m.getLsbD c then a ||| (0xFFFF#128 <<< (16 * c)) else a) 0

/-- The active lanes of a V slot, x or y. -/
def activeLanes (x : Ctx) (y : Bool) : W128 :=
  clusterLanes x.clmask &&& readMask x y (if y then x.sel1 else x.sel0).toNat

/-! ### Results on their way -/

/-- Results and effects of a slot that are issued and not yet due, the undelivered shadow entries among them
(19:R390). -/
def outstanding (k : Core) (slot : Nat) : Nat :=
  opCount (k.main.pends ++ (if k.tp.resumed.isSome then k.tp.shadow else [])) slot

/-- The operation would leave its slot with more than eight outstanding; the urgent context has no such limit. -/
def noRoom (s : State) : Bool := !(isUrg s) && outstanding (me s) s.cur.slot ≥ 8

/-- Issue what follows where the slot has room for one more result, and trap with cause 0x0E where not (19:R390). -/
def withRoom (s : State) (f : State → State) : State := if noRoom s then issueFail s 0x0E 0 else f s

/-- A result due L cycles after issue, of the present slot and FMT, with a fresh serial. -/
def newPend (s : State) (L : Nat) : Pend :=
  { serial := s.serial, slot := s.cur.slot, due := cyc s + L, exist := (me s).clk.cyc + L, ten := fmtTen (cx s).fmt }

/-- Send a result on its way. -/
def emit (s : State) (p : Pend) : State :=
  { updCx s (fun x => { x with pends := x.pends ++ [p] }) with serial := s.serial + 1 }

/-- The destination s[d], or k[WREG] under the write port (03:R61); a write to s0 is discarded (05:R91). -/
def dstS (s : State) (d : Nat) : Dst :=
  if ownsW s.cur.head s.cur.slot then .k (headWReg s.cur.head) else if d = 0 then .none else .s d

/-- A guarded S operation: nothing where its guard is false, else its reads are noted and the rest follows if the slot has
room for its result. -/
def guarded (s : State) (g : BitVec 3) (n : BitVec 1) (srcs : List (BitVec 6)) (f : State → State) : State :=
  if guardOn s g n then withRoom s (fun s => f (noteReads s (srcs.map (·.toNat)))) else s

/-- Send a 64-bit S result: to s[d] or the write port, and into the slot's line. -/
def putS (s : State) (L : Nat) (d : BitVec 5) (v : W64) : State :=
  emit s { newPend s L with dst := dstS s d.toNat, val := .w v, latch := some 0 }

/-- A guarded S operation with a 64-bit result. -/
def resultS (s : State) (g : BitVec 3) (n : BitVec 1) (srcs : List (BitVec 6)) (L : Nat) (d : BitVec 5) (v : W64) : State :=
  guarded s g n srcs (fun s' => putS s' L d v)

/-- An S operation in SI form, which is never guarded (06:R114). -/
def resultSI (s : State) (srcs : List (BitVec 6)) (d : BitVec 5) (v : W64) : State :=
  withRoom s (fun s => putS (noteReads s (srcs.map (·.toNat))) 1 d v)

/-- Effects on control state that fall due L cycles after issue (19:R389). -/
def putEffs (s : State) (L : Nat) (es : List Eff) : State := emit s { newPend s L with effs := es }

/-- A guarded S operation with an effect on control state and no result. -/
def effectS (s : State) (g : BitVec 3) (n : BitVec 1) (srcs : List (BitVec 6)) (L : Nat) (es : List Eff) : State :=
  guarded s g n srcs (fun s' => putEffs s' L es)

/-- A guarded S operation without result or held effect. -/
def plainS (s : State) (g : BitVec 3) (n : BitVec 1) (srcs : List (BitVec 6)) (f : State → State) : State :=
  if guardOn s g n then f (noteReads s (srcs.map (·.toNat))) else s

/-! ### Vector results -/

/-- The lanes of l that are active, 0 elsewhere. -/
def maskLanes (act : W128) (l : Lanes) : Lanes := (l.zip laneIdx).map (fun p => if act.getLsbD p.2 then p.1 else 0)

/-- Active lanes new, others old. -/
def mergeLanes (act : W128) (old new : Lanes) : Lanes :=
  ((pad old).zip ((pad new).zip laneIdx)).map (fun p => if act.getLsbD p.2.2 then p.2.1 else p.1)

/-- The destination of a V result: vd of the slot's file, k[WREG] under the write port (lanes 1 and 0), nothing under
w = 1. -/
def dstV (s : State) (w : BitVec 1) (d : BitVec 5) (act : W128) : Dst :=
  if w = 1 then .none
  else if ownsW s.cur.head s.cur.slot then .k (headWReg s.cur.head)
  else .vec (isY s) d.toNat act

/-- The value that travels: under the write port the 64 bits of lanes 1 and 0 (03:R61). -/
def valV (s : State) (w : BitVec 1) (l : Lanes) : Val :=
  if w = 0 ∧ ownsW s.cur.head s.cur.slot then .w (lane l 1 ++ lane l 0) else .v l

/-- Send a reduction result, which is delivered in the lanes of act only (07:R154 to R156): the write port's owner delivers
lane 0 alone, with 0 in bits [63:32], and nothing where lane 0 is inactive (entry 36). -/
def putRed (s : State) (L : Nat) (w : BitVec 1) (d : BitVec 5) (act : W128) (l : Lanes) (fl : W8) : State :=
  let own : Bool := w = 0 && ownsW s.cur.head s.cur.slot
  emit s { newPend s L with
    dst := if own && !act.getLsbD 0 then .none else dstV s w d act
    val := if own then .w ((lane l 0).setWidth 64) else .v (maskLanes act l)
    latch := if own && !act.getLsbD 0 then none else some s.cur.slot
    flags := if own && !act.getLsbD 0 then 0 else fl }

/-- Send a vector result with its flags. -/
def putV (s : State) (L E : Nat) (w : BitVec 1) (d : BitVec 5) (act : W128) (l : Lanes) (fl : W8) : State :=
  emit s { newPend s L with
    exist := (me s).clk.cyc + E, dst := dstV s w d act, val := valV s w (if w = 0 ∧ ownsW s.cur.head s.cur.slot then l else maskLanes act l),
    latch := some s.cur.slot, flags := fl }

/-- A V operation with a vector result. -/
def resultV (s : State) (srcs : List (BitVec 6)) (L E : Nat) (w : BitVec 1) (d : BitVec 5) (l : Lanes) (fl : W8) : State :=
  withRoom s (fun s' => putV (noteReads s' (srcs.map (·.toNat))) L E w d (activeLanes (cx s) (isY s)) l fl)

/-- The flags of the active lanes together (02:R33). -/
def activeFlags (act : W128) (l : List FR) : W8 :=
  (l.zip laneIdx).foldl (fun a p => if act.getLsbD p.2 then a ||| p.1.f else a) 0

/-- A V operation whose lanes carry flags. -/
def resultVF (s : State) (srcs : List (BitVec 6)) (L E : Nat) (w : BitVec 1) (d : BitVec 5) (l : List FR) : State :=
  resultV s srcs L E w d (l.map (·.v)) (activeFlags (activeLanes (cx s) (isY s)) l)

end Sys2Proof.Machine
end

