-- ==== Sys2Proof/Machine/Flags.lean ====
section
/-!
DEFINITION. Flags and duty: the trap enables of 02:R32, the sticky flags a landing result sets (02:R31, 06:R129, R132), and
Mace's duty counts (15:R315).
-/

namespace Sys2Proof.Machine

/-- The flags that an enable of FMT.TEN makes trap: inexact has none (02:R32). -/
def trappingFlags (fl : W8) (ten : BitVec 7) : W8 :=
  let en : W8 := (ten.extractLsb' 4 3 : BitVec 3) ++ (0#1) ++ (ten.extractLsb' 0 4 : BitVec 4)
  fl &&& en

/-- Set sticky floating-point flags and ISTAT bits of a context. -/
def raiseFlags (x : Ctx) (fl : W8) (ist : BitVec 2) : Ctx :=
  { x with fflags := x.fflags ||| fl, istat := x.istat ||| ist }

/-- Flags of a list of results together. -/
def allFlags (l : List FR) : W8 := l.foldl (fun a r => a ||| r.f) 0

/-- Issue a vector floating-point operation: trap with cause 0x04 where the window's limit of 128 V would be exceeded, and
else count it and go on, if the slot has room (15:R315, 07:R137). The urgent context counts no duty (19:R386). -/
def vfpOp (s : State) (f : State → State) : State :=
  if isUrg s then withRoom s f
  else if (me s).ph.vCount + 1 > 128 * (me s).ph.grantV then issueFail s 0x04 1
  else withRoom s (fun s => f (updMe s (fun k => { k with ph := { k.ph with vCount := k.ph.vCount + 1 } })))

/-- A counted V operation whose lanes carry flags. -/
def resultFP (s : State) (srcs : List (BitVec 6)) (L E : Nat) (w : BitVec 1) (d : BitVec 5) (l : List FR) : State :=
  let act := activeLanes (cx s) (isY s)
  vfpOp s (fun s' => putV (noteReads s' (srcs.map (·.toNat))) L E w d act (l.map (·.v)) (activeFlags act l))

/-- A pair result of the active lanes, with its flags. -/
def putP (s : State) (L : Nat) (d : Nat) (act : W128) (l : List (W32 × W32 × W8)) : State :=
  let fl := (l.zip laneIdx).foldl (fun a p => if act.getLsbD p.2 then a ||| p.1.2.2 else a) 0
  emit s { newPend s L with
    dst := .pair (isY s) d act, val := .p (maskLanes act (l.map (·.1))) (maskLanes act (l.map (·.2.1)))
    latch := some s.cur.slot, flags := fl }

/-- A counted V operation with a pair result (02:R35): first and second registers and flags by lane. -/
def resultFP2 (s : State) (srcs : List (BitVec 6)) (L : Nat) (d : BitVec 4) (l : List (W32 × W32 × W8)) : State :=
  let act := activeLanes (cx s) (isY s)
  vfpOp s (fun s' => putP (noteReads s' (srcs.map (·.toNat))) L (2 * d.toNat) act l)

end Sys2Proof.Machine
end

