-- ==== Sys2Proof/Machine/Mmu.lean ====
section
/-!
DEFINITION. Pages and translation: the radix table, leaf entries, permissions, physical targets (11:R225 to R228), the
micro-TLBs and die TLBs, and walks (11:R229, R230).
-/

namespace Sys2Proof.Machine

/-! ### Entries (11:R225) -/

/-- A table entry, by its bits. -/
def pteValid (e : Nat) : Bool := bitOf e 0
def pteLeaf (e : Nat) : Bool := bitOf e 2
def leafR (e : Nat) : Bool := bitOf e 3
def leafW (e : Nat) : Bool := bitOf e 4
def leafKind (e : Nat) : Nat := bitsOf e 6 5
def leafPpol (e : Nat) : Nat := bitsOf e 8 7
def leafPart (e : Nat) : Nat := bitsOf e 11 9
def leafFrame (e : Nat) : Nat := bitsOf e 51 18

/-- A pointer entry with a reserved bit set. -/
def pointerBad (e : Nat) : Bool := bitsOf e 63 50 ≠ 0 || bitsOf e 12 3 ≠ 0 || bitOf e 1

/-- A leaf entry with a reserved bit or value set: malformed, so it is never cached (11:R225, R226, R229). -/
def leafBad (large : Bool) (e : Nat) : Bool :=
  bitsOf e 63 52 ≠ 0 || bitsOf e 17 12 ≠ 0 || bitOf e 1 || 2 ≤ leafPpol e || leafKind e = 3 || (large && bitsOf e 27 18 ≠ 0)
    || bitsOf e 51 50 = 3 || (bitsOf e 51 50 = 1 && bitsOf e 49 48 ≠ 0)

/-- What a walk gives. -/
inductive Walked where
  | leaf (large : Bool) (e : Nat)
  | fault (code : Nat)
deriving DecidableEq, Repr

/-- A table entry, or the fault of reading it: 7 where its granule is poisoned, 6 where it lies beyond the local HBM (11:R226,
R230). -/
inductive Pte where
  | entry (e : Nat)
  | fault (code : Nat)
deriving DecidableEq, Repr

def readPte (s : State) (a : Nat) : Pte :=
  if 2 ^ 39 ≤ a then .fault 6
  else if sysPoisoned s a 8 || s.sysuerr.contains (a / 64) then .fault 7
  else .entry (leNat (sysRead s a 8))

/-- The table that a pointer names. -/
def tableOf (e : Nat) : Nat := bitsOf e 51 13 * 2 ^ 13

/-- The entry of the third level. -/
def walkLast (s : State) (t va : Nat) : Walked :=
  match readPte s (t + 8 * bitsOf va 27 18) with
  | .fault c => .fault c
  | .entry e => if !pteValid e then .fault 1 else if !pteLeaf e || leafBad false e then .fault 4 else .leaf false e

/-- The entry of the second level, and what follows. -/
def walkMid (s : State) (t va : Nat) : Walked :=
  match readPte s (t + 8 * bitsOf va 37 28) with
  | .fault c => .fault c
  | .entry e =>
    if !pteValid e then .fault 1
    else if pteLeaf e then (if leafBad true e then .fault 4 else .leaf true e)
    else if pointerBad e then .fault 4
    else walkLast s (tableOf e) va

/-- The walk of an address through the three levels of a partition's table. -/
def walkTable (s : State) (p va : Nat) : Walked :=
  if 2 ^ 48 ≤ va then .fault 6
  else match readPte s ((getPart s p).ptroot + 8 * bitsOf va 47 38) with
    | .fault c => .fault c
    | .entry e => if !pteValid e then .fault 1 else if pteLeaf e || pointerBad e then .fault 4 else walkMid s (tableOf e) va

/-- The addresses of the entries that a walk reads. -/
def walkReads (s : State) (p va : Nat) : List Nat :=
  let a1 := (getPart s p).ptroot + 8 * bitsOf va 47 38
  if 2 ^ 48 ≤ va then []
  else match readPte s a1 with
    | .fault _ => [a1]
    | .entry e1 =>
      if !pteValid e1 || pteLeaf e1 || pointerBad e1 then [a1]
      else
        let a2 := tableOf e1 + 8 * bitsOf va 37 28
        match readPte s a2 with
        | .fault _ => [a1, a2]
        | .entry e2 =>
          if !pteValid e2 || pteLeaf e2 || pointerBad e2 then [a1, a2] else [a1, a2, tableOf e2 + 8 * bitsOf va 27 18]

/-- The errors that a walk meets (11:R233). -/
def walkMeet (s : State) (p va : Nat) : State := (walkReads s p va).foldl (fun s a => sysTouch s a 8) s

/-! ### Physical targets and permission (11:R226, R227) -/

/-- The physical address of va under a leaf; this chip's own HBM has one name. -/
def leafPa (s : State) (large : Bool) (e va : Nat) : Nat :=
  let pa := leafFrame e * 2 ^ 18 + (if large then va % 2 ^ 28 else va % 2 ^ 18)
  if bitsOf pa 51 50 = 1 ∧ bitsOf pa 47 39 = s.chip ∧ bitsOf pa 49 48 = 0 then pa % 2 ^ 39 else pa

/-- The physical address names no target: the fault code. -/
def paBad (s : State) (pa : Nat) : Option Nat :=
  match bitsOf pa 51 50 with
  | 0 => if bitsOf pa 49 39 ≠ 0 then some 6 else none
  | 1 => if bitsOf pa 49 48 ≠ 0 then some 4 else if !s.domain || !Config.inDomain (bitsOf pa 47 39) then some 6 else none
  | 2 => none
  | _ => some 4

/-- The page of a physical address is allotted to the partition and not retired (11:R227, 20:R414). -/
def paAllotted (s : State) (p pa : Nat) : Bool :=
  match bitsOf pa 51 50 with
  | 0 => (s.svc.allot.getD (pa / 2 ^ 28) 0).toNat = 128 + p && !s.svc.retired.contains (pa / 2 ^ 18)
  | 1 => Config.remoteAllot (bitsOf pa 47 39) (pa % 2 ^ 39 / 2 ^ 18) p
  | _ => true

/-- A physical address of another chip's HBM, and that chip (11:R226). -/
def isRemote (pa : Nat) : Bool := bitsOf pa 51 50 = 1
def paChip (pa : Nat) : Nat := bitsOf pa 47 39

/-- The fault code of an access under a leaf, if any: permission, owner, target (11:R230). -/
def leafFault (s : State) (p : Nat) (r w : Bool) (large : Bool) (e va : Nat) : Option Nat :=
  let pa := leafPa s large e va
  if (r && !leafR e) || (w && !leafW e) then some 2
  else match paBad s pa with
    | some c => some c
    | none => if leafPart e ≠ p || !paAllotted s p pa then some 3 else none

/-! ### TLBs (11:R229) -/

/-- The die of a core. -/
def dieOf (c : CoreRef) : Nat := if c.cc then c.num / 4 else c.num / 64

/-- The page base of an address. -/
def pageBase (large : Bool) (va : Nat) : Nat := if large then va / 2 ^ 28 * 2 ^ 28 else va / 2 ^ 18 * 2 ^ 18

def covers (large : Bool) (base va : Nat) : Bool := pageBase large va = base

/-- A list kept to its last n elements. -/
def lastN {α : Type} (n : Nat) (l : List α) : List α := l.drop (l.length - n)

/-- The micro-TLB of an engine or of a path of a core: the hit, and the list with the hit moved to its end. -/
def utlbFind (l : List (Nat × W64 × Bool)) (va : Nat) : Option (Nat × W64 × Bool) := l.find? (fun e => covers e.2.2 e.1 va)

def utlbPut (l : List (Nat × W64 × Bool)) (e : Nat × W64 × Bool) : List (Nat × W64 × Bool) :=
  lastN 8 (l.filter (fun x => x ≠ e) ++ [e])

def dieFind (s : State) (die p va : Nat) : Option TlbEnt :=
  s.tlbs.find? (fun e => e.die = die && e.part = p && covers e.large e.base va)

/-- The set of an entry's array: the page number modulo its sets of eight ways (11:R229; entry 13). -/
def tlbSet (large : Bool) (base : Nat) : Nat := if large then base / 2 ^ 28 % 512 else base / 2 ^ 18 % 2048

/-- Install or refresh a die TLB entry; a full set drops its least recently used entry. -/
def diePut (l : List TlbEnt) (e : TlbEnt) : List TlbEnt :=
  let rest := l.filter (fun x => x ≠ e)
  let same := rest.filter (fun x => x.die = e.die && x.large = e.large && tlbSet x.large x.base = tlbSet e.large e.base)
  let rest := if 8 ≤ same.length then (match same.head? with | some x => rest.filter (fun y => y ≠ x) | none => rest) else rest
  rest ++ [e]

/-- What a translation gives: a leaf, or that a walk is needed. -/
inductive Found where
  | hit (large : Bool) (e : Nat)
  | miss
deriving DecidableEq, Repr

/-- Look up micro-TLB i of a core, then its die's TLB. -/
def tlbFind (s : State) (c : CoreRef) (i va : Nat) : Found × State :=
  let us := (s.core c).eng.utlb
  match utlbFind (us.getD i []) va with
  | some e =>
    (.hit e.2.2 e.2.1.toNat, s.upd c (fun k => { k with eng := { k.eng with utlb := us.set i (utlbPut (us.getD i []) e) } }))
  | none =>
    match dieFind s (dieOf c) (partOf s c) va with
    | some e =>
      let s1 := { s with tlbs := diePut s.tlbs e }
      (.hit e.large e.leaf.toNat,
        s1.upd c (fun k => { k with eng := { k.eng with utlb := us.set i (utlbPut (us.getD i []) (e.base, e.leaf, e.large)) } }))
    | none => (.miss, s)

/-- A core's context waits for the walk of an address; misses to one page share one walk. -/
def askWalk (s : State) (c : CoreRef) (i va : Nat) : State :=
  let die := dieOf c
  let p := partOf s c
  let page := va / 2 ^ 18
  match s.walks.find? (fun w => w.die = die && w.part = p && w.va = page) with
  | some w =>
    if w.who.any (fun x => x.1 = c && x.2.1 = i) then s
    else { s with walks := s.walks.map (fun x => if x = w then { w with who := w.who ++ [(c, i, va)] } else x) }
  | none => { s with walks := s.walks ++ [{ die := die, part := p, va := page, who := [(c, i, va)] }] }

/-- Install the leaf that a walk found in the die TLB. -/
def installLeaf (s : State) (die p va : Nat) (large : Bool) (e : Nat) : State :=
  { s with tlbs := diePut s.tlbs { die := die, part := p, base := pageBase large va, large := large, leaf := BitVec.ofNat 64 e } }

/-- A translation whose outcome is known: physical address and leaf, or a fault code. -/
inductive Xlat where
  | ok (pa : Nat) (e : Nat)
  | fault (code : Nat)
deriving DecidableEq, Repr

def xlatOf (s : State) (p : Nat) (r w large : Bool) (e va : Nat) : Xlat :=
  match leafFault s p r w large e va with
  | some c => .fault c
  | none => .ok (leafPa s large e va) e

/-- Translate through micro-TLB i, walking the table at once on a miss: for a path whose issue has stalled until the walk
was done (10:R212, 18:R364). -/
def xlate (s : State) (c : CoreRef) (i va : Nat) (r w : Bool) : Xlat × State :=
  if 2 ^ 48 ≤ va then (.fault 6, s)
  else match tlbFind s c i va with
    | (.hit large e, s1) => (xlatOf s1 (partOf s c) r w large e va, s1)
    | (.miss, s0) =>
      let s1 := walkMeet s0 (partOf s c) va
      match walkTable s1 (partOf s c) va with
      | .fault code => (.fault code, s1)
      | .leaf large e =>
        let s2 := installLeaf s1 (dieOf c) (partOf s c) va large e
        (xlatOf s2 (partOf s c) r w large e va, (tlbFind s2 c i va).2)

/-- Translate by the table itself: for the engines that have no TLB of their own (15:R302, 18:R366, 20:R402). -/
def xlateWalk (s : State) (p va : Nat) (r w : Bool) : Xlat :=
  match walkTable s p va with
  | .fault code => .fault code
  | .leaf large e => xlatOf s p r w large e va

/-! ### Reads by virtual address -/

/-- What a read of bytes through the table gives: the bytes, a fault with its address, or poison with its address. -/
inductive VRead where
  | bytes (l : List W8)
  | fault (code va : Nat)
  | poison (va : Nat)
deriving DecidableEq, Repr

/-- Read one part that lies in one page. -/
def vreadPart (s : State) (p : Nat) (va n : Nat) : VRead :=
  match xlateWalk s p va true false with
  | .fault code => .fault code (va / 64 * 64)
  | .ok pa _ =>
    match (granules 64 pa n).find? (fun g => s.syspoison.contains g || s.sysuerr.contains g) with
    | some g => .poison (va - pa % 2 ^ 18 + (64 * g) % 2 ^ 18)
    | none => .bytes (sysRead s pa n)

/-- Read n bytes, page by page. -/
def vreadParts (s : State) (p : Nat) : List (Nat × Nat) → VRead
  | [] => .bytes []
  | x :: t => match vreadPart s p x.1 x.2 with
    | .bytes l => (match vreadParts s p t with
      | .bytes l' => .bytes (l ++ l')
      | r => r)
    | r => r

/-- The parts of n bytes at va by pages of 256 KiB. -/
def pageParts (va n : Nat) : List (Nat × Nat) :=
  (granules (2 ^ 18) va n).map (fun k =>
    let lo := max va (2 ^ 18 * k)
    (lo, min (va + n) (2 ^ 18 * k + 2 ^ 18) - lo))

def vread (s : State) (p va n : Nat) : VRead := vreadParts s p (pageParts va n)

/-- The errors that a read of n bytes by virtual address meets, in the tables and in the data (11:R233). -/
def vtouch (s : State) (p va n : Nat) : State :=
  if s.syscerr = [] ∧ s.sysuerr = [] then s
  else (pageParts va n).foldl (fun s x =>
    let s1 := walkMeet s p x.1
    match xlateWalk s1 p x.1 true false with
    | .ok pa _ => sysTouch s1 pa x.2
    | .fault _ => s1) s

end Sys2Proof.Machine
end

