-- ==== Sys2Proof/Machine/Ports.lean ====
section
/-!
DEFINITION. The Afgen ports as an untimed sender meets them (16:R320, R323, R437), and the requests and answers by which memory of
another chip is accessed (11:R226, R227).
-/

namespace Sys2Proof.Machine

/-! ### Ports -/

def getPort (s : State) (i : Nat) : Port := s.ports.getD i {}

def updPort (s : State) (i : Nat) (f : Port → Port) : State := { s with ports := s.ports.set i (f (getPort s i)) }

/-- Ticks of a latency class: A, B or C (16:R323). -/
def classTicks (c : Nat) : Nat :=
  match c % 3 with
  | 0 => 1100 | 1 => 2400 | _ => 4000

/-- Class latency between two chips, in ticks. -/
def pathTicks (a b : Nat) : Nat := classTicks (Config.pathClass a b)

/-- Ports of a partition that are in service. -/
def portsOf (s : State) (p : Nat) : List Nat := (List.range 36).filter (fun i => (getPart s p).ports.getLsbD i && (getPort s i).up)

/-- Send an untimed flit out of the chip through one of the partition's ports, none of them where no path remains (16:R437). -/
def sendOut (s : State) (f : Flit) : Option State :=
  let l := portsOf s f.part
  if l = [] ∨ !(f.dstChip = s.chip || Config.inDomain f.dstChip) then none
  else
    let d := draw s l.length
    let p := l.getD d.1 0
    some (updPort d.2 p (fun x => { x with untimed := x.untimed ++ [{ f with port := p }] }))

/-- The core that sent a flit, for one of this chip, and the core that it is for. -/
def flitSrc (f : Flit) : CoreRef := ⟨f.srcCc, f.srcCore⟩
def flitDst (f : Flit) : CoreRef := ⟨f.dstCc, f.dstCore⟩

/-- The answer to a flit. -/
def answer (s : State) (f : Flit) (kind : FKind) : Flit :=
  { kind := kind, part := f.part, srcChip := s.chip, srcCc := f.dstCc, srcCore := f.dstCore, ctx := f.ctx, num := f.num
    dstChip := f.srcChip, dstCc := f.srcCc, dstCore := f.srcCore, idx := f.idx, grp := f.grp, seqn := f.seqn, port := f.port
    timed := f.timed, op := f.op }

/-! ### Memory of another chip (11:R226, R227, 17:R358) -/

/-- What is asked of another chip's memory: 0 a read of n bytes, 1 a write, 2 an atomic, 3 an addition to an Anise bin. -/
def memAsk (s : State) (c : CoreRef) (ctx num op pa : Nat) : Flit :=
  { kind := .memReq, part := partOf s c, srcChip := s.chip, srcCc := c.cc, srcCore := c.num, ctx := ctx, num := num
    dstChip := paChip pa, virt := true, off := pa % 2 ^ 39, op := op }

/-- Contexts that a request or an answer names, beside the transfer contexts 0 to 15: window w, and a control core's C1 path. -/
def winCtx (w : Nat) : Nat := 16 + w
def c1Ctx : Nat := 32

end Sys2Proof.Machine
end

