-- ==== Sys2Proof/Machine/Vault.lean ====
section
/-!
DEFINITION. The vaults and the lateral mesh: addresses (10:R188, R194, R195), routes and link slots (10:R196), claims and
their checks (04:R85, R86), and what an access does at its bank cycle (10:R191, R200 to R211).
-/

namespace Sys2Proof.Machine

/-! ### The mesh (01:R13, 10:R196) -/

def meshRow (n : Nat) : Nat := n % 64 / 8
def meshCol (n : Nat) : Nat := n % 8

def natDist (a b : Nat) : Nat := max a b - min a b

/-- Hops between the local positions of two cores. -/
def hopCount (a b : Nat) : Nat := natDist (meshRow a) (meshRow b) + natDist (meshCol a) (meshCol b)

def crossDie (a b : Nat) : Bool := a / 64 ≠ b / 64

/-- A directed link: die in bit 0, sending router in bits 6:1, direction in bits 9:7 (15:R301). -/
def linkCode (die router dir : Nat) : Nat := die + 2 * router + 128 * dir

/-- The links of the column steps from column c to d in row r, then of the row steps. -/
def colLinks (die r c d : Nat) : List Nat :=
  if c ≤ d then (List.range (d - c)).map (fun i => linkCode die (8 * r + c + i) 0)
  else (List.range (c - d)).map (fun i => linkCode die (8 * r + c - i) 1)

def rowLinks (die col r q : Nat) : List Nat :=
  if r ≤ q then (List.range (q - r)).map (fun i => linkCode die (8 * (r + i) + col) 2)
  else (List.range (r - q)).map (fun i => linkCode die (8 * (r - i) + col) 3)

/-- The outward hops from core a to the local position of core b, on the die of a. -/
def outLinks (a b : Nat) : List Nat :=
  colLinks (a / 64) (meshRow a) (meshCol a) (meshCol b) ++ rowLinks (a / 64) (meshCol b) (meshRow a) (meshRow b)

/-- The link of the same hop taken the other way. -/
def reverseLink (l : Nat) : Nat :=
  let die := l % 2
  let r := l / 2 % 64
  match l / 128 with
  | 0 => linkCode die (r + 1) 1
  | 1 => linkCode die (r - 1) 0
  | 2 => linkCode die (r + 8) 3
  | _ => linkCode die (r - 8) 2

/-- The link slots of an operation whose result is due r cycles after issue (none without a return packet): cycle after
issue and link (10:R196). -/
def linkSlots (a b : Nat) (r : Option Nat) : List (Nat × Nat) :=
  let out := outLinks a b
  let h := out.length
  let x := crossDie a b
  let o := (out.zip (List.range h)).map (fun p => (2 * (p.2 + 1), p.1))
  let ob := if x then [(2 * h + 2, linkCode (a / 64) (b % 64) 4)] else []
  match r with
  | none => o ++ ob
  | some r =>
    let rb := if x then [(r - 28 - 2 * h, linkCode (b / 64) (b % 64) 4)] else []
    let ret := (out.reverse.zip (List.range h)).map (fun p => (r - 6 - 2 * (h - (p.2 + 1)), reverseLink p.1))
    o ++ ob ++ rb ++ ret

/-! ### Forming addresses (10:R194, R195, R198) -/

/-- The access goes through C1. -/
def isC1 (s : State) : Bool := s.cur.slot = 5

/-- Where an access goes: the core whose near memory it touches, the offset, and the address formed. -/
structure Target where
  core : CoreRef
  off : Nat
  addr : W64
deriving DecidableEq, Repr

/-- Bytes of a core's near memory: a vault, or a control core's data memory. -/
def nearSize (c : CoreRef) : Nat := if c.cc then 0x40000 else 0x800000

/-- The target of a lateral address is in reach of the issuing core (10:R195). -/
def inReach (s : State) (t : Nat) : Bool :=
  let k := me s
  !isUrg s && inPhase s && k.ph.gang.isSome && decide (t < s.vms.length) && (s.core ⟨false, t⟩).ph.gang = k.ph.gang

/-- base + disp as a near or lateral address, or the address formed where it fails cause 0x06. -/
def formAddr (s : State) (base : BitVec 4) (disp : Int) : Sum W64 Target :=
  let b := readA (cx s) (isC1 s) base.toNat
  let v := b + BitVec.ofInt 64 disp
  if isC1 s then
    let off : Int := ((b.toNat % 2 ^ 23 : Nat) : Int) + disp
    let t := bitsOf b.toNat 29 23
    if b.toNat < 2 ^ 30 ∧ 0 ≤ off ∧ off < 0x800000 ∧ inReach s t then .inr ⟨⟨false, t⟩, off.toNat, v⟩ else .inl v
  else if v.toNat < nearSize s.cur.core then .inr ⟨s.cur.core, v.toNat, v⟩
  else .inl v

/-- The address in the lateral form of R194. -/
def lateralForm (c : CoreRef) (off : Nat) : W64 := BitVec.ofNat 64 (c.num * 2 ^ 23 + off)

/-- The further cycles of a lateral access: to its bank cycles, and to its result (10:R196). -/
def bankExtra (s : State) (t : CoreRef) : Nat :=
  if isC1 s then 2 + 2 * hopCount s.cur.core.num t.num + (if crossDie s.cur.core.num t.num then 24 else 0) else 0

def resultExtra (s : State) (t : CoreRef) : Nat :=
  if isC1 s then 4 + 4 * hopCount s.cur.core.num t.num + (if crossDie s.cur.core.num t.num then 48 else 0) else 0

/-! ### Claims (04:R85, R86) -/

/-- The banks of an address range, as a bit mask. -/
def bankMask (l : List Nat) : BitVec 64 := l.foldl (fun a g => a ||| (1#64 <<< bankOf g)) 0

/-- Width in bits of an output type code (12:R254). -/
def otypeBits (c : Nat) : Nat :=
  match c with
  | 0 => 32 | 1 => 16 | 7 => 16 | 4 => 4 | 13 => 4 | _ => 8

/-- Bytes of a drained row (12:R255). -/
def drainBytes (cfg : W8) : Nat := if cfg.getLsbD 4 then 256 else 8 * otypeBits (cfg.extractLsb' 0 4).toNat

/-- The granules that an array event claims (12:R244). -/
def mopGran : MOp → List Nat
  | .tile _ a => granules 16 a 512
  | .side _ a => granules 16 a 512
  | .nib _ a => granules 16 a 512
  | .feed a n _ _ _ _ => granules 16 a n
  | .epiCol a => granules 16 a 512
  | .epiRow a => granules 16 a 1024
  | .xld a => granules 16 a 512
  | .drain _ _ a cfg _ _ _ => granules 16 a (drainBytes cfg)
  | .maskRd _ _ a => granules 16 a 8
  | .transWr _ _ a n _ _ _ => granules 16 a n
  | .maccRd _ _ _ a _ => granules 16 a 512
  | .maccWr _ _ a _ => granules 16 a 512
  | _ => []

/-- The banks of a core that are claimed in one of its cycles. The matrix claims of a core in a trap are frozen
(12:R263). -/
def claimedAt (k : Core) (t : Nat) : BitVec 64 :=
  let near := (k.near.claims.filter (fun c => c.1 = t)).foldl (fun a c => a ||| c.2) 0
  if k.tp.active then near
  else (k.mx.evts.filter (fun e => e.due = t)).foldl (fun a e => a ||| bankMask (mopGran e.op)) near

/-- The first of these claims that meets a claimed bank: (cycle after issue, granule, address). -/
def bankClash (k : Core) : List (Nat × List (Nat × Nat)) → Option Nat
  | [] => none
  | c :: t =>
    let taken := claimedAt k (k.clk.arch + c.1)
    match c.2.find? (fun g => taken.getLsbD (bankOf g.1)) with
    | some g => some g.2
    | none => bankClash k t

/-- Phase cycle of a link slot d cycles after issue: the key of a gang's link slots. -/
def linkCycle (s : State) (d : Nat) : Nat := (me s).ph.phc + d

def linkClash (s : State) (l : List (Nat × Nat)) : Option (Nat × Nat) :=
  match (me s).ph.gang with
  | none => none
  | some g => (l.map (fun x => (linkCycle s x.1, x.2))).find? (fun x => s.links.contains (g, x.1, x.2))

/-- Register claims on a core's banks: cycles after issue, granules and addresses. -/
def registerBanks (k : Core) (l : List (Nat × List (Nat × Nat))) : Core :=
  { k with near := { k.near with
      claims := k.near.claims.filter (fun c => k.clk.arch ≤ c.1) ++ l.map (fun c => (k.clk.arch + c.1, bankMask (c.2.map (·.1)))) } }

/-- The last cycle among claims and link slots, in the issuing core's count. -/
def lastOffset (l : List (Nat × List (Nat × Nat))) (ls : List (Nat × Nat)) : Nat :=
  (l.map (·.1) ++ ls.map (·.1)).foldl max 0

/-- Check and register the bank claims and link slots of an access, then go on; a lost claim is cause 0x02, a lost link
slot cause 0x03 (19:R384). A control core's data memory has no claims (10:R212). -/
def withClaims (s : State) (t : CoreRef) (l : List (Nat × List (Nat × Nat))) (ls : List (Nat × Nat)) (f : State → State) : State :=
  if t.cc then f s
  else match bankClash (s.core t) l with
    | some a => issueFail s 0x02 (lateralForm t a)
    | none => match linkClash s ls with
      | some x => issueFail s 0x03 (BitVec.ofNat 64 (x.1 % 2 ^ 20 + x.2 * 2 ^ 20))
      | none =>
        let last := cyc s + lastOffset l ls
        let s1 := s.upd t (fun k => registerBanks k l)
        let s2 := match (me s).ph.gang with
          | none => s1
          | some g => { s1 with links := s1.links ++ ls.map (fun x => (g, linkCycle s x.1, x.2)) }
        f (if isUrg s then s2 else updMe s2 (fun k => { k with lastClaim := max k.lastClaim last }))

/-- The granules of n bytes at an offset, each with the address of the part of the access in it. -/
def granAddrs (a n : Nat) : List (Nat × Nat) := (granules 16 a n).map (fun g => (g, max a (16 * g)))

/-! ### Anise bins (02:R44 to R46, 10:R207) -/

def i64At (bs : List W8) (o : Nat) : Int := toSigned 64 (fieldAt bs o 8)

def i64Bytes (v : Int) : List W8 := natBytes 8 (v % 2 ^ 64).toNat

/-- A bin just initialised with top exponent e. -/
def binFresh (e : W8) : List W8 := List.replicate 28 0 ++ [e] ++ List.replicate 3 0

def binE (bs : List W8) : Int := toSigned 8 (fieldAt bs 28 1)

/-- The bin after one more addend. -/
def binPlus (bs : List W8) (v : W32) : List W8 :=
  let fl := fieldAt bs 29 1 % 4
  match binSplit v (binE bs) with
  | none => bs.take 29 ++ natBytes 1 (if bitOf fl 0 then fl else fl + 1) ++ bs.drop 30
  | some (p0, p1, p2) =>
    let cnt := min (fieldAt bs 24 4 + 1) 0xFFFFFFFF
    let fl' := if 2 ^ 31 < cnt ∧ !bitOf fl 1 then fl + 2 else fl
    i64Bytes (i64At bs 0 + p0) ++ i64Bytes (i64At bs 8 + p1) ++ i64Bytes (i64At bs 16 + p2) ++ natBytes 4 cnt
      ++ byteSlice bs 28 1 ++ natBytes 1 fl' ++ bs.drop 30

/-- The value of a bin rounded into f32. -/
def binValue (bs : List W8) : FR :=
  if fieldAt bs 29 1 % 4 ≠ 0 then ⟨FT.nan .f32, fINV⟩
  else
    let v : Int := i64At bs 0 + i64At bs 8 * 2 ^ 32 + i64At bs 16 * 2 ^ 64
    fput .f32 .rne false (fofInt v (binE bs - 95))

/-! ### Atomics (10:R205) -/

/-- Codes of the atomics (16:R346). -/
def ratOp (n : Nat) : AtOp :=
  match n with
  | 0 => .add | 1 => .min | 2 => .max | 3 => .and | 4 => .or | 5 => .swp | 6 => .cas | _ => .fadd

def atCode : AtOp → Nat
  | .add => 0 | .min => 1 | .max => 2 | .and => 3 | .or => 4 | .swp => 5 | .cas => 6 | .fadd => 7

/-- The new memory value of a scalar atomic, and its flags. -/
def atomNew (op : AtOp) (old v cmp : W64) : W64 × W8 :=
  match op with
  | .add => (old + v, 0)
  | .min => (if v.slt old then v else old, 0)
  | .max => (if old.slt v then v else old, 0)
  | .and => (old &&& v, 0)
  | .or => (old ||| v, 0)
  | .swp => (v, 0)
  | .cas => (if old = cmp then v else old, 0)
  | .fadd =>
    let r := fadd .f32 .rne false (fdec .f32 (old.setWidth 32)) (fdec .f32 (v.setWidth 32))
    (r.v.setWidth 64, r.f)

/-! ### Results filled in -/

/-- Change the result with a serial number, wherever it is held. -/
def fillPends (l : List Pend) (n : Nat) (f : Pend → Pend) : List Pend := l.map (fun p => if p.serial = n then f p else p)

def fillPend (s : State) (c : CoreRef) (n : Nat) (f : Pend → Pend) : State :=
  s.upd c (fun k => { k with
    main := { k.main with pends := fillPends k.main.pends n f }
    urg := { k.urg with pends := fillPends k.urg.pends n f }
    tp := { k.tp with shadow := fillPends k.tp.shadow n f } })

/-- A value arrives for a result: one access fewer to wait for, and it exists `ret` cycles on. -/
def arrive (p : Pend) (ex : Nat) : Pend := { p with wait := p.wait - 1, exist := max p.exist ex }

/-- The first poisoned granule is kept. -/
def notePoison (p : Pend) (a : Option W64) : Pend := { p with poison := match p.poison with | some x => some x | none => a }

/-! ### Accesses at their bank cycle (10:R191, R200 to R211) -/

/-- Address of a poisoned granule for TINFO: in lateral form for a C1 access. -/
def poisonAddr (x : Access) (t : CoreRef) (l : List Nat) (m : Near) : Option W64 :=
  match l.find? (fun g => m.poison.contains g) with
  | none => none
  | some g => some (if x.src = t then BitVec.ofNat 64 (16 * g) else lateralForm t (16 * g))

/-- A loaded value in its register form (10:R200). -/
def loadVal (f : LoadFmt) (bs : List W8) : Val :=
  let lanes (o n : Nat) : Lanes := (List.range n).map (fun i => leW32 (byteSlice bs (o + 4 * i) 4))
  match f with
  | .zext => .w (leW64 bs)
  | .lanes => .v (lanes 0 128)
  | .bcast => .v ((List.replicate 8 (lanes 0 16)).flatten)
  | .pair => .p (lanes 0 128) (lanes 512 128)

/-- Store bytes into near memory: whole granules clear poison, and a part of a poisoned granule is not committed
(10:R210, R211). -/
def nearStore (s : State) (c : CoreRef) (a : Nat) (bs : List W8) : State :=
  (unitParts 16 a bs).foldl (fun s p =>
    if p.2.length = 16 then engWrite s c p.1 p.2
    else
      let s1 := nearMeet s c (p.1 / 16)
      if (s1.core c).near.poison.contains (p.1 / 16) then s1 else engWrite s1 c p.1 p.2) s

/-- One cycle of a scatter: lane words by address, the higher lane last. A granule whose four words are all written is
written whole. -/
def scatterStore (s : State) (c : CoreRef) (items : List (Nat × W32)) : State :=
  (items.map (fun i => i.1 / 16)).eraseDups.foldl (fun s g =>
    let here := items.filter (fun i => i.1 / 16 = g)
    let all := [0, 4, 8, 12].all (fun o => here.any (fun i => i.1 = 16 * g + o))
    let put (bs : List W8) : List W8 := here.foldl (fun b i =>
      b.take (i.1 % 16) ++ word32Bytes i.2 ++ b.drop (i.1 % 16 + 4)) bs
    if all then engWrite s c (16 * g) (put (List.replicate 16 0))
    else
      let s1 := nearMeet s c g
      if (s1.core c).near.poison.contains g then s1
      else here.foldl (fun s i => engWrite s c i.1 (word32Bytes i.2)) s1) s

/-- Lane words into a vector value. -/
def putLanes (v : Val) (l : List (Nat × W32)) : Val :=
  match v with
  | .v a => .v (l.foldl (fun a x => a.set x.1 x.2) (pad a))
  | v => v

/-- The words of a gather. -/
def gatherWords (s : State) (c : CoreRef) (items : List (Nat × Nat)) : List (Nat × W32) :=
  items.map (fun i => (i.1, leW32 (nearRead s c i.2 4)))

/-- The bytes that an access of one object touches. -/
def accBytes : AccOp → Nat
  | .load n _ => n
  | .desc n => n
  | .atom _ n _ _ => n
  | .cstv _ _ _ => 512
  | _ => 32

/-- The access writes near memory. -/
def accWrites : AccOp → Bool
  | .load _ _ => false
  | .gather _ => false
  | .binRead => false
  | .desc _ => false
  | _ => true

/-- A compare and swap of a vector block: the new block (10:R203). -/
def cstvNew (old d n : Lanes) (act : W128) : Lanes :=
  (laneIdx.map (fun L => if act.getLsbD L && lane old L = lane d L then lane n L else lane old L))

/-- The descriptor of an engine operation has been read. -/
def fillDesc (s : State) (c : CoreRef) (n : Nat) (bs : List W8) (bad : Bool) : State :=
  s.upd c (fun k => { k with eng := { k.eng with
    wins := k.eng.wins.map (fun w => { w with ops := w.ops.map (fun o =>
      if o.serial = n && !o.ready then { o with desc := bs, poisoned := bad, ready := true } else o) })
    txs := k.eng.txs.map (fun x => { x with ops := x.ops.map (fun o =>
      if o.serial = n && !o.ready then { o with desc := bs, poisoned := bad, ready := true } else o) }) } })

/-- An atomic access, which reserves its granules for several cycles (10:R203, R204, R207). -/
def isAtomic : AccOp → Bool
  | .atom _ _ _ _ => true
  | .cstv _ _ _ => true
  | .binAdd _ => true
  | _ => false

/-- An atomic reads at its first reserved cycle (10:R204). -/
def touchAcc (s : State) (t : CoreRef) (x : Access) : State :=
  let n := accBytes x.op
  let s1 := nearTouch s t x.addr n
  let got := (nearRead s1 t x.addr n, poisonAddr x t (granules 16 x.addr n) (s1.core t).near, (s.core t).clk.cyc)
  s1.upd t (fun k => { k with near := { k.near with accs := k.near.accs.map (fun y => if y = x then { y with seen := some got } else y) } })

/-- An access takes effect in the near memory of core t: an atomic writes, at its last reserved cycle, what follows from the bytes
it read at its first. The value of a CSTV exists a number of real cycles after its first touch (04:R83). -/
def performAcc (s0 : State) (t : CoreRef) (x : Access) : State :=
  let ex := (s0.core t).clk.cyc + x.ret
  match x.op with
  | .store bs => nearStore s0 t x.addr bs
  | .scatter items => scatterStore s0 t items
  | .binInit e => nearStore s0 t x.addr (binFresh e)
  | .desc n =>
    let s := nearTouch s0 t x.addr n
    let size := nearSize t
    fillDesc (if size < x.addr + n then { s with oracle := s.oracle + 1 } else s) x.src x.serial
      ((nearRead s t x.addr n).zipIdx.map (fun b => if size ≤ x.addr + b.2 then Config.freeByte s.oracle b.2 else b.1))
      ((s.core t).near.poisoned x.addr n)
  | .gather items =>
    let gs := (items.map (fun i => i.2 / 16)).eraseDups
    let s := gs.foldl (fun s g => nearMeet s t g) s0
    let pa := poisonAddr x t gs (s.core t).near
    let ws := gatherWords s t items
    fillPend s x.src x.serial (fun p => notePoison { arrive p ex with val := putLanes p.val ws } pa)
  | .load n f =>
    let s := nearTouch s0 t x.addr n
    let pa := poisonAddr x t (granules 16 x.addr n) (s.core t).near
    let s1 := fillPend s x.src x.serial (fun p => notePoison { arrive p ex with val := loadVal f (nearRead s t x.addr n) } pa)
    if x.acq then acquireLines s1 x.src else s1
  | .binRead =>
    let s := nearTouch s0 t x.addr 32
    let pa := poisonAddr x t (granules 16 x.addr 32) (s.core t).near
    let r := binValue (nearRead s t x.addr 32)
    fillPend s x.src x.serial (fun p => notePoison (if pa.isSome then arrive p ex
      else { arrive p ex with val := .w (r.v.setWidth 64), flags := r.f }) pa)
  | op =>
    let n := accBytes op
    let s := s0
    match x.seen with
    | none => fillPend s x.src x.serial (fun p => arrive p ex)
    | some (_, some a, _) => fillPend s x.src x.serial (fun p => notePoison (arrive p ex) (some a))
    | some (bs, none, first) =>
      match op with
      | .atom o _ v cmp =>
        let old := leW64 bs
        let r := atomNew o old v cmp
        fillPend (nearStore s t x.addr (natBytes n r.1.toNat)) x.src x.serial (fun p => { arrive p ex with val := .w old, flags := r.2 })
      | .cstv d nv act =>
        let old := (List.range 128).map (fun i => leW32 (byteSlice bs (4 * i) 4))
        fillPend (nearStore s t x.addr ((cstvNew old d nv act).flatMap word32Bytes)) x.src x.serial
          (fun p => { arrive p (first + x.ret) with val := .v (maskLanes act old) })
      | .binAdd v => fillPend (nearStore s t x.addr (binPlus bs v)) x.src x.serial (fun p => arrive p ex)
      | _ => s

/-- An atomic of a near memory that is at its first reserved cycle and has not read. -/
def readsNow (k : Core) (x : Access) : Bool := isAtomic x.op && x.seen.isNone && decide (x.first ≤ k.clk.arch)

/-- The granules that the atomics among some accesses hold until the end of the present cycle (10:R204). -/
def heldNow (k : Core) (l : List Access) : List (Nat × Nat) :=
  (l.filter (fun x => isAtomic x.op)).flatMap (fun x => (granules 16 x.addr (accBytes x.op)).map (fun g => (g, k.clk.arch)))

/-- BANK_ACCESS (10:R191): the scheduled accesses of one near memory that are due. -/
def execBankAccess (s : State) : Host.Outcome State Fault Refusal :=
  let t := s.ev.core
  let s0 := ((s.core t).near.accs.filter (readsNow (s.core t))).foldl (fun s x => touchAcc s t x) s
  let k := s0.core t
  let now := k.near.accs.filter (fun x => x.due ≤ k.clk.arch)
  let s1 := s0.upd t (fun k => { k with near := { k.near with
    accs := k.near.accs.filter (fun x => !(x.due ≤ k.clk.arch))
    holds := k.near.holds.filter (fun h => k.clk.arch ≤ h.2) ++ heldNow k now } })
  .next (now.foldl (fun s x => performAcc s t x) s1)

/-- ECC_REWRITE (10:R210): the bank rewrites a granule that a read has corrected, ev.i, in its next free engine half-cycle. -/
def execEccRewrite (s : State) : Host.Outcome State Fault Refusal :=
  .next (s.upd s.ev.core (fun k =>
    let b : BitVec 64 := 1#64 <<< bankOf s.ev.i
    if k.near.fixes.contains s.ev.i ∧ k.near.used &&& b = 0 then
      { k with near := { k.near with
          cerr := k.near.cerr.filter (· ≠ s.ev.i), fixes := k.near.fixes.filter (· ≠ s.ev.i), used := k.near.used ||| b } }
    else k))

end Sys2Proof.Machine
end

