-- ==== Sys2Proof/Machine/CMem.lean ====
section
/-!
DEFINITION. The data instructions of the C slots (10:R198 to R209, 05:R109): scalar and vector loads and stores, gather and
scatter, atomics, Anise bins, address arithmetic, MOVA and FENCE; and a control core's accesses to system memory
(10:R212, 17:R357, R358).
-/

namespace Sys2Proof.Machine

/-! ### Register operands (03:R56, 10:R199) -/

/-- Data of a CM register. -/
def cmData (s : State) (f : BitVec 3) (r : Nat) : W64 :=
  if f = 0 then readS (cx s) r else if f = 3 then portA s else readA (cx s) (isC1 s) r

/-- Destination of a CM register. -/
def cmDst (s : State) (f : BitVec 3) (r : Nat) : Dst :=
  if f = 0 then (if r = 0 then .none else .s r)
  else if f = 3 then .k (headWReg s.cur.head)
  else if f = 4 then .a (isC1 s) r
  else .vec (f = 2) r (BitVec.allOnes 128)

/-- The latch line that its result enters (05:R97). -/
def cmLine (s : State) (f : BitVec 3) : Nat :=
  if f = 0 then 0 else if f = 1 then 1 else if f = 2 then 2 else s.cur.slot

/-- The displacement of an off12 in units of n bytes. -/
def disp (o : BitVec 12) (n : Nat) : Int := o.toInt * n

/-! ### Near and lateral accesses -/

/-- Latencies of near accesses: profile 2, and profile 1 where it differs (04:R79, R81). A lateral access adds to those of
profile 2. -/
structure AccTime where
  lat : Nat
  lat1 : Nat
  /-- first and last reserved bank cycle -/
  first : Nat
  last : Nat

def loadTime : AccTime := ⟨6, 4, 2, 2⟩
def atomTime : AccTime := ⟨7, 7, 2, 4⟩
def gatherTime : AccTime := ⟨8, 6, 2, 2⟩
def cstvTime : AccTime := ⟨9, 7, 2, 4⟩

/-- Cycles from issue to the result at a target. -/
def resultLat (s : State) (t : CoreRef) (x : AccTime) : Nat :=
  if isC1 s then x.lat + resultExtra s t else if (me s).profile = 1 then x.lat1 else x.lat

/-- Claims of every cycle from the first to the last reserved one, on n bytes. -/
def rangeClaims (x : AccTime) (ext off n : Nat) : List (Nat × List (Nat × Nat)) :=
  (List.range (x.last + 1 - x.first)).map (fun i => (x.first + ext + i, granAddrs off n))

/-- Add accesses to the list of a near memory. -/
def addAccs (s : State) (t : CoreRef) (l : List Access) : State :=
  s.upd t (fun k => { k with near := { k.near with accs := k.near.accs ++ l } })

/-- An access of the issuing core, d cycles after issue at the target, whose value exists `ret` cycles later. -/
def newAcc (s : State) (t : CoreRef) (op : AccOp) (off first last ret : Nat) : Access :=
  { serial := s.serial, src := s.cur.core, op := op, addr := off
    first := (s.core t).clk.arch + first, due := (s.core t).clk.arch + last, ret := ret }

/-- An address that is formed, in reach and aligned, or the failure: 0x06 before 0x07 (10:R198). -/
def withTarget (s : State) (base : BitVec 4) (d : Int) (align : Nat) (f : Target → State) : State :=
  match formAddr s base d with
  | .inl v => issueFail s 0x06 v
  | .inr t => if t.off % align ≠ 0 then issueFail s 0x07 t.addr else f t

/-- The link slots of an access with a result at r, or without one. -/
def slotsOf (s : State) (t : CoreRef) (r : Option Nat) : List (Nat × Nat) :=
  if isC1 s then linkSlots s.cur.core.num t.num r else []

/-- An access of n bytes with a result. -/
def nearResult (s : State) (base : BitVec 4) (d : Int) (n : Nat) (x : AccTime) (op : AccOp) (p : Pend → Pend) : State :=
  withTarget s base d n (fun t =>
    let e := bankExtra s t.core
    let r := resultLat s t.core x
    withClaims s t.core (rangeClaims x e t.off n) (slotsOf s t.core (some r)) (fun s =>
      withRoom s (fun s =>
        let s1 := addAccs s t.core [newAcc s t.core op t.off (x.first + e) (x.last + e) (r - (x.last + e))]
        emit s1 (p { newPend s r with wait := 1 }))))

/-- An access of n bytes without a return packet that leaves a check at the cycle of a result (10:R196, R211). -/
def nearCheck (s : State) (base : BitVec 4) (d : Int) (n : Nat) (x : AccTime) (op : AccOp) : State :=
  withTarget s base d n (fun t =>
    let e := bankExtra s t.core
    let r := resultLat s t.core x
    withClaims s t.core (rangeClaims x e t.off n) (slotsOf s t.core none) (fun s =>
      withRoom s (fun s =>
        emit (addAccs s t.core [newAcc s t.core op t.off (x.first + e) (x.last + e) (r - (x.last + e))]) { newPend s r with wait := 1 })))

/-- The native value of a profile 1 load exists as many cycles after its bank touch as under profile 2 (04:R83). -/
def nativeRet (s : State) (x : AccTime) (t : CoreRef) (r : Nat) : Nat :=
  if isC1 s then r - (x.last + bankExtra s t) else x.lat - x.last

/-- A load of n bytes; `acq` for an acquire. -/
def nearLoad (s : State) (base : BitVec 4) (d : Int) (n : Nat) (x : AccTime) (op : AccOp) (p : Pend → Pend) (acq : Bool := false) : State :=
  withTarget s base d n (fun t =>
    let e := bankExtra s t.core
    let r := resultLat s t.core x
    withClaims s t.core (rangeClaims x e t.off n) (slotsOf s t.core (some r)) (fun s =>
      withRoom s (fun s =>
        let s1 := addAccs s t.core [{ newAcc s t.core op t.off (x.first + e) (x.last + e) (nativeRet s x t.core r) with acq := acq }]
        emit s1 (p { newPend s r with wait := 1 }))))

/-- A store of n bytes, which has no result. -/
def nearPut (s : State) (base : BitVec 4) (d : Int) (n : Nat) (op : AccOp) : State :=
  withTarget s base d n (fun t =>
    let e := bankExtra s t.core
    withClaims s t.core (rangeClaims loadTime e t.off n) (slotsOf s t.core none) (fun s =>
      let s1 := addAccs s t.core [newAcc s t.core op t.off (2 + e) (2 + e) 0]
      { s1 with serial := s1.serial + 1 }))

/-! ### A control core's system memory (10:R212) -/

/-- The access is a control core's C1 access. -/
def isSys (s : State) : Bool := isCC s && isC1 s

/-- The virtual address that a C1 access forms. -/
def sysAddr (s : State) (base : BitVec 4) (d : Int) : W64 := readA (cx s) true base.toNat + BitVec.ofInt 64 d

/-- A translated access joins the list of those to be performed. -/
def addC1 (s : State) (kind : C1Kind) (va pa e : Nat) (rel acq : Bool) : State :=
  updMe s (fun k => { k with ctl := { k.ctl with
    c1 := k.ctl.c1 ++ [{ k := s.serial, serial := s.serial, kind := kind, va := va, pa := pa, pk := leafKind e, rel := rel, acq := acq }] } })

/-- A C1 access, its translation known: bits 63:48, a missing mapping or permission are cause 0x06, precisely. `L` is the
latency of a result or poison check that it leaves, none for a store. -/
def sysAccess (s : State) (base : BitVec 4) (d : Int) (n : Nat) (rw : Bool × Bool) (kind : C1Kind) (ra : Bool × Bool)
    (res : Option Nat) (p : Pend → Pend) : State :=
  let v := sysAddr s base d
  if 2 ^ 48 ≤ v.toNat then issueFail s 0x06 v
  else match xlate s s.cur.core 20 v.toNat rw.1 rw.2 with
    | (.fault _, s1) => issueFail s1 0x06 v
    | (.ok pa e, s1) =>
      if v.toNat % n ≠ 0 then issueFail s1 0x07 v
      else match res with
      | none => let s2 := addC1 s1 kind v.toNat pa e ra.1 ra.2; { s2 with serial := s2.serial + 1 }
      | some L => withRoom s1 (fun s => emit (addC1 s kind v.toNat pa e ra.1 ra.2) (p { newPend s L with wait := 1, late := true }))

/-! ### Scalar and vector loads and stores (10:R200, R209) -/

/-- How a register result goes to its place. -/
def intoReg (s : State) (f : BitVec 3) (r : Nat) (p : Pend) : Pend :=
  { p with dst := cmDst s f r, latch := some (cmLine s f) }

/-- A scalar load of n bytes; `acq` for LDACQ, an acquire on a control core (10:R209, R212). -/
def scalarLoad (s : State) (f : BitVec 3) (r : BitVec 5) (b : BitVec 4) (o : BitVec 12) (n : Nat) (acq : Bool) : State :=
  if isSys s then sysAccess s b (disp o n) n (true, false) (.load n) (false, acq) (some 6) (intoReg s f r.toNat)
  else nearLoad s b (disp o n) n loadTime (.load n .zext) (intoReg s f r.toNat) (acq && isCC s)

/-- A scalar store of n bytes; `rel` for STREL on a control core's C1. One through its C0 waits before issue (Issue.lean). -/
def scalarStore (s : State) (f : BitVec 3) (r : BitVec 5) (b : BitVec 4) (o : BitVec 12) (n : Nat) (rel : Bool) : State :=
  let bs := natBytes n (cmData s f r.toNat).toNat
  if isSys s then sysAccess s b (disp o n) n (false, true) (.store bs) (rel, false) none id
  else nearPut s b (disp o n) n (.store bs)

def execLdb (f : BitVec 3) (r : BitVec 5) (b : BitVec 4) (o : BitVec 12) (s : State) : Host.Outcome State Fault Refusal :=
  .next (scalarLoad s f r b o 1 false)

def execLdh (f : BitVec 3) (r : BitVec 5) (b : BitVec 4) (o : BitVec 12) (s : State) : Host.Outcome State Fault Refusal :=
  .next (scalarLoad s f r b o 2 false)

def execLdw (f : BitVec 3) (r : BitVec 5) (b : BitVec 4) (o : BitVec 12) (s : State) : Host.Outcome State Fault Refusal :=
  .next (scalarLoad s f r b o 4 false)

def execLdd (f : BitVec 3) (r : BitVec 5) (b : BitVec 4) (o : BitVec 12) (s : State) : Host.Outcome State Fault Refusal :=
  .next (scalarLoad s f r b o 8 false)

def execStb (f : BitVec 3) (r : BitVec 5) (b : BitVec 4) (o : BitVec 12) (s : State) : Host.Outcome State Fault Refusal :=
  .next (scalarStore s f r b o 1 false)

def execSth (f : BitVec 3) (r : BitVec 5) (b : BitVec 4) (o : BitVec 12) (s : State) : Host.Outcome State Fault Refusal :=
  .next (scalarStore s f r b o 2 false)

def execStw (f : BitVec 3) (r : BitVec 5) (b : BitVec 4) (o : BitVec 12) (s : State) : Host.Outcome State Fault Refusal :=
  .next (scalarStore s f r b o 4 false)

def execStd (f : BitVec 3) (r : BitVec 5) (b : BitVec 4) (o : BitVec 12) (s : State) : Host.Outcome State Fault Refusal :=
  .next (scalarStore s f r b o 8 false)

/-- STREL and LDACQ: STD and LDD on a vector-matrix core, a release store and an acquire load on a control core's C1. -/
def execStrel (f : BitVec 3) (r : BitVec 5) (b : BitVec 4) (o : BitVec 12) (s : State) : Host.Outcome State Fault Refusal :=
  .next (scalarStore s f r b o 8 true)

def execLdacq (f : BitVec 3) (r : BitVec 5) (b : BitVec 4) (o : BitVec 12) (s : State) : Host.Outcome State Fault Refusal :=
  .next (scalarLoad s f r b o 8 true)

def execLdv (f : BitVec 3) (r : BitVec 5) (b : BitVec 4) (o : BitVec 12) (s : State) : Host.Outcome State Fault Refusal :=
  .next (nearLoad s b (disp o 512) 512 loadTime (.load 512 .lanes) (intoReg s f r.toNat))

def execLdvb (f : BitVec 3) (r : BitVec 5) (b : BitVec 4) (o : BitVec 12) (s : State) : Host.Outcome State Fault Refusal :=
  .next (nearLoad s b (disp o 64) 64 loadTime (.load 64 .bcast) (intoReg s f r.toNat))

/-- The 512 bytes of a vector register. -/
def lanesBytes (l : Lanes) : List W8 := l.flatMap word32Bytes

def execStv (f : BitVec 3) (r : BitVec 5) (b : BitVec 4) (o : BitVec 12) (s : State) : Host.Outcome State Fault Refusal :=
  .next (nearPut s b (disp o 512) 512 (.store (lanesBytes (readV (cx s) (f = 2) r.toNat))))

/-- A pair load writes both registers together (05:R95). -/
def execLdp (f : BitVec 3) (r : BitVec 4) (b : BitVec 4) (o : BitVec 12) (s : State) : Host.Outcome State Fault Refusal :=
  .next (nearLoad s b (disp o 1024) 1024 loadTime (.load 1024 .pair) (fun p =>
    { p with dst := .pair (f = 2) (2 * r.toNat) (BitVec.allOnes 128), latch := some (cmLine s f) }))

def execStp (f : BitVec 3) (r : BitVec 4) (b : BitVec 4) (o : BitVec 12) (s : State) : Host.Outcome State Fault Refusal :=
  .next (nearPut s b (disp o 1024) 1024 (.store (lanesBytes (readV (cx s) (f = 2) (2 * r.toNat))
    ++ lanesBytes (readV (cx s) (f = 2) (2 * r.toNat + 1)))))

/-! ### Address registers (10:R201, 05:R109) -/

/-- ADDA adds the lend word, sign-extended, to an address register of its slot. -/
def execAdda (r : BitVec 4) (b : BitVec 4) (s : State) : Host.Outcome State Fault Refusal :=
  .next (withRoom s (fun s => emit s { newPend s 1 with
    dst := .a (isC1 s) r.toNat, val := .w (readA (cx s) (isC1 s) b.toNat + s.cur.lend.signExtend 64), latch := some s.cur.slot }))

/-- MOVA: x = 0 copies from the address register, x = 1 to it. -/
def execMova (f : BitVec 3) (r : BitVec 5) (b : BitVec 4) (x : BitVec 1) (s : State) : Host.Outcome State Fault Refusal :=
  .next (withRoom s (fun s =>
    if x = 0 then emit s { newPend s 1 with
      dst := cmDst s f r.toNat, val := .w (readA (cx s) (isC1 s) b.toNat), latch := some (cmLine s f) }
    else emit s { newPend s 1 with
      dst := .a (isC1 s) b.toNat, val := .w (cmData s f r.toNat), latch := some s.cur.slot }))

/-! ### Gather and scatter (10:R202) -/

/-- The lanes that take part: (lane, index). -/
def laneIndices (s : State) (y : Bool) (vi : Nat) : List (Nat × W32) :=
  let act := activeLanes (cx s) y
  (laneIdx.zip (readV (cx s) y vi)).filter (fun p => act.getLsbD p.1)

/-- Lane addresses, or the first that is out of range. -/
def laneAddrs (s : State) (t : Target) : List (Nat × W32) → Sum W64 (List (Nat × Nat))
  | [] => .inr []
  | p :: r =>
    let a := t.off + 4 * p.2.toNat
    if nearSize t.core ≤ a then .inl (t.addr + BitVec.ofNat 64 (4 * p.2.toNat))
    else match laneAddrs s t r with
      | .inl v => .inl v
      | .inr l => .inr ((p.1, a) :: l)

/-- The address of the first lane whose bank another lane's granule holds in the same cycle. -/
def laneClash : List (Nat × Nat) → List (Nat × Nat) → Option Nat
  | _, [] => none
  | seen, x :: r =>
    let g := x.2 / 16
    if seen.any (fun y => bankOf (y.2 / 16) = bankOf g && y.2 / 16 ≠ g) then some x.2 else laneClash (seen ++ [x]) r

/-- The lanes that touch their banks in cycle 2 + j. -/
def laneGroup (l : List (Nat × Nat)) (j : Nat) : List (Nat × Nat) := l.filter (fun x => x.1 / 32 = j)

/-- The clash of two lanes of one instruction, in any of its four cycles. -/
def groupClash (l : List (Nat × Nat)) : Option Nat := ((List.range 4).filterMap (fun j => laneClash [] (laneGroup l j))).head?

/-- Claims of a gather or scatter. -/
def laneClaims (l : List (Nat × Nat)) (e : Nat) : List (Nat × List (Nat × Nat)) :=
  (List.range 4).map (fun j => (2 + e + j, (laneGroup l j).map (fun x => (x.2 / 16, x.2))))

/-- Form the lane addresses of LDG or STG, check and claim them, and go on. -/
def withLanes (s : State) (y : Bool) (vi : Nat) (b : BitVec 4) (r : CoreRef → Option Nat)
    (f : State → Target → List (Nat × Nat) → State) : State :=
  match formAddr s b 0 with
  | .inl v => issueFail s 0x06 v
  | .inr t =>
    match laneAddrs s t (laneIndices s y vi) with
    | .inl v => issueFail s 0x06 v
    | .inr l =>
      if t.off % 4 ≠ 0 then issueFail s 0x07 t.addr
      else match groupClash l with
        | some a => issueFail s 0x02 (lateralForm t.core a)
        | none => withClaims s t.core (laneClaims l (bankExtra s t.core)) (slotsOf s t.core (r t.core)) (fun s => f s t l)

def execLdg (f : BitVec 1) (d i : BitVec 5) (b : BitVec 4) (s : State) : Host.Outcome State Fault Refusal :=
  let y : Bool := f = 1
  let act := activeLanes (cx s) y
  .next (withLanes s y i.toNat b (fun t => some (resultLat s t gatherTime)) (fun s t l =>
    withRoom s (fun s =>
      let e := bankExtra s t.core
      let r := resultLat s t.core gatherTime
      let ret := if isC1 s then r - (2 + e) else 6
      let accs := (List.range 4).map (fun j =>
        newAcc s t.core (.gather (laneGroup l j)) t.off (2 + e + j) (2 + e + j) (if j = 0 then ret else 0))
      emit (addAccs s t.core accs) { newPend s r with
        wait := 4, dst := .vec y d.toNat act, val := .v (List.replicate 128 0), latch := some (if y then 2 else 1) })))

def execStg (f : BitVec 1) (d i : BitVec 5) (b : BitVec 4) (s : State) : Host.Outcome State Fault Refusal :=
  let y : Bool := f = 1
  let data := readV (cx s) y d.toNat
  .next (withLanes s y i.toNat b (fun _ => none) (fun s t l =>
    let e := bankExtra s t.core
    let accs := (List.range 4).map (fun j =>
      newAcc s t.core (.scatter ((laneGroup l j).map (fun x => (x.2, lane data x.1)))) t.off (2 + e + j) (2 + e + j) 0)
    let s1 := addAccs s t.core accs
    { s1 with serial := s1.serial + 1 }))

/-- CSTV (10:R203). -/
def execCstv (f : BitVec 1) (d v : BitVec 5) (b : BitVec 4) (o : BitVec 9) (s : State) : Host.Outcome State Fault Refusal :=
  let y : Bool := f = 1
  let act := activeLanes (cx s) y
  .next (withTarget s b (o.toInt * 512) 512 (fun t =>
    let e := bankExtra s t.core
    let r := resultLat s t.core cstvTime
    withClaims s t.core (rangeClaims cstvTime e t.off 512) (slotsOf s t.core (some r)) (fun s =>
      withRoom s (fun s =>
        let ret := if isC1 s then r - (2 + e) else 7
        let op := AccOp.cstv (readV (cx s) y d.toNat) (readV (cx s) y v.toNat) act
        emit (addAccs s t.core [newAcc s t.core op t.off (2 + e) (4 + e) ret]) { newPend s r with
          wait := 1, dst := .vec y d.toNat act, val := .v (List.replicate 128 0), latch := some (if y then 2 else 1) }))))

/-! ### Atomics (10:R204 to R206) -/

def scalarAtom (s : State) (op : AtOp) (f : BitVec 3) (r : BitVec 5) (b : BitVec 4) (o : BitVec 12) (n : Nat) : State :=
  let v := cmData s f r.toNat
  if isSys s then sysAccess s b (disp o n) n (true, true) (.atom op n v 0) (false, false) (some 7) (intoReg s f r.toNat)
  else nearResult s b (disp o n) n atomTime (.atom op n v 0) (intoReg s f r.toNat)

def execAtadd (f : BitVec 3) (r : BitVec 5) (b : BitVec 4) (o : BitVec 12) (s : State) : Host.Outcome State Fault Refusal :=
  .next (scalarAtom s .add f r b o 8)

def execAtmin (f : BitVec 3) (r : BitVec 5) (b : BitVec 4) (o : BitVec 12) (s : State) : Host.Outcome State Fault Refusal :=
  .next (scalarAtom s .min f r b o 8)

def execAtmax (f : BitVec 3) (r : BitVec 5) (b : BitVec 4) (o : BitVec 12) (s : State) : Host.Outcome State Fault Refusal :=
  .next (scalarAtom s .max f r b o 8)

def execAtand (f : BitVec 3) (r : BitVec 5) (b : BitVec 4) (o : BitVec 12) (s : State) : Host.Outcome State Fault Refusal :=
  .next (scalarAtom s .and f r b o 8)

def execAtor (f : BitVec 3) (r : BitVec 5) (b : BitVec 4) (o : BitVec 12) (s : State) : Host.Outcome State Fault Refusal :=
  .next (scalarAtom s .or f r b o 8)

def execAtswp (f : BitVec 3) (r : BitVec 5) (b : BitVec 4) (o : BitVec 12) (s : State) : Host.Outcome State Fault Refusal :=
  .next (scalarAtom s .swp f r b o 8)

def execAtfadd (f : BitVec 3) (r : BitVec 5) (b : BitVec 4) (o : BitVec 12) (s : State) : Host.Outcome State Fault Refusal :=
  .next (scalarAtom s .fadd f r b o 4)

/-- Where the old value of an ATCAS goes: s[sd] and the S line, or k[WREG] and the line of its own slot under the write port
(03:R61). -/
def casDst (s : State) (d : Nat) (p : Pend) : Pend :=
  if ownsW s.cur.head s.cur.slot then { p with dst := .k (headWReg s.cur.head), latch := some s.cur.slot } else intoReg s 0 d p

/-- ATCAS compares with s[sd] and stores s[sw]. -/
def execAtcas (d w : BitVec 5) (b : BitVec 4) (o : BitVec 10) (s : State) : Host.Outcome State Fault Refusal :=
  let v := readS (cx s) w.toNat
  let cmp := readS (cx s) d.toNat
  .next (if isSys s then
      sysAccess s b (o.toInt * 8) 8 (true, true) (.atom .cas 8 v cmp) (false, false) (some 7) (casDst s d.toNat)
    else nearResult s b (o.toInt * 8) 8 atomTime (.atom .cas 8 v cmp) (casDst s d.toNat))

/-! ### Anise bins (10:R207) -/

def execBininit (f : BitVec 3) (r : BitVec 5) (b : BitVec 4) (o : BitVec 12) (s : State) : Host.Outcome State Fault Refusal :=
  let e : W8 := (cmData s f r.toNat).setWidth 8
  .next (if isSys s then sysAccess s b (disp o 32) 32 (false, true) (.binInit e) (false, false) none id
    else nearPut s b (disp o 32) 32 (.binInit e))

/-- ATBADD has no result, but leaves the check of its poison (10:R211). -/
def execAtbadd (f : BitVec 3) (r : BitVec 5) (b : BitVec 4) (o : BitVec 12) (s : State) : Host.Outcome State Fault Refusal :=
  let v : W32 := (cmData s f r.toNat).setWidth 32
  .next (if isSys s then sysAccess s b (disp o 32) 32 (true, true) (.binAdd v) (false, false) (some 7) id
    else nearCheck s b (disp o 32) 32 atomTime (.binAdd v))

def execBinrd (f : BitVec 3) (r : BitVec 5) (b : BitVec 4) (o : BitVec 12) (s : State) : Host.Outcome State Fault Refusal :=
  .next (if isSys s then
      sysAccess s b (disp o 32) 32 (true, false) .binRead (false, false) (some 6) (intoReg s f r.toNat)
    else nearLoad s b (disp o 32) 32 loadTime .binRead (intoReg s f r.toNat))

/-! ### FENCE (10:R208, R212, 17:R358) -/

/-- Kinds: 0 acquire, 1 release, 2 full. On a vector-matrix core a fence has no further effect; on a control core issue stalls until
it holds. -/
def execFence (c : BitVec 3) (k : BitVec 2) (s : State) : Host.Outcome State Fault Refusal :=
  .next (if isCC s then
      updCx s (fun x => { x with stall := some { kind := .fence, a := c.setWidth 64, b := k.setWidth 64, since := s.now } })
    else s)

/-- Every earlier access of a control core is performed: nothing in its C1 list, and no access of its own to its data
memory (10:R212, 17:R358). -/
def coreDrained (k : Core) (c : CoreRef) : Bool := k.ctl.c1 = [] && k.near.accs.all (fun x => x.src ≠ c)

/-- The access returns a value or a check of its poison. -/
def c1Reads : C1Kind → Bool
  | .store _ => false
  | .binInit _ => false
  | _ => true

/-- The access reads near memory. -/
def accReads : AccOp → Bool
  | .store _ => false
  | .scatter _ => false
  | .binInit _ => false
  | _ => true

/-- Every earlier read of a control core has its value fixed (17:R358). -/
def readsDone (k : Core) (c : CoreRef) : Bool :=
  k.ctl.c1.all (fun x => !c1Reads x.kind) && k.near.accs.all (fun x => x.src ≠ c || !accReads x.op)

/-- FENCE_DONE (17:R355, R358): a release waits for every earlier access, at core scope for the reads alone, since the core's own
later accesses return its writes from their issue; an acquire invalidates the small cache, and at chip scope or wider the instruction
cache (18:R364). -/
def execFenceDone (s : State) : Host.Outcome State Fault Refusal :=
  let c := s.ev.core
  let k := s.core c
  .next (match k.ctx.stall with
    | some st =>
      if st.kind ≠ .fence ∨ (st.b ≠ 0 ∧ !(if st.a = 0 then readsDone k c else coreDrained k c)) then s
      else s.upd c (fun k =>
        let k := k.updCtx (fun x => { x with stall := none, next := max x.next k.clk.arch })
        if st.b = 1 then k
        else if 2 ≤ st.a.toNat then { k with ctl := { k.ctl with lines := [], icache := [], badLines := [] } }
        else { k with ctl := { k.ctl with lines := [] } })
    | none => s)

/-! ### C1 accesses performed (10:R212, 17:R351, R357) -/

/-- Two accesses touch one unit. -/
def sameUnit (x y : C1Acc) : Bool := x.pa / 64 = y.pa / 64

/-- Access i of the list may be performed next: earlier accesses to its unit and earlier acquires, those through C0 among them, come
first, and a release waits for everything earlier. -/
def c1Ready (k : Core) (c : CoreRef) (i : Nat) : Bool :=
  match k.ctl.c1[i]? with
  | none => false
  | some x =>
    let before := k.ctl.c1.take i
    before.all (fun y => !y.acq && !sameUnit x y) && k.near.accs.all (fun a => !(a.acq && decide (a.serial < x.serial))) &&
      (!x.rel || (before = [] && k.near.accs.all (fun a => a.src ≠ c || x.serial < a.serial)))

/-- The bytes that a plain read returns: from a cached line, or from memory, with or without keeping the line. -/
def cachedRead (s : State) (c : CoreRef) (x : C1Acc) (n : Nat) : List W8 × State :=
  if x.pk = 2 ∨ x.acq then (sysRead s x.pa n, s)
  else
    let base := x.pa / 64 * 64
    let d := draw s 3
    match (s.core c).ctl.lines.find? (fun l => l.pa = base), d.1 with
    | some l, 0 => (byteSlice l.bytes (x.pa - base) n, d.2)
    | _, 2 => (sysRead s x.pa n, d.2.upd c (fun k => { k with ctl := { k.ctl with lines := k.ctl.lines.filter (fun l => l.pa ≠ base) } }))
    | _, _ => (sysRead s x.pa n, d.2.upd c (fun k => { k with ctl := { k.ctl with
        lines := k.ctl.lines.filter (fun l => l.pa ≠ base) ++ [{ pa := base, bytes := sysRead s base 64 }] } }))

/-- A line of the small cache that holds the unit is replaced by its present contents (17:R350, R351). -/
def freshLine (s : State) (c : CoreRef) (pa : Nat) : State :=
  let base := pa / 64 * 64
  s.upd c (fun k => { k with ctl := { k.ctl with lines := k.ctl.lines.map (fun l =>
    if l.pa = base then { l with bytes := sysRead s base 64 } else l) } })

/-- A store of a control core is performed: a line that holds the unit takes its new contents, and a part of a poisoned granule is
reported (10:R212). -/
def c1Store (s : State) (c : CoreRef) (x : C1Acc) (bs : List W8) : State :=
  let w := sysWriteUnit s x.pa bs
  if w.1 then freshLine w.2 c x.pa
  else postCore w.2 c 9 1 0 0 0 x.va

/-- The poison check of a C1 access that reads: the granule's virtual address. -/
def c1Poison (s : State) (x : C1Acc) : Option W64 :=
  if s.syspoison.contains (x.pa / 64) then some (BitVec.ofNat 64 (x.va / 64 * 64)) else none

/-- A C1 access is performed. -/
def c1Perform (s0 : State) (c : CoreRef) (x : C1Acc) : State :=
  let ex := (s0.core c).clk.cyc
  let s := sysMeet s0 (x.pa / 64)
  let rmw (n : Nat) (new : List W8 → List W8) (f : List W8 → Pend → Pend) : State :=
    let old := sysRead s x.pa n
    match c1Poison s x with
    | some a => fillPend (freshLine s c x.pa) c x.serial (fun p => notePoison (arrive p ex) (some a))
    | none => fillPend (c1Store s c x (new old)) c x.serial (fun p => f old (arrive p ex))
  match x.kind with
  | .store bs => c1Store s0 c x bs
  | .binInit e => c1Store s0 c x (binFresh e)
  | .load n =>
    let r := cachedRead s c x n
    let s1 := fillPend r.2 c x.serial (fun p => notePoison { arrive p ex with val := .w (leW64 r.1) } (c1Poison s x))
    if x.acq then acquireLines s1 c else s1
  | .binRead =>
    let r := binValue (sysRead s x.pa 32)
    fillPend (freshLine s c x.pa) c x.serial (fun p => notePoison { arrive p ex with val := .w (r.v.setWidth 64), flags := r.f } (c1Poison s x))
  | .atom op n v cmp =>
    rmw n (fun old => natBytes n (atomNew op (leW64 old) v cmp).1.toNat)
      (fun old p => { p with val := .w (leW64 old), flags := (atomNew op (leW64 old) v cmp).2 })
  | .binAdd v => rmw 32 (fun old => binPlus old v) (fun _ p => p)

/-- What a C1 access to memory of another chip asks of it: a plain read and a bin read take the whole unit. -/
def c1Ask (s : State) (c : CoreRef) (x : C1Acc) : Flit :=
  let m := memAsk s c c1Ctx x.serial
  match x.kind with
  | .load _ => { m 0 (x.pa / 64 * 64) with cnt := 64 }
  | .binRead => { m 0 (x.pa / 64 * 64) with cnt := 64 }
  | .store bs => { m 1 x.pa with bytes := bs }
  | .binInit e => { m 1 x.pa with bytes := binFresh e }
  | .atom op n v cmp => { m 2 x.pa with a := v, b := cmp, cnt := n, mode := atCode op }
  | .binAdd v => { m 3 x.pa with a := v.setWidth 64 }

/-- The line of the small cache at a physical address. -/
def lineAt (s : State) (c : CoreRef) (base : Nat) : Option CLine := (s.core c).ctl.lines.find? (fun l => l.pa = base)

/-- Forget a line, or keep it with new contents. -/
def keepLine (s : State) (c : CoreRef) (base : Nat) (bs : Option (List W8)) : State :=
  s.upd c (fun k => { k with ctl := { k.ctl with
    lines := k.ctl.lines.filter (fun l => l.pa ≠ base) ++ (match bs with | some b => [{ pa := base, bytes := b }] | none => []) } })

/-- A C1 access to memory of another chip begins: a plain read may take a line that the small cache holds; else its request leaves,
once a port has a path. -/
def c1Begin (s : State) (c : CoreRef) (i : Nat) (x : C1Acc) : State :=
  let send (s : State) : State := match sendOut s (c1Ask s c x) with
    | some s1 => s1.upd c (fun k => { k with ctl := { k.ctl with c1 := k.ctl.c1.set i { x with sent := true } } })
    | none => s
  match x.kind, lineAt s c (x.pa / 64 * 64) with
  | .load n, some l =>
    if x.pk = 2 ∨ x.acq then send s
    else
      let d := draw s 2
      if d.1 = 0 then
        fillPend (d.2.upd c (fun k => { k with ctl := { k.ctl with c1 := k.ctl.c1.eraseIdx i } })) c x.serial (fun p =>
          { arrive p (s.core c).clk.cyc with val := .w (leW64 (byteSlice l.bytes (x.pa % 64) n)) })
      else send d.2
  | _, _ => send s

/-- The answer to a C1 access: what was read or replaced, its poison, or that a part of a poisoned granule was not written
(10:R212). -/
def c1Answer (s : State) (c : CoreRef) (x : C1Acc) (f : Flit) : State :=
  let ex := (s.core c).clk.cyc
  let base := x.pa / 64 * 64
  let bad : Option W64 := if f.stat = 1 ∨ f.pois ≠ [] then some (BitVec.ofNat 64 (x.va / 64 * 64)) else none
  let fresh (s : State) : State := keepLine s c base none
  match x.kind with
  | .load n =>
    let d := draw s 2
    let s1 := keepLine d.2 c base (if d.1 = 0 ∧ x.pk ≠ 2 ∧ !x.acq then some f.bytes else none)
    let s2 := fillPend s1 c x.serial (fun p => notePoison { arrive p ex with val := .w (leW64 (byteSlice f.bytes (x.pa - base) n)) } bad)
    if x.acq then acquireLines s2 c else s2
  | .binRead =>
    let r := binValue (byteSlice f.bytes (x.pa - base) 32)
    fillPend (fresh s) c x.serial (fun p => notePoison { arrive p ex with val := .w (r.v.setWidth 64), flags := r.f } bad)
  | .atom op _ v cmp =>
    fillPend (fresh s) c x.serial (fun p => notePoison (if bad.isSome then arrive p ex
      else { arrive p ex with val := .w f.a, flags := (atomNew op f.a v cmp).2 }) bad)
  | .binAdd _ => fillPend (fresh s) c x.serial (fun p => notePoison (arrive p ex) bad)
  | _ => if f.stat = 1 then postCore (fresh s) c 9 1 0 0 0 x.va else fresh s

/-- Access ev.i of the control core's list is performed, where it is of the wanted sort. One that would post a record waits for
room (14:R286). -/
def c1Event (s : State) (reads : Bool) : State :=
  let c := s.ev.core
  let k := s.core c
  if c1Ready k c s.ev.i then
    match k.ctl.c1[s.ev.i]? with
    | none => s
    | some x =>
      if c1Reads x.kind ≠ reads ∨ x.sent then s
      else if isRemote x.pa then c1Begin s c s.ev.i x
      else if !evRoom s (partOf s c) 1 && sysPoisoned s x.pa 1 then evSetFull s (partOf s c)
      else c1Perform (s.upd c (fun k => { k with ctl := { k.ctl with c1 := k.ctl.c1.eraseIdx s.ev.i } })) c x
  else s

/-- C1_STORE_PERFORMED (10:R212): a store of the list is performed. -/
def execC1StorePerformed (s : State) : Host.Outcome State Fault Refusal := .next (c1Event s false)

/-- C1_LOAD_ARRIVAL (10:R212): a load, an atomic or a bin access of the list is performed, and its value arrives. -/
def execC1LoadArrival (s : State) : Host.Outcome State Fault Refusal := .next (c1Event s true)

end Sys2Proof.Machine
end

