-- ==== Sys2Proof/Machine/Landing.lean ====
section
/-!
DEFINITION. Results that fall due: what a landing result writes (04:R73, R74, 05:R97, R98, 03:R62), the result-time checks
before it (04:R85), the control effects of 19:R389, and the two rows RESULT_LANDING and SHADOW_DELIVERY.
-/

namespace Sys2Proof.Machine

/-- Insert one register of a vector file. -/
def setVec (x : Ctx) (y : Bool) (r : Nat) (l : Lanes) : Ctx :=
  if y then { x with y := x.y.set r l } else { x with x := x.x.set r l }

def getVec (x : Ctx) (y : Bool) (r : Nat) : Lanes := if y then x.y.getD r [] else x.x.getD r []

/-- A write of the active lanes of a vector register. -/
def writeLanes (x : Ctx) (y : Bool) (r : Nat) (act : W128) (l : Lanes) : Ctx :=
  setVec x y r (if act = BitVec.allOnes 128 then pad l else mergeLanes act (getVec x y r) l)

/-- The register write of a landing result. Writes to s0, g0, xh0 and yh0 are discarded (05:R91). -/
def writeDst (k : Core) (d : Dst) (v : Val) : Core :=
  match d with
  | .none => k
  | .s r => if r = 0 then k else k.updCtx (fun x => { x with s := x.s.set r (valWord v) })
  | .k r => { k with k := k.k.set r (valWord v) }
  | .a n r => k.updCtx (fun x => if n then { x with n := x.n.set r (valWord v) } else { x with m := x.m.set r (valWord v) })
  | .mp r => { k with mp := k.mp.set r (valWord v) }
  | .g r => if r = 0 then k else k.updCtx (fun x =>
      { x with g := if (valWord v).getLsbD 0 then x.g ||| BitVec.ofNat 8 (2 ^ r) else x.g &&& ~~~ BitVec.ofNat 8 (2 ^ r) })
  | .mask y r => if r = 0 then k else k.updCtx (fun x =>
      match v with
      | .m b => if y then { x with yh := x.yh.set r b } else { x with xh := x.xh.set r b }
      | _ => x)
  | .vec y r act => k.updCtx (fun x => writeLanes x y r act (valLanes v))
  | .pair y r act => k.updCtx (fun x =>
      match v with
      | .p a b => writeLanes (writeLanes x y r act a) y (r + 1) act b
      | _ => x)

/-- A result enters its latch line with its result cycle; entries that no operand can read any more are dropped
(05:R96, R98). -/
def enterLatch (x : Ctx) (slot t : Nat) (v : Val) : Ctx :=
  { x with latch := x.latch.set slot (((x.latch.getD slot []).filter (fun e => t ≤ e.1 + 3)) ++ [(t, v)]) }

/-- The bits of a CSR write that clear status bits take effect before the events of the same cycle (06:R129). -/
def clearFirst (k : Core) (e : Eff) : Core :=
  match e with
  | .csr n v =>
    if n = 0 then k.updCtx (fun x => { x with fflags := x.fflags &&& ~~~ v.setWidth 8 })
    else if n = 1 then k.updCtx (fun x => { x with istat := x.istat &&& ~~~ v.setWidth 2 })
    else k
  | .clrErr b => { k with eng := { k.eng with err := k.eng.err &&& ~~~ b } }
  | .clrQempty b => k.updCtx (fun x => { x with qempty := x.qempty &&& ~~~ b })
  | _ => k

/-- A control effect that falls due (19:R389). -/
def applyEff (s : State) (c : CoreRef) (e : Eff) : State :=
  match e with
  | .fmt v => s.upd c (fun k => k.updCtx (fun x => { x with fmt := v }))
  | .clmask v => s.upd c (fun k => k.updCtx (fun x => { x with clmask := v }))
  | .sel y i => s.upd c (fun k => k.updCtx (fun x => if y then { x with sel1 := i } else { x with sel0 := i }))
  | .csr n v =>
    if n = 2 then s.upd c (fun k => k.updCtx (fun x => { x with g := v.setWidth 8 ||| 1 }))
    else if n = 0x11 then s.upd c (fun k => { k with tr := { k.tr with tpc := v } })
    else if n = 0x15 then s.upd c (fun k => { k with tr := { k.tr with tvec := v } })
    else if n = 0x16 then s.upd c (fun k => { k with tr := { k.tr with tscr := v } })
    else s
  | .skey i v => s.upd c (fun k => k.updCtx (fun x => { x with ks := x.ks.set i (v, (x.ks.getD i (0, 0)).2) }))
  | .sctr i v => s.upd c (fun k => k.updCtx (fun x => { x with ks := x.ks.set i ((x.ks.getD i (0, 0)).1, v) }))
  | .pred v => s.upd c (fun k => { k with ph := { k.ph with p := v } })
  | .bind i q => s.upd c (fun k => k.updCtx (fun x => { x with q := x.q.set i q }))
  | .arm ctr b tag =>
    fireThresholds (s.upd c (fun k => { k with eng := { k.eng with armed := k.eng.armed ++ [⟨ctr, b.toNat, tag⟩] } })) c ctr
  | .bindTl7 g => syncTl7 (s.upd c (fun k => { k with eng := { k.eng with tl7 := g } })) c
  | .clrFull => updPart s (partOf s c) (fun q => { q with evFull := false })
  | .clrErr _ => s
  | .clrQempty _ => s

/-- One result or effect lands: register, latch line, flags and effects. A C1 load that arrives after its due cycle enters its
line when it becomes visible (05:R96, 10:R212). -/
def landOne (s : State) (c : CoreRef) (p : Pend) : State :=
  let s1 := s.upd c (fun k =>
    let k := writeDst k p.dst p.val
    k.updCtx (fun x =>
      let x := raiseFlags x p.flags p.istat
      match p.latch with
      | none => x
      | some l => enterLatch x l (if p.late then max p.due k.clk.arch else p.due) p.val))
  p.effs.foldl (fun s e => applyEff s c e) s1

/-- The result-time checks of a result (04:R85): poison, an enabled flag, a software TRAP. -/
def lateTrap (p : Pend) : Option (W8 × W64) :=
  match p.poison with
  | some a => some (0x05, a)
  | none =>
    match p.swtrap with
    | some code => some (0x0B, code.setWidth 64)
    | none => if trappingFlags p.flags p.ten ≠ 0 then some (0x0D, p.flags.setWidth 64) else none

/-- The result whose check fails with the lowest cause (04:R87). -/
def worstLate : List Pend → Option (Pend × W8 × W64)
  | [] => none
  | p :: t =>
    match lateTrap p, worstLate t with
    | none, r => r
    | some x, none => some (p, x)
    | some x, some (q, y) => if y.1.toNat < x.1.toNat then some (q, y) else some (p, x)

/-- The results whose checks fail with the lowest cause (04:R87). -/
def worstLates (l : List Pend) : List (Pend × W8 × W64) :=
  match worstLate l with
  | none => []
  | some w => (l.filterMap (fun p => (lateTrap p).map (fun x => (p, x)))).filter (fun x => x.2.1 = w.2.1)

/-- The result whose trap is taken: among several with one cause the spec does not say which, and the choice is free
(04:R87; entry 3). -/
def lateChoice (s : State) (l : List Pend) : Option (Pend × W8 × W64) × State :=
  match worstLates l with
  | [] => (none, s)
  | [x] => (some x, s)
  | xs => let d := draw s xs.length; (xs[d.1]?, d.2)

/-- Entries of the shadow that are due (19:R388). -/
def shadowDue (k : Core) : List Pend :=
  if k.tp.active then [] else match k.tp.resumed with
    | none => []
    | some _ => k.tp.shadow.filter (fun p => p.due ≤ k.clk.arch && !(p.late && p.wait ≠ 0))

/-- Results of the issuing context that are due; a late C1 load is not (10:R212). -/
def pendsDue (k : Core) : List Pend := k.ctx.pends.filter (fun p => p.due ≤ k.clk.arch && !(p.late && p.wait ≠ 0))

/-- Every due result has its native value (04:R83). -/
def duePresent (k : Core) : Bool := (shadowDue k ++ pendsDue k).all (fun p => p.wait = 0 && p.exist ≤ k.clk.cyc)

/-- A result is due and has its value. -/
def isDue (k : Core) (p : Pend) : Bool := p.due ≤ k.clk.arch && !(p.late && p.wait ≠ 0)

/-- Take the due entries out of the shadow, where it is being delivered, and out of the results in flight. -/
def removeDue (k : Core) : Core :=
  let k1 := if shadowDue k = [] then k else { k with tp := { k.tp with shadow := k.tp.shadow.filter (fun p => !isDue k p) } }
  k1.updCtx (fun x => { x with pends := x.pends.filter (fun p => !isDue k p) })

/-- Insert a result by the number of its operation, after those of the same number. -/
def insPend (p : Pend) : List Pend → List Pend
  | [] => [p]
  | q :: t => if p.serial < q.serial then p :: q :: t else q :: insPend p t

/-- Results in the order in which their operations were issued: by bundle, and by slot within one (03:R62). -/
def inOrder (l : List Pend) : List Pend := l.foldl (fun a p => insPend p a) []

/-- The core's task is ending: its cores have stopped, and no trap is taken (19:R401). -/
def ended (s : State) (c : CoreRef) : Bool :=
  match gangOf s c with
  | some g => g.stage ≠ 0
  | none => false

/-- What falls due lands together, shadow entries among it, in the order of issue (03:R62, 05:R98); where a result-time check
fails, its trap is taken before anything lands, and the flags of the failing operation are set (02:R32, 04:R87). Bits that a CSR
write clears are cleared before any flag of the cycle is set (06:R129). -/
def landing (s : State) (c : CoreRef) : State :=
  let k := s.core c
  match lateChoice s (if ended s c then [] else shadowDue k ++ pendsDue k) with
  | (some (p, cause, info), s) =>
    let s1 := if cause = 0x0D then s.upd c (fun k => k.updCtx (fun x => raiseFlags x p.flags 0)) else s
    takeTrap s1 c cause info (if cause = 0x0B then 0 else p.slot) (cause ≠ 0x0B) [p.serial]
  | (none, s) =>
    let ps := inOrder (shadowDue k ++ pendsDue k)
    let s1 := s.setCore c (removeDue k)
    let s2 := s1.upd c (fun k => ps.foldl (fun k p => p.effs.foldl clearFirst k) k)
    ps.foldl (fun s p => landOne s c p) s2

/-- RESULT_LANDING (04:R73). -/
def execResultLanding (s : State) : Host.Outcome State Fault Refusal := .next (landing s s.ev.core)

/-- SHADOW_DELIVERY (19:R388): entries of the shadow that are due, with the results in flight that are due in the same cycle. -/
def execShadowDelivery (s : State) : Host.Outcome State Fault Refusal := .next (landing s s.ev.core)

end Sys2Proof.Machine
end

