-- ==== Sys2Proof/Machine/Issue.lean ====
section
/-!
DEFINITION. Issuing one bundle: fetching its syllables (03:R47, 18:R363, R364), the operations of its slots with every
issue-time check weighed together (04:R85, R87), and its end: pops (03:R63), delay-slot redirections (04:R75, R76), loop
levels (04:R77, 06:R123) and the next issue cycle (04:R78). The meaning of an operation is a parameter here, since the
dispatcher comes after this file.
-/

namespace Sys2Proof.Machine

/-! ### Fetch -/

/-- The syllable at an instruction address: the instruction store of a vector-matrix core, or the control core's
instruction cache, none where the line is not there. -/
def fetchWord (s : State) (c : CoreRef) (a : Nat) : Option W32 :=
  let k := s.core c
  if c.cc then
    match k.ctl.icache.find? (fun l => l.1 = a / 64) with
    | some l => some (leW32 (byteSlice l.2 (a % 64) 4))
    | none => none
  else some (leW32 (memRead k.istore a 4))

/-- The syllables of a bundle, or the address that misses. -/
inductive Fetched where
  | words (l : List W32)
  | miss (a : Nat)
deriving DecidableEq, Repr

def fetchRest (s : State) (c : CoreRef) : Nat → Nat → List W32 → Fetched
  | 0, _, acc => .words acc
  | n + 1, a, acc => match fetchWord s c a with
    | none => .miss a
    | some w => fetchRest s c n (a + 4) (acc ++ [w])

def fetchBundle (s : State) (c : CoreRef) (pc : Nat) : Fetched :=
  match fetchWord s c pc with
  | none => .miss pc
  | some h => fetchRest s c (bundleLen h - 1) (pc + 4) [h]

/-- The head of a bundle ahead of issue; a line known to fail counts as empty bundles. -/
def headAhead (s : State) (c : CoreRef) (a : Nat) : Option W32 :=
  match fetchWord s c a with
  | some h => some h
  | none => if (s.core c).ctl.badLines.contains (a / 64) then some 0 else none

/-- The redirections after one more bundle, and the address that follows it (04:R76). -/
def stepRedirs (rs : List (Nat × W64)) (seq : Nat) : List (Nat × W64) × Nat :=
  let r1 := rs.map (fun r => (r.1 - 1, r.2))
  match r1.find? (fun r => r.1 = 0) with
  | some r => (r1.filter (fun r => r.1 ≠ 0), r.2.toNat)
  | none => (r1, seq)

/-- The address of the bundle that would issue after n further bundles, following redirections and leaving back-edges out
of account (06:R119); or the address whose head is missing. -/
def walkAhead (s : State) (c : CoreRef) : Nat → List (Nat × W64) → Nat → Sum Nat Nat
  | 0, _, a => .inr a
  | n + 1, rs, a => match headAhead s c a with
    | none => .inl a
    | some h =>
      let r := stepRedirs rs (a + 4 * bundleLen h)
      walkAhead s c n r.1 r.2

/-- The link address of a transfer in the bundle being issued (06:R119). -/
def linkWalk (s : State) (c : CoreRef) (pc len : Nat) (rs : List (Nat × W64)) : Sum Nat Nat :=
  let r := stepRedirs rs (pc + 4 * len)
  walkAhead s c 2 r.1 r.2

/-- The link address, for the operation being executed. -/
def linkAddr (s : State) : W64 :=
  match linkWalk s s.cur.core s.cur.pc.toNat s.cur.len (cx s).redirs with
  | .inr a => BitVec.ofNat 64 a
  | .inl _ => 0

/-- The address after the n bundles that follow the present one. -/
def afterBody (s : State) (n : Nat) : W64 :=
  match walkAhead s s.cur.core n [] (s.cur.pc.toNat + 4 * s.cur.len) with
  | .inr a => BitVec.ofNat 64 a
  | .inl _ => 0

/-- A control core's bundle needs heads that its cache does not hold yet: those after a CALL or BRI for the link address,
and those of the body that a LOOP with count 0 passes over. -/
def aheadMiss (s : State) (b : Bundle) : Option Nat :=
  if !s.cur.core.cc then none
  else
    let look (o : Op) : Option Nat := match o.ins with
      | .call _ _ _ => (linkWalk s s.cur.core s.cur.pc.toNat b.len (cx s).redirs).elim some (fun _ => none)
      | .bri _ _ _ _ => (linkWalk s s.cur.core s.cur.pc.toNat b.len (cx s).redirs).elim some (fun _ => none)
      | .loop a n =>
        if (srcS s a).extractLsb' 0 32 = 0 then
          (walkAhead s s.cur.core n.toNat [] (s.cur.pc.toNat + 4 * b.len)).elim some (fun _ => none)
        else none
      | _ => none
    (b.ops.filterMap look).head?

/-! ### Loops -/

/-- Leave the bundle at the present position of every level that ends there: the innermost level first repeats or moves
on, and an enclosing level moves only when the inner one is done (06:R123). The address is the body's first bundle where a
back-edge is taken. -/
def loopAdvance : List LoopLvl → Option W64 × List LoopLvl
  | [] => (none, [])
  | l :: t =>
    if l.pos < l.len then (none, { l with pos := l.pos + 1 } :: t)
    else if 0 < l.remain then (some l.body, { l with pos := 1, remain := l.remain - 1 } :: t)
    else loopAdvance t

/-! ### Pops -/

/-- Advance a source by one entry, where it shows one (03:R63). -/
def popSource (s : State) (c : CoreRef) (q : QSrc) : State :=
  match q with
  | .chan ch => updPart s (partOf s c) (fun p =>
      let x := p.chans.getD ch {}
      { p with chans := p.chans.set ch { x with entries := x.entries.tail } })
  | .rq i => s.upd c (fun k => { k with eng := { k.eng with rqs := k.eng.rqs.set i ((k.eng.rqs.getD i []).tail) } })
  | .evq => updPart s (partOf s c) (fun p =>
      if p.evCount = 0 then p else { p with evHead := (p.evHead + 1) % 4096, evCount := p.evCount - 1 })

/-- The latches that a pop mask names. -/
def popLatches (pop : BitVec 4) : List Nat := [0, 1, 2, 3].filter (fun i => pop.getLsbD i)

/-- Pop each source named by the mask once (03:R63). -/
def applyPops (s : State) (pop : BitVec 4) : State :=
  let srcs := ((popLatches pop).filterMap (fun i => (cx s).q.getD i none)).eraseDups
  srcs.foldl (fun s q => popSource s s.cur.core q) s

/-! ### The end of a bundle -/

/-- Move the issuing context on from the present bundle: its next address and its next issue cycle. -/
def moveOn (s : State) (seq : Nat) : State :=
  let t := cyc s
  updCx s (fun x =>
    let nx := if x.next ≤ t then t + 1 else x.next
    match x.redirs with
    | [] =>
      let r := loopAdvance x.loops
      { x with loops := r.2, pc := r.1.getD (BitVec.ofNat 64 seq), next := nx }
    | rs =>
      let r := stepRedirs rs seq
      { x with redirs := r.1, pc := BitVec.ofNat 64 r.2, next := nx
               latchBase := if r.1.length < rs.length then nx else x.latchBase })

/-- A bundle that stalls in TLWAIT or REALIGN is left only at the release. -/
def waiting (x : Ctx) : Bool :=
  match x.stall with
  | some st => st.kind = .tlwait || st.kind = .realign
  | none => false

/-- The end of the bundle being issued (03:R50, R63, 04:R75 to R78). -/
def endBundle (s : State) : State :=
  let s0 := updMe s (fun k => { k with clk := { k.clk with due := false } })
  if s.cur.left || waiting (cx s0) then s0
  else
    let s1 := applyPops s0 (headPop s.cur.head)
    moveOn s1 (s.cur.skip.getD (s.cur.pc + BitVec.ofNat 64 (4 * s.cur.len))).toNat

/-- Latches with a pop bit that nothing binds (03:R63). -/
def unboundPops (s : State) (pop : BitVec 4) : List Nat :=
  (popLatches pop).filter (fun i => (cx s).q.getD i none = none)

/-- EMPTY_BUNDLE (03:R50): one issue cycle, and its pop mask at the end. -/
def execEmptyBundle (s : State) : Host.Outcome State Fault Refusal := .next (endBundle s)

/-! ### A bundle -/

/-- The state in which the operations of a bundle are executed. -/
def beginBundle (s : State) (c : CoreRef) (pc : W64) (b : Bundle) : State :=
  { s with cur := { core := c, slot := 15, head := b.head, lend := b.lend, pc := pc, len := b.len, base := s.serial } }

/-- The operations of a bundle, slot by slot. One whose issue-time check fails leaves no effect, and the other slots are
still checked (04:R87). -/
def runOps (ex : Instr → State → Host.Outcome State Fault Refusal) : List Op → State → Host.Outcome State Fault Refusal
  | [], s => .next s
  | o :: t, s =>
    match ex o.ins { s with cur := { s.cur with slot := o.slot, syl := o.syl } } with
    | .next s' =>
      if s.cur.fails.length < s'.cur.fails.length then runOps ex t { s with cur := { s.cur with fails := s'.cur.fails } }
      else runOps ex t s'
    | r => r

/-- The trap of a bundle whose checks failed: nothing of the bundle takes effect (04:R85, R87). -/
def bundleTrap (s : State) (c : CoreRef) (f : W8 × W64 × Nat) : State :=
  let s1 := s.upd c (fun k => { k with clk := { k.clk with due := false } })
  takeTrap s1 c f.1 f.2.1 f.2.2 false []

/-- The trap of a bundle with these failures: the one with the lowest cause; among several of one cause, in different slots,
the spec does not say which is recorded, and the choice is free (04:R87; entry 3). -/
def bundleFail (s : State) (c : CoreRef) (l : List (W8 × W64 × Nat)) : State :=
  match lowestFails l with
  | [] => s
  | [f] => bundleTrap s c f
  | fs => let d := draw s fs.length; bundleTrap d.2 c (fs.getD d.1 (0x01, 0, 15))

/-- ERET ends its context, so it is executed after the other slots of its bundle. -/
def eretLast (l : List Op) : List Op :=
  let isEret (o : Op) : Bool := o.ins = .eret || o.ins = .eretReplay || o.ins = .eretFail
  l.filter (fun o => !isEret o) ++ l.filter isEret

/-- Issue a legal bundle at pc. -/
def runBundle (ex : Instr → State → Host.Outcome State Fault Refusal) (s : State) (c : CoreRef) (pc : W64) (b : Bundle) :
    Host.Outcome State Fault Refusal :=
  let s0 := beginBundle s c pc b
  let pops := (unboundPops s0 (headPop b.head)).map (fun i => ((0x0C : W8), BitVec.ofNat 64 i, 15))
  let s1 := { s0 with cur := { s0.cur with fails := pops } }
  match b.ops with
  | [] => if pops = [] then ex .emptyBundle s1 else .next (bundleFail s c pops)
  | ops =>
    match runOps ex (eretLast ops) s1 with
    | .next s2 =>
      if s2.cur.fails = [] then .next (endBundle s2) else .next (bundleFail s c s2.cur.fails)
    | r => r

/-- A fetch miss stalls issue until the line arrives (18:R364). -/
def startFetch (s : State) (c : CoreRef) (a : Nat) (ahead : Bool) : State :=
  s.upd c (fun k => k.updCtx (fun x =>
    { x with stall := some { kind := .fetch, a := BitVec.ofNat 64 a, b := if ahead then 1 else 0, since := s.now } }))

/-! ### What holds a control core's bundle back (10:R212) -/

/-- Base and displacement of an operation that accesses memory in CM or compare form. -/
def memAddr : Instr → Option (BitVec 4 × Int)
  | .ldb _ _ b o => some (b, o.toInt)
  | .ldh _ _ b o => some (b, o.toInt * 2)
  | .ldw _ _ b o => some (b, o.toInt * 4)
  | .ldd _ _ b o => some (b, o.toInt * 8)
  | .stb _ _ b o => some (b, o.toInt)
  | .sth _ _ b o => some (b, o.toInt * 2)
  | .stw _ _ b o => some (b, o.toInt * 4)
  | .std _ _ b o => some (b, o.toInt * 8)
  | .strel _ _ b o => some (b, o.toInt * 8)
  | .ldacq _ _ b o => some (b, o.toInt * 8)
  | .atadd _ _ b o => some (b, o.toInt * 8)
  | .atmin _ _ b o => some (b, o.toInt * 8)
  | .atmax _ _ b o => some (b, o.toInt * 8)
  | .atand _ _ b o => some (b, o.toInt * 8)
  | .ator _ _ b o => some (b, o.toInt * 8)
  | .atswp _ _ b o => some (b, o.toInt * 8)
  | .atfadd _ _ b o => some (b, o.toInt * 4)
  | .atcas _ _ b o => some (b, o.toInt * 8)
  | .bininit _ _ b o => some (b, o.toInt * 32)
  | .atbadd _ _ b o => some (b, o.toInt * 32)
  | .binrd _ _ b o => some (b, o.toInt * 32)
  | _ => none

/-- The virtual address of the bundle's C1 memory operation, where it has one. -/
def c1Address (x : Ctx) (b : Bundle) : Option Nat :=
  (b.ops.filterMap (fun o => if o.slot = 5 then
    (memAddr o.ins).map (fun m => (readA x true m.1.toNat + BitVec.ofInt 64 m.2).toNat) else none)).head?

/-- The bundle accesses data memory through C0. -/
def hasC0 (b : Bundle) : Bool := b.ops.any (fun o => o.slot = 4 && (memAddr o.ins).isSome)

/-- The bundle has a release store through C0. -/
def hasStrelC0 (b : Bundle) : Bool := b.ops.any (fun o => o.slot = 4 && (match o.ins with | .strel _ _ _ _ => true | _ => false))

/-- An operation reads or writes a register; CALL and RET use the link register. -/
def opTouches (link : Nat) (o : Op) (d : Dst) : Bool :=
  let sh := shape o.syl o.ins
  let f := sh.file
  match d with
  | .s r => (o.slot = 0 && (sh.src.contains r || o.ins = .ret && r = link || (match o.ins with | .call _ _ _ => r = link | _ => false)))
      || sh.regs.contains r || (sh.cm ≠ .no && f = 0 && sh.reg = r)
  | .a n r => decide (o.slot = (if n then 5 else 4)) && (sh.aregs.contains r || (sh.cm ≠ .no && f = 4 && sh.reg = r))
  | _ => false

/-- A bundle reads or writes a register. -/
def bundleTouches (link : Nat) (b : Bundle) (d : Dst) : Bool :=
  b.ops.any (fun o => opTouches link o d) ||
    (match d with
     | .k r => (headAOwn b.head ≠ 0 && headAReg b.head = r) || (headBOwn b.head ≠ 0 && headBReg b.head = r)
         || (headWOwn b.head ≠ 0 && headWReg b.head = r)
     | _ => false)

/-- Destinations of C1 loads that are past their due cycle and whose value has not arrived. -/
def lateDsts (k : Core) : List Dst :=
  ((k.ctx.pends ++ (if k.tp.active then [] else k.tp.shadow)).filter (fun p =>
    p.late && p.wait ≠ 0 && p.due ≤ k.clk.arch)).map (·.dst)

/-- The bundle may not issue in this cycle: it touches the destination of a late load, or an access to a strongly ordered
page is still to be performed before its C1 access; an access through C0, which is performed at its fixed cycle, waits for an earlier
LDACQ, and a STREL through C0 for every earlier access (entry 102). -/
def heldBack (k : Core) (b : Bundle) : Bool :=
  (lateDsts k).any (fun d => bundleTouches (if k.tp.active then 15 else 31) b d) || ((c1Address k.ctx b).isSome && k.ctl.c1.any (fun x => x.pk = 2))
    || (hasC0 b && k.ctl.c1.any (fun x => x.acq)) || (hasStrelC0 b && !(k.ctl.c1 = [] && k.near.accs = []))

/-- The address whose translation the bundle's C1 operation must wait for. A walk that has failed is not waited for
again. -/
def c1Miss (s : State) (c : CoreRef) (b : Bundle) : Option Nat :=
  match c1Address (s.core c).ctx b with
  | none => none
  | some va =>
    if 2 ^ 48 ≤ va ∨ (s.core c).ctx.stall.isSome then none
    else match (tlbFind s c 20 va).1 with
      | .hit _ _ => none
      | .miss => some va

/-- Stall until the translation of a C1 access is known. -/
def startC1 (s : State) (c : CoreRef) (va : Nat) : State :=
  (askWalk s c 20 va).upd c (fun k => k.updCtx (fun x =>
    { x with stall := some { kind := .c1, a := BitVec.ofNat 64 va, since := s.now } }))

/-- The walk that a C1 access waited for has failed: the bundle issues and its access faults. -/
def clearC1 (s : State) (c : CoreRef) : State :=
  match (s.core c).ctx.stall with
  | some st => if st.kind = .c1 then s.upd c (fun k => k.updCtx (fun x => { x with stall := none })) else s
  | none => s

/-- The bundle of a control core: held back, stalled for a line or a translation, or run. -/
def issueCc (ex : Instr → State → Host.Outcome State Fault Refusal) (s : State) (c : CoreRef) (pc : W64) (b : Bundle) :
    Host.Outcome State Fault Refusal :=
  if heldBack (s.core c) b then .next (s.upd c (fun k => { k with clk := { k.clk with due := false } }))
  else match aheadMiss (beginBundle s c pc b) b with
    | some a => .next (startFetch s c a true)
    | none => match c1Miss s c b with
      | some va => .next (startC1 s c va)
      | none => runBundle ex (clearC1 s c) c pc b

/-- Issue the bundle at the issuing context's address: fetch, decode (03:R64), run. -/
def issueAt (ex : Instr → State → Host.Outcome State Fault Refusal) (s : State) (c : CoreRef) :
    Host.Outcome State Fault Refusal :=
  let k := s.core c
  let pc := k.ctx.pc
  match fetchBundle s c pc.toNat with
  | .miss a => .next (startFetch s c a false)
  | .words ws =>
    match decodeBundle c.cc k.tp.active ws with
    | .illegal why slots => .next (bundleFail s c (slots.map (fun x => (illegalCause why, 0, x))))
    | .legal b => if c.cc then issueCc ex s c pc b else runBundle ex s c pc b

end Sys2Proof.Machine
end

