-- ==== Sys2Proof/Machine/Scalar.lean ====
section
/-!
DEFINITION. The integer and guard operations of the S slot (06:R110 to R117): register forms under their guards, immediate
and long forms, comparisons and guards. Each meaning computes its value here and sends it on its way with the shared
operations of Operands.lean.
-/

namespace Sys2Proof.Machine

/-! ### Values -/

/-- The high 64 bits of the product (06:R111). -/
def mulHigh (unsigned : Bool) (a b : W64) : W64 :=
  if unsigned then BitVec.ofNat 64 (a.toNat * b.toNat / 2 ^ 64) else BitVec.ofInt 64 (a.toInt * b.toInt / 2 ^ 64)

/-- Quotient, and the ISTAT bits it sets (06:R112). -/
def divS (unsigned : Bool) (a b : W64) : W64 × BitVec 2 :=
  if b = 0 then (BitVec.allOnes 64, 1)
  else if unsigned then (a / b, 0)
  else if a = BitVec.intMin 64 ∧ b = BitVec.allOnes 64 then (a, 2)
  else (BitVec.ofInt 64 (Int.tdiv a.toInt b.toInt), 0)

/-- Remainder, and the ISTAT bits it sets (06:R112). -/
def remS (unsigned : Bool) (a b : W64) : W64 × BitVec 2 :=
  if b = 0 then (a, 1)
  else if unsigned then (a % b, 0)
  else if a = BitVec.intMin 64 ∧ b = BitVec.allOnes 64 then (0, 2)
  else (BitVec.ofInt 64 (Int.tmod a.toInt b.toInt), 0)

/-- Left shift by an unsigned 64-bit count (06:R112). -/
def shlS (a b : W64) : W64 := if 64 ≤ b.toNat then 0 else a <<< b.toNat

/-- Right shift by an unsigned 64-bit count, zero- or sign-filled (06:R112). -/
def shrS (unsigned : Bool) (a b : W64) : W64 :=
  if unsigned then (if 64 ≤ b.toNat then 0 else a >>> b.toNat)
  else a.sshiftRight (min b.toNat 64)

/-- The smaller, compared signed or unsigned. -/
def minS (unsigned : Bool) (a b : W64) : W64 :=
  if unsigned then (if a.ult b then a else b) else (if a.slt b then a else b)

def maxS (unsigned : Bool) (a b : W64) : W64 :=
  if unsigned then (if a.ult b then b else a) else (if a.slt b then b else a)

/-- Leading zero bits among the n low bits of a word. -/
def clzBits {w : Nat} (a : BitVec w) : Nat → Nat
  | 0 => 0
  | n + 1 => if a.getLsbD n then 0 else 1 + clzBits a n

/-- Trailing zero bits from bit i, over n more bits. -/
def ctzBits {w : Nat} (a : BitVec w) (i : Nat) : Nat → Nat
  | 0 => 0
  | n + 1 => if a.getLsbD i then 0 else 1 + ctzBits a (i + 1) n

/-- One bits among the n low bits. -/
def popBits {w : Nat} (a : BitVec w) : Nat → Nat
  | 0 => 0
  | n + 1 => (if a.getLsbD n then 1 else 0) + popBits a n

/-- Byte k of the result is byte 7 - k of a. -/
def bswapS (a : W64) : W64 :=
  a.extractLsb' 0 8 ++ a.extractLsb' 8 8 ++ a.extractLsb' 16 8 ++ a.extractLsb' 24 8 ++ a.extractLsb' 32 8
    ++ a.extractLsb' 40 8 ++ a.extractLsb' 48 8 ++ a.extractLsb' 56 8

/-- Position of the field that b names (06:R113). -/
def fieldPos (b : W64) : Nat := (b.extractLsb' 0 6).toNat

/-- Width w' of the field that b names. -/
def fieldWidth (b : W64) : Nat := min ((b.extractLsb' 8 6).toNat + 1) (64 - fieldPos b)

/-- A field of w' ones at position p. -/
def fieldMask (b : W64) : W64 := BitVec.ofNat 64 ((2 ^ fieldWidth b - 1) * 2 ^ fieldPos b)

/-- EXT (06:R113). -/
def extS (unsigned : Bool) (a b : W64) : W64 :=
  let f := (a >>> fieldPos b) &&& BitVec.ofNat 64 (2 ^ fieldWidth b - 1)
  if !unsigned && f.getLsbD (fieldWidth b - 1) then f ||| ~~~ BitVec.ofNat 64 (2 ^ fieldWidth b - 1) else f

/-- INS (06:R113). -/
def insS (base a b : W64) : W64 := (base &&& ~~~ fieldMask b) ||| ((a <<< fieldPos b) &&& fieldMask b)

/-- The conditions of R116 by number. -/
def condS (c : Nat) (a b : W64) : Bool :=
  match c with
  | 0 => a = b
  | 1 => a ≠ b
  | 2 => a.slt b
  | 3 => !a.slt b
  | 4 => a.ult b
  | _ => !a.ult b

/-- The functions of GAND by number (06:R117). -/
def gandS (o : Nat) (a b : W64) : W64 :=
  match o with
  | 0 => a &&& b
  | 1 => a ||| b
  | 2 => a ^^^ b
  | _ => a &&& ~~~ b

/-! ### Sending -/

/-- A 64-bit S result with the ISTAT bits it sets when it lands (06:R112). -/
def resultIstat (s : State) (g : BitVec 3) (n : BitVec 1) (srcs : List (BitVec 6)) (L : Nat) (d : BitVec 5)
    (r : W64 × BitVec 2) : State :=
  guarded s g n srcs (fun s' => emit s' { newPend s' L with
    dst := dstS s' d.toNat, val := .w r.1, latch := some 0, istat := r.2 })

/-- A guard result: g[d] at c+1, and the same value in the slot's line (06:R116). -/
def putGuard (s : State) (d : BitVec 3) (b : Bool) : State :=
  emit s { newPend s 1 with dst := .g d.toNat, val := .w (ofBool 64 b), latch := some 0 }

def resultGuard (s : State) (g : BitVec 3) (n : BitVec 1) (srcs : List (BitVec 6)) (d : BitVec 3) (b : Bool) : State :=
  guarded s g n srcs (fun s' => putGuard s' d b)

/-! ### Register forms (06:R111) -/

def execAdd (d : BitVec 5) (a b : BitVec 6) (g : BitVec 3) (n : BitVec 1) (s : State) : Host.Outcome State Fault Refusal :=
  .next (resultS s g n [a, b] 1 d (srcS s a + srcS s b))

def execSub (d : BitVec 5) (a b : BitVec 6) (g : BitVec 3) (n : BitVec 1) (s : State) : Host.Outcome State Fault Refusal :=
  .next (resultS s g n [a, b] 1 d (srcS s a - srcS s b))

def execMul (d : BitVec 5) (a b : BitVec 6) (g : BitVec 3) (n : BitVec 1) (s : State) : Host.Outcome State Fault Refusal :=
  .next (resultS s g n [a, b] 3 d (srcS s a * srcS s b))

def execMulh (d : BitVec 5) (a b : BitVec 6) (g : BitVec 3) (n z : BitVec 1) (s : State) : Host.Outcome State Fault Refusal :=
  .next (resultS s g n [a, b] 3 d (mulHigh (z = 1) (srcS s a) (srcS s b)))

def execDiv (d : BitVec 5) (a b : BitVec 6) (g : BitVec 3) (n z : BitVec 1) (s : State) : Host.Outcome State Fault Refusal :=
  .next (resultIstat s g n [a, b] 34 d (divS (z = 1) (srcS s a) (srcS s b)))

def execRem (d : BitVec 5) (a b : BitVec 6) (g : BitVec 3) (n z : BitVec 1) (s : State) : Host.Outcome State Fault Refusal :=
  .next (resultIstat s g n [a, b] 34 d (remS (z = 1) (srcS s a) (srcS s b)))

def execAnd (d : BitVec 5) (a b : BitVec 6) (g : BitVec 3) (n : BitVec 1) (s : State) : Host.Outcome State Fault Refusal :=
  .next (resultS s g n [a, b] 1 d (srcS s a &&& srcS s b))

def execOr (d : BitVec 5) (a b : BitVec 6) (g : BitVec 3) (n : BitVec 1) (s : State) : Host.Outcome State Fault Refusal :=
  .next (resultS s g n [a, b] 1 d (srcS s a ||| srcS s b))

def execXor (d : BitVec 5) (a b : BitVec 6) (g : BitVec 3) (n : BitVec 1) (s : State) : Host.Outcome State Fault Refusal :=
  .next (resultS s g n [a, b] 1 d (srcS s a ^^^ srcS s b))

def execAndn (d : BitVec 5) (a b : BitVec 6) (g : BitVec 3) (n : BitVec 1) (s : State) : Host.Outcome State Fault Refusal :=
  .next (resultS s g n [a, b] 1 d (srcS s a &&& ~~~ srcS s b))

def execShl (d : BitVec 5) (a b : BitVec 6) (g : BitVec 3) (n : BitVec 1) (s : State) : Host.Outcome State Fault Refusal :=
  .next (resultS s g n [a, b] 1 d (shlS (srcS s a) (srcS s b)))

def execShr (d : BitVec 5) (a b : BitVec 6) (g : BitVec 3) (n z : BitVec 1) (s : State) : Host.Outcome State Fault Refusal :=
  .next (resultS s g n [a, b] 1 d (shrS (z = 1) (srcS s a) (srcS s b)))

def execRot (d : BitVec 5) (a b : BitVec 6) (g : BitVec 3) (n : BitVec 1) (s : State) : Host.Outcome State Fault Refusal :=
  .next (resultS s g n [a, b] 1 d ((srcS s a).rotateLeft ((srcS s b).extractLsb' 0 6).toNat))

def execMin (d : BitVec 5) (a b : BitVec 6) (g : BitVec 3) (n z : BitVec 1) (s : State) : Host.Outcome State Fault Refusal :=
  .next (resultS s g n [a, b] 1 d (minS (z = 1) (srcS s a) (srcS s b)))

def execMax (d : BitVec 5) (a b : BitVec 6) (g : BitVec 3) (n z : BitVec 1) (s : State) : Host.Outcome State Fault Refusal :=
  .next (resultS s g n [a, b] 1 d (maxS (z = 1) (srcS s a) (srcS s b)))

def execClz (d : BitVec 5) (a : BitVec 6) (g : BitVec 3) (n : BitVec 1) (s : State) : Host.Outcome State Fault Refusal :=
  .next (resultS s g n [a] 1 d (BitVec.ofNat 64 (clzBits (srcS s a) 64)))

def execCtz (d : BitVec 5) (a : BitVec 6) (g : BitVec 3) (n : BitVec 1) (s : State) : Host.Outcome State Fault Refusal :=
  .next (resultS s g n [a] 1 d (BitVec.ofNat 64 (ctzBits (srcS s a) 0 64)))

def execPopc (d : BitVec 5) (a : BitVec 6) (g : BitVec 3) (n : BitVec 1) (s : State) : Host.Outcome State Fault Refusal :=
  .next (resultS s g n [a] 1 d (BitVec.ofNat 64 (popBits (srcS s a) 64)))

def execBswap (d : BitVec 5) (a : BitVec 6) (g : BitVec 3) (n : BitVec 1) (s : State) : Host.Outcome State Fault Refusal :=
  .next (resultS s g n [a] 1 d (bswapS (srcS s a)))

def execExt (d : BitVec 5) (a b : BitVec 6) (g : BitVec 3) (n z : BitVec 1) (s : State) : Host.Outcome State Fault Refusal :=
  .next (resultS s g n [a, b] 1 d (extS (z = 1) (srcS s a) (srcS s b)))

def execIns (d : BitVec 5) (a b : BitVec 6) (g : BitVec 3) (n : BitVec 1) (s : State) : Host.Outcome State Fault Refusal :=
  .next (resultS s g n [a, b] 1 d (insS (readS (cx s) d.toNat) (srcS s a) (srcS s b)))

def execSel (d : BitVec 5) (a b : BitVec 6) (g : BitVec 3) (n : BitVec 1) (i : BitVec 3) (s : State) :
    Host.Outcome State Fault Refusal :=
  .next (resultS s g n [a, b] 1 d (if readG (cx s) i.toNat then srcS s a else srcS s b))

def execCmp (d : BitVec 3) (a b : BitVec 6) (g : BitVec 3) (n : BitVec 1) (c : BitVec 3) (s : State) :
    Host.Outcome State Fault Refusal :=
  .next (resultGuard s g n [a, b] d (condS c.toNat (srcS s a) (srcS s b)))

def execGand (d : BitVec 3) (a b : BitVec 6) (g : BitVec 3) (n : BitVec 1) (o : BitVec 2) (s : State) :
    Host.Outcome State Fault Refusal :=
  .next (resultGuard s g n [a, b] d (gandS o.toNat (srcS s a) (srcS s b) ≠ 0))

/-! ### Immediate and long forms (06:R114, R115) -/

def execAddi (d : BitVec 5) (a : BitVec 6) (i : BitVec 13) (s : State) : Host.Outcome State Fault Refusal :=
  .next (resultSI s [a] d (srcS s a + i.signExtend 64))

def execAndi (d : BitVec 5) (a : BitVec 6) (i : BitVec 13) (s : State) : Host.Outcome State Fault Refusal :=
  .next (resultSI s [a] d (srcS s a &&& i.setWidth 64))

def execOri (d : BitVec 5) (a : BitVec 6) (i : BitVec 13) (s : State) : Host.Outcome State Fault Refusal :=
  .next (resultSI s [a] d (srcS s a ||| i.setWidth 64))

def execXori (d : BitVec 5) (a : BitVec 6) (i : BitVec 13) (s : State) : Host.Outcome State Fault Refusal :=
  .next (resultSI s [a] d (srcS s a ^^^ i.setWidth 64))

def execShli (d : BitVec 5) (a c : BitVec 6) (s : State) : Host.Outcome State Fault Refusal :=
  .next (resultSI s [a] d (srcS s a <<< c.toNat))

def execShri (d : BitVec 5) (a c : BitVec 6) (s : State) : Host.Outcome State Fault Refusal :=
  .next (resultSI s [a] d (srcS s a >>> c.toNat))

def execCmpi (c : BitVec 2) (d : BitVec 3) (a : BitVec 6) (i : BitVec 13) (s : State) : Host.Outcome State Fault Refusal :=
  .next (withRoom s (fun s' => putGuard (noteReads s' [a.toNat]) d (condS c.toNat (srcS s a) (i.signExtend 64))))

def execMovi (d : BitVec 5) (i : BitVec 13) (s : State) : Host.Outcome State Fault Refusal :=
  .next (resultSI s [] d (i.signExtend 64))

def execMovl (d : BitVec 5) (s : State) : Host.Outcome State Fault Refusal :=
  .next (resultSI s [] d (s.cur.lend.signExtend 64))

def execMovlh (d : BitVec 5) (a : BitVec 6) (s : State) : Host.Outcome State Fault Refusal :=
  .next (resultSI s [a] d (s.cur.lend ++ (srcS s a).extractLsb' 0 32))

def execAddl (d : BitVec 5) (a : BitVec 6) (s : State) : Host.Outcome State Fault Refusal :=
  .next (resultSI s [a] d (srcS s a + s.cur.lend.signExtend 64))

/-- NOP does nothing (03:R65). -/
def execNop (s : State) : Host.Outcome State Fault Refusal := .next s

end Sys2Proof.Machine
end

