-- ==== Sys2Proof/Machine/Control.lean ====
section
/-!
DEFINITION. Control transfers, loops, idling and halting (06:R118 to R126), time and control state (06:R127 to R136,
05:R105), phase control (15:R305 to R308, R314), counters and queue bindings (14:R279 to R287), keyed streams (18:R379 to
R381), and the trap instructions with the return from a trap (19:R392 to R394).
-/

namespace Sys2Proof.Machine

/-! ### Transfers -/

/-- A taken transfer: issue is redirected after two more bundles, and every loop level ends (04:R75, 06:R121). A target at
or beyond CODELEN traps with cause 0x06 on a vector-matrix core (18:R363). -/
def transfer (s : State) (target : W64) (f : State → State) : State :=
  if !isCC s && (me s).codelen ≤ target.toNat then issueFail s 0x06 target
  else f (updCx s (fun x => { x with redirs := x.redirs ++ [(3, target)], loops := [] }))

/-- A computed target: bits [1:0] and [63:48] must be 0 (06:R120). An aligned one beyond CODELEN fails both checks where it has
one of the upper bits set, and the lower cause, 0x06, is taken (04:R87; DEDUCED, entry 100). -/
def transferTo (s : State) (target : W64) (f : State → State) : State :=
  if target.toNat % 4 ≠ 0 ∨ isCC s ∧ 2 ^ 48 ≤ target.toNat then issueFail s 0x07 target else transfer s target f

/-- The target of an SB form (03:R52). -/
def sbTarget (s : State) (p : BitVec 20) : W64 := s.cur.pc + (p.signExtend 64 <<< 2)

/-- The checks of the target come before the room for the link, which has the higher cause (04:R87): s is the state at issue, and
s' that of the transfer. -/
def withRoomAt (s s' : State) (f : State → State) : State := if noRoom s then issueFail s 0x0E 0 else f s'

/-- The link register: s31, and s15 in the urgent context (06:R119). -/
def linkReg (s : State) : Nat := if isUrg s then 15 else 31

def execBr (g : BitVec 3) (n : BitVec 1) (p : BitVec 20) (s : State) : Host.Outcome State Fault Refusal :=
  .next (if guardOn s g n then transfer s (sbTarget s p) id else s)

def execCall (g : BitVec 3) (n : BitVec 1) (p : BitVec 20) (s : State) : Host.Outcome State Fault Refusal :=
  .next (if guardOn s g n then transfer s (sbTarget s p) (fun s' => withRoomAt s s' (fun s' =>
    emit s' { newPend s' 1 with dst := dstS s (linkReg s), val := .w (linkAddr s), latch := some 0 })) else s)

/-- BRI with sd = 0 and no write port writes no link (06:R118). -/
def execBri (d : BitVec 5) (a : BitVec 6) (g : BitVec 3) (n : BitVec 1) (s : State) : Host.Outcome State Fault Refusal :=
  .next (
    if d = 0 ∧ !ownsW s.cur.head s.cur.slot then plainS s g n [a] (fun s' => transferTo s' (srcS s a) id)
    else plainS s g n [a] (fun s' => transferTo s' (srcS s a) (fun s'' => withRoomAt s s'' (fun s'' => putS s'' 1 d (linkAddr s)))))

def execRet (s : State) : Host.Outcome State Fault Refusal :=
  .next (plainS s (sylField s 4 3) (sylField s 3 1) [] (fun s' => transferTo s' (readS (cx s) (linkReg s)) id))

/-! ### Loops, idling, halting -/

/-- Place the present bundle's enclosing level at the end of an inner body of n bundles (06:R123). -/
def passBody (l : List LoopLvl) (n : Nat) : List LoopLvl :=
  match l with
  | [] => []
  | x :: t => { x with pos := x.pos + n } :: t

/-- An inner body of n bundles would end beyond the enclosing body (06:R123). -/
def bodyTooLong (l : List LoopLvl) (n : Nat) : Bool :=
  match l with
  | [] => false
  | x :: _ => decide (x.len < x.pos + n)

/-- LOOP (06:R122, R123, 04:R77). -/
def execLoop (a : BitVec 6) (n : BitVec 10) (s : State) : Host.Outcome State Fault Refusal :=
  .next (
    let x := cx s
    let k := ((srcS s a).extractLsb' 0 32).toNat
    if n = 0 ∨ 4 ≤ x.loops.length ∨ bodyTooLong x.loops n.toNat ∨ x.redirs ≠ [] then issueFail s 0x01 0
    else
      let s1 := noteReads s [a.toNat]
      if k = 0 then
        { updCx s1 (fun x => { x with loops := passBody x.loops n.toNat, next := cyc s + 3 }) with
          cur := { s1.cur with skip := some (afterBody s n.toNat) } }
      else
        let lvl : LoopLvl := { body := s.cur.pc + BitVec.ofNat 64 (4 * s.cur.len), len := n.toNat, pos := 0, remain := k - 1 }
        updCx s1 (fun x => { x with loops := lvl :: passBody x.loops n.toNat }))

/-- NOPC: the next bundle issues at c+1+n (04:R78). -/
def execNopc (n : BitVec 13) (s : State) : Host.Outcome State Fault Refusal :=
  .next (updCx s (fun x => { x with next := cyc s + 1 + n.toNat }))

/-- HALT (06:R126): cause 0x0A in the urgent context, 0x01 inside a timetabled phase. -/
def execHalt (s : State) : Host.Outcome State Fault Refusal :=
  .next (
    if !guardOn s (sylField s 4 3) (sylField s 3 1) then s
    else if isUrg s then issueFail s 0x0A 0
    else if inPhase s then issueFail s 0x01 0
    else updMe s (fun k => { k with run := .halted, main := { k.main with redirs := [] } }))

/-- Reference ticks until the core cycle that begins n cycles from now (15:R300). -/
def ninths (step : Nat) : Nat :=
  match step with
  | 0 => 9 | 1 => 8 | 2 => 7 | 3 => 6 | _ => 4

def ticksTo (k : Clk) (n : Nat) : Nat := if n = 0 then 0 else (9 * n - k.acc + ninths k.step - 1) / ninths k.step

/-- REALIGN (15:R314): issue stalls; the first tick that counts is the start of c+1. -/
def execRealign (n : BitVec 6) (s : State) : Host.Outcome State Fault Refusal :=
  .next (
    if inPhase s then issueFail s 0x01 0
    else
      let st : Stall := { kind := .realign, a := BitVec.ofNat 64 n.toNat, b := (headPop s.cur.head).setWidth 64,
                          since := s.now + ticksTo (me s).clk 1, k := s.cur.len }
      updCx s (fun x => { x with stall := some st }))

/-- The DCC (15:R296). -/
def dcc (s : State) : Nat := s.now - s.dccBase

/-- The first tick at or after t at which the DCC is a multiple of 2^n. -/
def alignedTick (s : State) (t n : Nat) : Nat := t + (2 ^ n - (t - s.dccBase) % 2 ^ n) % 2 ^ n

/-- Leave the bundle that was stalled in TLWAIT or REALIGN: its pops are applied, and the next bundle may issue in the
present cycle (14:R280, 15:R314). -/
def leaveStall (s : State) (c : CoreRef) (len : Nat) (pop : BitVec 4) : State :=
  let k := s.core c
  let t := k.clk.arch
  let s1 := { s with cur := { core := c, pc := k.ctx.pc, len := len } }
  let s2 := applyPops (updCx s1 (fun x => { x with stall := none, next := t })) pop
  let s3 := moveOn s2 (k.ctx.pc.toNat + 4 * len)
  updCx s3 (fun x => { x with next := t, latchBase := if x.latchBase = t + 1 then t else x.latchBase })

/-- REALIGN_RELEASE (15:R314). -/
def execRealignRelease (s : State) : Host.Outcome State Fault Refusal :=
  .next (match (s.core s.ev.core).ctx.stall with
    | some st =>
      if st.kind = .realign ∧ alignedTick s st.since st.a.toNat ≤ s.now then leaveStall s s.ev.core st.k (st.b.setWidth 4)
      else s
    | none => s)

/-! ### Time and control state -/

/-- GTIME (06:R127). -/
def execGtime (d : BitVec 5) (g : BitVec 3) (n : BitVec 1) (src : BitVec 3) (s : State) : Host.Outcome State Fault Refusal :=
  .next (
    let k := me s
    let v := match src.toNat with
      | 0 => dcc s
      | 1 => if isCC s then k.clk.cyc else k.ph.phc
      | _ => k.clk.cyc
    resultS s g n [] 1 d (BitVec.ofNat 64 v))

/-- GUARDS as it reads (06:R133). -/
def csrGuards (x : Ctx) : W64 := (x.g ||| 1).setWidth 64

/-- LMSEL as it reads (05:R101). -/
def csrLmsel (x : Ctx) : W64 := (x.sel1 ++ x.sel0).setWidth 64

/-- LOOPST as it reads (06:R134). -/
def csrLoopst (x : Ctx) : W64 :=
  match x.loops with
  | [] => 0
  | l :: _ => 0#24 ++ BitVec.ofNat 32 l.remain ++ 0#5 ++ BitVec.ofNat 3 x.loops.length

/-- IDENT as it reads (06:R135). -/
def csrIdent (s : State) : W64 :=
  0#29 ++ BitVec.ofNat 3 (partOf s s.cur.core) ++ 0#7 ++ BitVec.ofNat 9 s.chip ++ 0#6 ++ BitVec.ofBool (isUrg s)
    ++ BitVec.ofBool (isCC s) ++ BitVec.ofNat 8 s.cur.core.num

/-- PHASEST as it reads (06:R136). -/
def csrPhasest (s : State) : W64 :=
  let k := me s
  let p := k.ph
  if isCC s then BitVec.ofNat 64 (k.profile * 2 ^ 13)
  else BitVec.ofNat 64 (p.gsize * 2 ^ 24 + p.gpos * 2 ^ 16 + k.profile * 2 ^ 13 + (if p.detf then 2 ^ 12 else 0)
    + (if p.repl then 2 ^ 11 else 0) + (if p.solo then 2 ^ 10 else 0) + (if k.timed then 2 ^ 9 else 0)
    + (if p.buf then 2 ^ 8 else 0) + p.phnum.toNat)

/-- A CSR as it reads at c+0; a reserved number reads 0 (06:R128, R130, 19:R391). -/
def csrRead (s : State) (n : Nat) : W64 :=
  let x := cx s
  let t := (me s).tr
  match n with
  | 0x00 => x.fflags.setWidth 64
  | 0x01 => x.istat.setWidth 64
  | 0x02 => csrGuards x
  | 0x03 => if isCC s then 0 else x.clmask.setWidth 64
  | 0x04 => if isCC s then 0 else csrLmsel x
  | 0x05 => csrLoopst x
  | 0x06 => csrIdent s
  | 0x07 => csrPhasest s
  | 0x10 => t.tcause
  | 0x11 => t.tpc
  | 0x12 => t.tinfo
  | 0x13 => t.ttime
  | 0x14 => t.tstate
  | 0x15 => t.tvec
  | 0x16 => t.tscr
  | _ => 0

def execCsrr (d : BitVec 5) (a : BitVec 6) (g : BitVec 3) (n : BitVec 1) (s : State) : Host.Outcome State Fault Refusal :=
  .next (resultS s g n [a] 1 d (csrRead s (srcS s a).toNat))

def execCsrw (a b : BitVec 6) (g : BitVec 3) (n : BitVec 1) (s : State) : Host.Outcome State Fault Refusal :=
  .next (effectS s g n [a, b] 1 [.csr (srcS s a).toNat (srcS s b)])

/-- A value that SETFMT refuses (05:R105). -/
def badFmt (v : W32) : Bool :=
  (v.extractLsb' 0 4).toNat ≥ 14 || (v.extractLsb' 4 4).toNat ≥ 14 || (v.extractLsb' 8 4).toNat ≥ 14
    || (v.extractLsb' 12 2).toNat ≥ 2 || (v.extractLsb' 17 2).toNat = 3

/-- FMT takes the value with its reserved bits cleared (05:R102, R105). -/
def fmtOf (v : W32) : W32 := v &&& 0xFE0FFFFF

def execSetfmt (a : BitVec 6) (g : BitVec 3) (n : BitVec 1) (s : State) : Host.Outcome State Fault Refusal :=
  .next (
    let v : W32 := (srcS s a).setWidth 32
    if guardOn s g n ∧ badFmt v then issueFail s 0x01 0 else effectS s g n [a] 4 [.fmt (fmtOf v)])

def execGetfmt (s : State) : Host.Outcome State Fault Refusal :=
  .next (resultS s (sylField s 4 3) (sylField s 3 1) [] 1 (sylField s 19 5) ((cx s).fmt.setWidth 64))

def execSetcl (a : BitVec 6) (g : BitVec 3) (n : BitVec 1) (s : State) : Host.Outcome State Fault Refusal :=
  .next (effectS s g n [a] 2 [.clmask ((srcS s a).setWidth 8)])

def execVmsel (i g : BitVec 3) (n v : BitVec 1) (s : State) : Host.Outcome State Fault Refusal :=
  .next (effectS s g n [] 2 [.sel (v = 1) i])

/-! ### Phases -/

/-- PHPRED (15:R308). -/
def execPhpred (a : BitVec 6) (g : BitVec 3) (n : BitVec 1) (o : BitVec 2) (s : State) : Host.Outcome State Fault Refusal :=
  .next (
    let v : W8 := (srcS s a).setWidth 8
    let p := (me s).ph.p
    if guardOn s g n ∧ !inPhase s then issueFail s 0x01 0
    else effectS s g n [a] 1 [.pred (match o.toNat with | 0 => v | 1 => p ||| v | _ => p &&& v)])

/-- Conditions of the ALL mask: each named counter must reach the last number issued; bits 7 and above are met at once
(15:R306). -/
def allConds (k : Core) (m : W16) : List (Nat × Nat) :=
  ((List.range 7).filter (fun i => m.getLsbD i)).map (fun i => (i, (getTL k i).next))

/-- The explicit condition (15:R306). -/
def explicitCond (b : W64) : List (Nat × Nat) :=
  let c := (b.extractLsb' 60 4).toNat
  if b = 0 ∨ 8 ≤ c then [] else [(c, (b.extractLsb' 0 60).toNat)]

/-- SIGNOFF (15:R305, R306): at phase cycle LENGTH - 1 it is the core's sign-off, without conditions where its guard is
false. -/
def execSignoff (a b : BitVec 6) (g : BitVec 3) (n : BitVec 1) (s : State) : Host.Outcome State Fault Refusal :=
  .next (
    let k := me s
    let on := guardOn s g n
    let here := k.ph.inph && k.ph.phc + 1 = k.ph.length
    if !here then (if on then issueFail s 0x01 0 else s)
    else
      let m : W16 := (srcS s a).setWidth 16
      let e := explicitCond (srcS s b)
      let s1 := if on then noteReads s [a.toNat, b.toNat] else s
      updMe s1 (fun k => { k with ph := { k.ph with
        signed := true, sigPend := true, sigP := k.ph.p
        sigConds := if on then allConds k m ++ e else []
        sigErr := if on then (m &&& 0xFF) ||| e.foldl (fun x y => x ||| BitVec.ofNat 16 (2 ^ y.1)) 0 else 0 } }))

/-! ### Timeline counters -/

/-- The counter's value as TLREAD.v reads it (14:R279): tl7 of a vector-matrix core is the applied sequence of its bound
group, 0 where it is not a member (16:R344). -/
def counterValue (s : State) (c : CoreRef) (i : Nat) : Nat :=
  let k := s.core c
  if c.cc then (getTL k i).val
  else if i ≤ 6 then (getTL k i).val
  else if i = 7 then
    match k.eng.tl7 with
    | none => 0
    | some g => match k.eng.members.find? (fun m => m.grp = g) with
      | some m => m.applied
      | none => 0
  else 0

/-- The counter number that a source names. -/
def ctrOf (v : W64) : Nat := (v.extractLsb' 0 4).toNat

def execTlreadV (d : BitVec 5) (a : BitVec 6) (g : BitVec 3) (n : BitVec 1) (s : State) : Host.Outcome State Fault Refusal :=
  .next (resultS s g n [a] 1 d (BitVec.ofNat 64 (counterValue s s.cur.core (ctrOf (srcS s a)))))

def execTlreadE (s : State) : Host.Outcome State Fault Refusal :=
  .next (resultS s (sylField s 4 3) (sylField s 3 1) [] 1 (sylField s 19 5) ((me s).eng.err.setWidth 64))

/-- TLREAD.ec also clears the bits it returns, at c+1 (14:R279). -/
def execTlreadEc (s : State) : Host.Outcome State Fault Refusal :=
  .next (guarded s (sylField s 4 3) (sylField s 3 1) [] (fun s' => emit s' { newPend s' 1 with
    dst := dstS s (sylField s 19 5).toNat, val := .w ((me s).eng.err.setWidth 64), latch := some 0
    effs := [.clrErr (me s).eng.err] }))

/-- A counter that the core lacks (14:R280, R281). -/
def noCounter (s : State) (i : Nat) : Bool := !isCC s && 8 ≤ i

/-- TLWAIT (14:R280): issue stalls from c+1. -/
def execTlwait (a b : BitVec 6) (g : BitVec 3) (n : BitVec 1) (s : State) : Host.Outcome State Fault Refusal :=
  .next (
    let i := ctrOf (srcS s a)
    if !guardOn s g n then s
    else if !isUrg s && inPhase s then issueFail s 0x01 0
    else if noCounter s i || (!isCC s && i = 7 && (me s).eng.tl7 = none) then issueFail s 0x0C (BitVec.ofNat 64 i)
    else
      let st : Stall := { kind := .tlwait, a := BitVec.ofNat 64 i, b := srcS s b, k := s.cur.len, since := s.now }
      updCx (noteReads s [a.toNat, b.toNat]) (fun x => { x with stall := some st }))

/-- TLWAIT_RELEASE (14:R280). -/
def execTlwaitRelease (s : State) : Host.Outcome State Fault Refusal :=
  .next (match (s.core s.ev.core).ctx.stall with
    | some st =>
      if st.kind = .tlwait ∧ st.b.toNat ≤ counterValue s s.ev.core st.a.toNat then
        leaveStall (acquireLines s s.ev.core) s.ev.core st.k 0
      else s
    | none => s)

/-- TLARMs issued and not yet in effect. -/
def armsPending (k : Core) : Nat :=
  ((k.main.pends ++ k.urg.pends ++ k.tp.shadow).filter (fun p => p.effs.any (fun e => match e with
    | .arm _ _ _ => true
    | _ => false))).length

/-- TLARM (14:R281). -/
def execTlarm (a b : BitVec 6) (g : BitVec 3) (n : BitVec 1) (s : State) : Host.Outcome State Fault Refusal :=
  .next (
    let v := srcS s a
    let i := ctrOf v
    if guardOn s g n ∧ (noCounter s i ∨ 16 ≤ (me s).eng.armed.length + armsPending (me s)) then
      issueFail s 0x0C (BitVec.ofNat 64 i)
    else effectS s g n [a, b] 1 [.arm i (srcS s b) (v.extractLsb' 8 24)])

/-! ### Queue bindings (14:R287) -/

/-- The source that a QBIND value names; none for a value that names nothing, some none for 0xFF. -/
def bindSource (cc : Bool) (v : W8) : Option (Option QSrc) :=
  if v.toNat ≤ 15 then some (some (.chan v.toNat))
  else if 0x20 ≤ v.toNat ∧ v.toNat ≤ 0x23 then some (some (.rq (v.toNat - 0x20)))
  else if v = 0x40 ∧ cc then some (some .evq)
  else if v = 0xFF then some none
  else none

/-- A context holds, or is about to hold, a binding of the source. -/
def boundIn (x : Ctx) (q : QSrc) : Bool :=
  x.q.contains (some q) || x.pends.any (fun p => p.effs.any (fun e => match e with
    | .bind _ r => r = some q
    | _ => false))

/-- The source is bound by another core of the partition or by the other context of this one. Receive queues and the event
queue belong to one core. -/
def boundElsewhere (s : State) (q : QSrc) : Bool :=
  let k := me s
  let other := if k.tp.active then k.main else k.urg
  boundIn other q || (match q with
    | .chan _ => (allCores s).any (fun c => c ≠ s.cur.core && partOf s c = partOf s s.cur.core
        && (c.cc || (s.core c).part.isSome) && (boundIn (s.core c).main q || boundIn (s.core c).urg q))
    | _ => false)

/-- The partition may bind the source: a channel must be open and its consuming side the partition's. -/
def mayBind (s : State) (q : QSrc) : Bool :=
  match q with
  | .chan ch =>
    let x := (getPart s (partOf s s.cur.core)).chans.getD ch {}
    x.opn && x.cons
  | _ => true

def execQbind (i : BitVec 2) (a : BitVec 6) (g : BitVec 3) (n : BitVec 1) (s : State) : Host.Outcome State Fault Refusal :=
  .next (
    if !guardOn s g n then s
    else match bindSource (isCC s) ((srcS s a).setWidth 8) with
      | none => issueFail s 0x0C (BitVec.ofNat 64 i.toNat)
      | some none => effectS s g n [a] 1 [.bind i.toNat none]
      | some (some q) =>
        if mayBind s q ∧ !boundElsewhere s q then effectS s g n [a] 1 [.bind i.toNat (some q)]
        else issueFail s 0x0C (BitVec.ofNat 64 i.toNat))

/-! ### Keyed streams (18:R379 to R381) -/

/-- The rotations of a round (18:R380). -/
def streamRot (r : Nat) : Nat × Nat :=
  match r % 6 with
  | 1 => (13, 7)
  | 2 => (17, 29)
  | 3 => (5, 23)
  | 4 => (11, 3)
  | 5 => (19, 9)
  | _ => (25, 15)

/-- The constants added after every second round (18:R380). -/
def streamRC (j : Nat) : W32 :=
  match j with
  | 1 => 0x71C42D9B
  | 2 => 0x2B8E56F3
  | 3 => 0xD04A9E17
  | 4 => 0x6F13B8C5
  | 5 => 0xA95D0462
  | _ => 0x1E7BC3A9

/-- Word i of a 128-bit value. -/
def word4 (v : W128) (i : Nat) : W32 := v.extractLsb' (32 * i) 32

structure Quad where
  x0 : W32
  x1 : W32
  x2 : W32
  x3 : W32
deriving DecidableEq, Repr

/-- One round (18:R380). -/
def streamRound (key : W128) (r : Nat) (q : Quad) : Quad :=
  let ab := streamRot r
  let x0 := q.x0 + q.x1
  let x3 := (q.x3 ^^^ x0).rotateLeft ab.1
  let x2 := q.x2 + x3
  let x1 := (q.x1 ^^^ x2).rotateLeft ab.2
  let x0 := x0 + x3
  let x2 := (x2 ^^^ x1).rotateLeft ab.1
  if r % 2 = 0 then
    let j := r / 2
    ⟨(x0 + word4 key (j % 4)) ^^^ streamRC j, x1 + word4 key ((1 + j) % 4), x2 + word4 key ((2 + j) % 4),
      x3 + word4 key ((3 + j) % 4)⟩
  else ⟨x0, x1, x2, x3⟩

/-- F(K, C) (18:R380). -/
def streamF (key ctr : W128) : W128 :=
  let q0 : Quad := ⟨word4 ctr 0 + word4 key 0, word4 ctr 1 + word4 key 1, word4 ctr 2 + word4 key 2, word4 ctr 3 + word4 key 3⟩
  let q := (List.range 12).foldl (fun q i => streamRound key (i + 1) q) q0
  q.x3 ++ q.x2 ++ q.x1 ++ q.x0

/-- Key and counter of a stream slot of the issuing context. -/
def slotKC (s : State) (k : Nat) : W128 × W128 := (cx s).ks.getD k (0, 0)

def execRkey (a b : BitVec 6) (g : BitVec 3) (n : BitVec 1) (k : BitVec 2) (s : State) : Host.Outcome State Fault Refusal :=
  .next (effectS s g n [a, b] 1 [.skey k.toNat (srcS s b ++ srcS s a)])

/-- RKEY.s mixes the partition's salt into the high half (18:R381). -/
def execRkeyS (a b : BitVec 6) (g : BitVec 3) (n : BitVec 1) (k : BitVec 2) (s : State) : Host.Outcome State Fault Refusal :=
  .next (effectS s g n [a, b] 1 [.skey k.toNat ((srcS s b ^^^ (getPart s (partOf s s.cur.core)).salt) ++ srcS s a)])

def execRctr (a b : BitVec 6) (g : BitVec 3) (n : BitVec 1) (k : BitVec 2) (s : State) : Host.Outcome State Fault Refusal :=
  .next (effectS s g n [a, b] 1 [.sctr k.toNat (srcS s b ++ srcS s a)])

def execRctrRd (d : BitVec 5) (a : BitVec 6) (g : BitVec 3) (n : BitVec 1) (k : BitVec 2) (s : State) :
    Host.Outcome State Fault Refusal :=
  .next (resultS s g n [a] 1 d
    (if (srcS s a).getLsbD 0 then (slotKC s k.toNat).2.extractLsb' 64 64 else (slotKC s k.toNat).2.extractLsb' 0 64))

def execRskip (a b : BitVec 6) (g : BitVec 3) (n : BitVec 1) (k : BitVec 2) (s : State) : Host.Outcome State Fault Refusal :=
  .next (effectS s g n [a, b] 1 [.sctr k.toNat ((slotKC s k.toNat).2 + (srcS s b ++ srcS s a))])

/-- RDRAW: the draw at c+4 and the counter at c+1, one operation of its slot (18:R381, 19:R389). -/
def execRdraw (d : BitVec 5) (g : BitVec 3) (n : BitVec 1) (k : BitVec 2) (s : State) : Host.Outcome State Fault Refusal :=
  .next (guarded s g n [] (fun s' =>
    let kc := slotKC s k.toNat
    let s1 := updCx s' (fun x => { x with pends := x.pends ++ [{ newPend s' 1 with effs := [.sctr k.toNat (kc.2 + 1)] }] })
    emit s1 { newPend s' 4 with dst := dstS s d.toNat, val := .w ((streamF kc.1 kc.2).extractLsb' 0 64), latch := some 0 }))

/-! ### Traps (19:R392 to R394) -/

/-- TRAP: its bundle has full effect, and the trap is taken at c+1 (19:R392). -/
def execTrap (a : BitVec 6) (g : BitVec 3) (n : BitVec 1) (s : State) : Host.Outcome State Fault Refusal :=
  .next (plainS s g n [a] (fun s' => emit s' { newPend s' 1 with swtrap := some ((srcS s a).setWidth 16) }))

/-- Everything the array still has to do, d cycles later (12:R263). -/
def Matrix.shift (m : Matrix) (d : Nat) : Matrix :=
  { m with
    rows := m.rows.map (fun r => { r with e := r.e + d })
    evts := m.evts.map (fun e => { e with due := e.due + d })
    busyLoad := m.busyLoad + d, useShd := m.useShd + d, useAct := m.useAct + d, busyFeed := m.busyFeed + d
    busyDrain := m.busyDrain + d, busyRoutine := m.busyRoutine + d, lastEnter := m.lastEnter + d }

/-- The main context resumes at cycle r: frozen redirections, loop levels, matrix events and the solo phase clock go on,
and the shadow is delivered from r on (19:R393, R388). The array stands still through the cycle of the ERET. -/
def resumeMain (k : Core) (r : Nat) : Core :=
  { k with
    clk := { k.clk with arr := 0 }
    tp := { k.tp with active := false, entered := false, resumed := some r, halted := false
                      shadow := k.tp.shadow.map (fun p => { p with due := p.due + r }) }
    main := { k.main with pc := k.tr.tpc, next := r, latchBase := r }
    mx := k.mx.shift (r - k.tp.t)
    urg := { k.urg with pends := [] }
    run := if k.tp.halted then .halted else .running }

/-- ERET.replay and ERET.fail: shadow and redirections are discarded, the core stops, and its sign-off carries the request
(19:R393). -/
def stopMain (k : Core) (replay : Bool) : Core :=
  { k with
    tp := { k.tp with active := false, entered := false, shadow := [], resumed := none, frozenPh := false, halted := false }
    main := { k.main with redirs := [], stall := none }
    urg := { k.urg with pends := [] }
    mx := k.mx.shift (k.clk.arch + 1 - k.tp.t)
    clk := { k.clk with arr := 0 }
    run := .stopped
    ph := { k.ph with absent := true, signed := true, sigPend := k.tr.tstate.getLsbD 0, sigP := 0, sigConds := [], sigErr := 0
                      sigReplay := k.ph.sigReplay || replay, sigFail := k.ph.sigFail || !replay
                      sigCause := k.tr.tcause.setWidth 8 } }

/-- Returning from a trap (19:R393); fn 0 resume, 1 replay, 2 fail. DEDUCED (entry 100): where a bad TPC makes the return a core fault,
the pops of its bundle are not made, as a bundle that traps pops nothing (03:R63); R393 does not say. -/
def eretWith (s : State) (fn : Nat) : State :=
  let c := s.cur.core
  let k := me s
  let ts := k.tr.tstate
  let fn := if fn = 0 ∧ ts.getLsbD 1 then 2 else fn
  let fn := if fn = 1 ∧ !ts.getLsbD 0 then 2 else fn
  let s1 := { applyPops s (headPop s.cur.head) with cur := { s.cur with left := true } }
  if fn = 0 then
    if k.tr.tpc.toNat % 4 ≠ 0 ∨ 2 ^ 48 ≤ k.tr.tpc.toNat then
      coreFault { s with cur := { s.cur with left := true } } c 0x07 (k.tr.tcause.setWidth 8) s.cur.pc
    else s1.upd c (fun k => resumeMain k (cyc s + 1))
  else
    let s2 := s1.upd c (fun k => stopMain k (fn = 1))
    if fn = 2 ∧ !ts.getLsbD 0 then
      match k.ph.gang with
      | some g => endTask s2 g 2 (k.tr.tcause.toNat % 256)
      | none => s2
    else s2

/-- ERET in the main context is illegal (03:R64); the check is the decoder's, and here it is a format trap. -/
def eretOp (s : State) (fn : Nat) : State :=
  if !isUrg s then issueFail s 0x01 0
  else if guardOn s (sylField s 4 3) (sylField s 3 1) then eretWith s fn else s

def execEret (s : State) : Host.Outcome State Fault Refusal := .next (eretOp s 0)

def execEretReplay (s : State) : Host.Outcome State Fault Refusal := .next (eretOp s 1)

def execEretFail (s : State) : Host.Outcome State Fault Refusal := .next (eretOp s 2)

/-- The core that a PREEMPT value names, where it is one of the partition's (19:R394). -/
def preemptTarget (s : State) (a : W64) : Option CoreRef :=
  let c : CoreRef := ⟨a.getLsbD 8, (a.extractLsb' 0 8).toNat⟩
  if hasCore s c ∧ partOf s c = partOf s s.cur.core ∧ (c.cc ∨ (s.core c).part.isSome) then some c else none

/-- PREEMPT (19:R394). A request for a core without a task is accepted and has no later effect (entry 21 of the log). -/
def execPreempt (d : BitVec 5) (a b : BitVec 6) (g : BitVec 3) (n : BitVec 1) (s : State) : Host.Outcome State Fault Refusal :=
  .next (
    match preemptTarget s (srcS s a) with
    | none => resultS s g n [a, b] 1 d 1
    | some c =>
      if (s.core c).tp.preempt.isSome then resultS s g n [a, b] 1 d 2
      else guarded s g n [a, b] (fun s' =>
        let s1 := if (s.core c).run = .idle ∨ (s.core c).run = .faulted then s'
          else s'.upd c (fun k => { k with tp := { k.tp with preempt := some (srcS s b, s.now + ticksTo (me s).clk 32) } })
        putS s1 1 d 0))

/-- FCST (15:R317): it is no held effect of 19:R389, so a trap does not keep it from its cycle c+1. -/
def execFcst (a : BitVec 6) (g : BitVec 3) (n : BitVec 1) (s : State) : Host.Outcome State Fault Refusal :=
  .next (plainS s g n [a] (fun s' => updMe s' (fun k => { k with ctl := { k.ctl with fcst := some ((srcS s a).setWidth 16) } })))

/-- The pre-emption may be delivered at this boundary, as far as the core's own state goes (19:R394): free-running code, a
slack window, a halted core or a solo phase, outside the urgent context; a running core is at a boundary only in a cycle in
which its next bundle may issue, and one without an entry address takes part in its phase until LENGTH (15:R312). -/
def preemptOpen (k : Core) : Bool :=
  !k.tp.active && (k.run = .halted || k.run = .running && decide (k.main.next ≤ k.clk.arch))
    && (!k.ph.inph && !(k.ph.absent && decide (k.ph.phc < k.ph.length)) || k.ph.solo)

/-- PREEMPT_DELIVERY (19:R394). -/
def execPreemptDelivery (s : State) : Host.Outcome State Fault Refusal :=
  .next (
    let c := s.ev.core
    let k := s.core c
    match k.tp.preempt with
    | some (v, t) =>
      if t ≤ s.now ∧ preemptOpen k then
        takeTrap (s.upd c (fun k => { k with tp := { k.tp with preempt := none }, clk := { k.clk with due := false } })) c 0x0F v 15 false []
      else s
    | none => s)

/-- URGENT_CONTEXT_ENTRY (19:R387): the urgent registers are reset, except k12 to k15, and the first bundle may issue. FFLAGS,
ISTAT and the QEMPTY bits, which 05:R94 does not name, stay (entry 101). -/
def execUrgentContextEntry (s : State) : Host.Outcome State Fault Refusal :=
  .next (
    let c := s.ev.core
    let k := s.core c
    if k.tp.active ∧ !k.tp.entered ∧ k.urg.next ≤ k.clk.arch then
      s.upd c (fun k => { k with
        tp := { k.tp with entered := true }
        urg := { pc := k.urg.pc, next := k.urg.next, latchBase := k.clk.arch
                 qempty := k.urg.qempty, fflags := k.urg.fflags, istat := k.urg.istat } })
    else s)

end Sys2Proof.Machine
end

