-- ==== Sys2Proof/Machine/VecLane.lean ====
section
/-!
DEFINITION. The integer and f32 lanes of the V slots (07:R137 to R147): one operation for all 128 lanes of the slot's own
file. Lane functions are here; how a result is sent, with its active lanes and flags, is in Operands.lean and Flags.lean.
-/

namespace Sys2Proof.Machine

/-! ### Lane by lane -/

def lanes1 {α : Type} (f : W32 → α) (a : Lanes) : List α := a.map f

def lanes2 {α : Type} (f : W32 → W32 → α) (a b : Lanes) : List α := List.zipWith f a b

def lanes3 {α : Type} (f : W32 → W32 → W32 → α) (a b c : Lanes) : List α := (a.zip (b.zip c)).map (fun p => f p.1 p.2.1 p.2.2)

/-- Left shift by the whole lane (07:R140). -/
def shlL (a b : W32) : W32 := if 32 ≤ b.toNat then 0 else a <<< b.toNat

def shrzL (a b : W32) : W32 := if 32 ≤ b.toNat then 0 else a >>> b.toNat

def shriL (a b : W32) : W32 := a.sshiftRight (min b.toNat 32)

def absL (a : W32) : W32 := if a.msb then 0 - a else a

/-- SAT into i32 (02:R34). -/
def satL (v : Int) : W32 := BitVec.ofInt 32 (satInt (-2147483648) 2147483647 v)

/-- The condition word of VCMPI (07:R141). -/
def cmpL (a b : W32) : W32 :=
  (if a = b then 1 else 0) + (if a.slt b then 2 else 0) + (if b.slt a then 4 else 0) + (if a.ult b then 8 else 0)
    + (if b.ult a then 16 else 0)

/-- The condition word of VFCMP, and the field of VPCMP (07:R145, 08:R163). -/
def fcmpV (x y : FV) : W32 :=
  if fisNan x || fisNan y then 8 else if flt x y then 2 else if flt y x then 4 else 1

/-- The class word of VFCLASS (07:R145). -/
def fclassL (a : W32) : W32 :=
  match fdec .f32 a with
  | .nan => 0x100
  | .inf n => if n then 0x001 else 0x080
  | .fin n m _ =>
    if m = 0 then (if n then 0x008 else 0x010)
    else if m < 2 ^ 23 then (if n then 0x004 else 0x020)
    else (if n then 0x002 else 0x040)

/-- The exponent that VFSCALE forms from b: truncated toward zero and limited to -1,024 to 1,024 (07:R146). -/
def scaleInt : FV → Int
  | .nan => 0
  | .inf n => if n then -1024 else 1024
  | .fin n m e =>
    let q : Int := (roundUnits .rz false m e false 0).1
    satInt (-1024) 1024 (if n then -q else q)

def fscaleL (rm : RM) (a b : W32) : FR :=
  let x := fdec .f32 a
  let y := fdec .f32 b
  if fisNan x || fisNan y then ⟨FT.nan .f32, 0⟩
  else match x with
    | .fin n m e => if m = 0 then ⟨a, 0⟩ else fround .f32 rm false n m (e + scaleInt y) false
    | _ => ⟨a, 0⟩

/-- VFABS and VFNEG: a NaN gives the canonical NaN (07:R147). -/
def fabsL (a : W32) : W32 := if fisNan (fdec .f32 a) then FT.nan .f32 else a &&& 0x7FFFFFFF

def fnegL (a : W32) : W32 := if fisNan (fdec .f32 a) then FT.nan .f32 else a ^^^ 0x80000000

/-- The rounding mode of the issuing context. -/
def rmNow (s : State) : RM := fmtRM (cx s).fmt

def f32v (a : W32) : FV := fdec .f32 a

/-! ### Sending -/

def vInt1 (s : State) (L : Nat) (w : BitVec 1) (d : BitVec 5) (a : BitVec 6) (f : W32 → W32) : State :=
  resultV s [a] L L w d (lanes1 f (srcV s false a)) 0

def vInt2 (s : State) (L : Nat) (w : BitVec 1) (d : BitVec 5) (a b : BitVec 6) (f : W32 → W32 → W32) : State :=
  resultV s [a, b] L L w d (lanes2 f (srcV s false a) (srcV s false b)) 0

def vInt3 (s : State) (L : Nat) (w : BitVec 1) (d : BitVec 5) (a b c : BitVec 6) (f : W32 → W32 → W32 → W32) : State :=
  resultV s [a, b, c] L L w d (lanes3 f (srcV s false a) (srcV s false b) (srcV s false c)) 0

def vFp1 (s : State) (L E : Nat) (w : BitVec 1) (d : BitVec 5) (a : BitVec 6) (f : W32 → FR) : State :=
  resultFP s [a] L E w d (lanes1 f (srcV s true a))

def vFp2 (s : State) (L E : Nat) (w : BitVec 1) (d : BitVec 5) (a b : BitVec 6) (f : W32 → W32 → FR) : State :=
  resultFP s [a, b] L E w d (lanes2 f (srcV s true a) (srcV s true b))

def vFp3 (s : State) (L : Nat) (w : BitVec 1) (d : BitVec 5) (a b c : BitVec 6) (f : W32 → W32 → W32 → FR) : State :=
  resultFP s [a, b, c] L L w d (lanes3 f (srcV s true a) (srcV s true b) (srcV s true c))

/-- A lane result that raises no flag. -/
def noFlag (v : W32) : FR := ⟨v, 0⟩

/-- Latency of VFDIV and VFSQRT: 20, and 24 under profile 1 (04:R79, R81). -/
def divLatency (s : State) : Nat := if (me s).profile = 1 then 24 else 20

/-! ### Integer lanes (07:R139 to R141) -/

def execVadd (w : BitVec 1) (d : BitVec 5) (a b : BitVec 6) (s : State) : Host.Outcome State Fault Refusal :=
  .next (vInt2 s 2 w d a b (fun x y => x + y))

def execVsub (w : BitVec 1) (d : BitVec 5) (a b : BitVec 6) (s : State) : Host.Outcome State Fault Refusal :=
  .next (vInt2 s 2 w d a b (fun x y => x - y))

def execVmul (w : BitVec 1) (d : BitVec 5) (a b : BitVec 6) (s : State) : Host.Outcome State Fault Refusal :=
  .next (vInt2 s 3 w d a b (fun x y => x * y))

def execVmulhi (w : BitVec 1) (d : BitVec 5) (a b : BitVec 6) (s : State) : Host.Outcome State Fault Refusal :=
  .next (vInt2 s 3 w d a b (fun x y => BitVec.ofInt 32 (x.toInt * y.toInt / 2 ^ 32)))

def execVmulhz (w : BitVec 1) (d : BitVec 5) (a b : BitVec 6) (s : State) : Host.Outcome State Fault Refusal :=
  .next (vInt2 s 3 w d a b (fun x y => BitVec.ofNat 32 (x.toNat * y.toNat / 2 ^ 32)))

def execVand (w : BitVec 1) (d : BitVec 5) (a b : BitVec 6) (s : State) : Host.Outcome State Fault Refusal :=
  .next (vInt2 s 2 w d a b (fun x y => x &&& y))

def execVor (w : BitVec 1) (d : BitVec 5) (a b : BitVec 6) (s : State) : Host.Outcome State Fault Refusal :=
  .next (vInt2 s 2 w d a b (fun x y => x ||| y))

def execVxor (w : BitVec 1) (d : BitVec 5) (a b : BitVec 6) (s : State) : Host.Outcome State Fault Refusal :=
  .next (vInt2 s 2 w d a b (fun x y => x ^^^ y))

def execVandn (w : BitVec 1) (d : BitVec 5) (a b : BitVec 6) (s : State) : Host.Outcome State Fault Refusal :=
  .next (vInt2 s 2 w d a b (fun x y => x &&& ~~~ y))

def execVshl (w : BitVec 1) (d : BitVec 5) (a b : BitVec 6) (s : State) : Host.Outcome State Fault Refusal :=
  .next (vInt2 s 2 w d a b shlL)

def execVshri (w : BitVec 1) (d : BitVec 5) (a b : BitVec 6) (s : State) : Host.Outcome State Fault Refusal :=
  .next (vInt2 s 2 w d a b shriL)

def execVshrz (w : BitVec 1) (d : BitVec 5) (a b : BitVec 6) (s : State) : Host.Outcome State Fault Refusal :=
  .next (vInt2 s 2 w d a b shrzL)

def execVmini (w : BitVec 1) (d : BitVec 5) (a b : BitVec 6) (s : State) : Host.Outcome State Fault Refusal :=
  .next (vInt2 s 2 w d a b (fun x y => if y.slt x then y else x))

def execVminz (w : BitVec 1) (d : BitVec 5) (a b : BitVec 6) (s : State) : Host.Outcome State Fault Refusal :=
  .next (vInt2 s 2 w d a b (fun x y => if y.ult x then y else x))

def execVmaxi (w : BitVec 1) (d : BitVec 5) (a b : BitVec 6) (s : State) : Host.Outcome State Fault Refusal :=
  .next (vInt2 s 2 w d a b (fun x y => if x.slt y then y else x))

def execVmaxz (w : BitVec 1) (d : BitVec 5) (a b : BitVec 6) (s : State) : Host.Outcome State Fault Refusal :=
  .next (vInt2 s 2 w d a b (fun x y => if x.ult y then y else x))

def execVaddsi (w : BitVec 1) (d : BitVec 5) (a b : BitVec 6) (s : State) : Host.Outcome State Fault Refusal :=
  .next (vInt2 s 2 w d a b (fun x y => satL (x.toInt + y.toInt)))

def execVsubsi (w : BitVec 1) (d : BitVec 5) (a b : BitVec 6) (s : State) : Host.Outcome State Fault Refusal :=
  .next (vInt2 s 2 w d a b (fun x y => satL (x.toInt - y.toInt)))

def execVcmpi (w : BitVec 1) (d : BitVec 5) (a b : BitVec 6) (s : State) : Host.Outcome State Fault Refusal :=
  .next (vInt2 s 2 w d a b cmpL)

def execVabsi (w : BitVec 1) (d : BitVec 5) (a : BitVec 6) (s : State) : Host.Outcome State Fault Refusal :=
  .next (vInt1 s 2 w d a absL)

def execVclz (w : BitVec 1) (d : BitVec 5) (a : BitVec 6) (s : State) : Host.Outcome State Fault Refusal :=
  .next (vInt1 s 2 w d a (fun x => BitVec.ofNat 32 (clzBits x 32)))

def execVpopc (w : BitVec 1) (d : BitVec 5) (a : BitVec 6) (s : State) : Host.Outcome State Fault Refusal :=
  .next (vInt1 s 2 w d a (fun x => BitVec.ofNat 32 (popBits x 32)))

def execVmad (w : BitVec 1) (d : BitVec 5) (a b c : BitVec 6) (s : State) : Host.Outcome State Fault Refusal :=
  .next (vInt3 s 3 w d a b c (fun x y z => x * y + z))

def execVsel (w : BitVec 1) (d : BitVec 5) (a b c : BitVec 6) (s : State) : Host.Outcome State Fault Refusal :=
  .next (vInt3 s 2 w d a b c (fun x y z => if z ≠ 0 then x else y))

/-! ### f32 lanes (07:R142 to R147) -/

def execVfadd (w : BitVec 1) (d : BitVec 5) (a b : BitVec 6) (s : State) : Host.Outcome State Fault Refusal :=
  .next (vFp2 s 4 4 w d a b (fun x y => fadd .f32 (rmNow s) false (f32v x) (f32v y)))

def execVfsub (w : BitVec 1) (d : BitVec 5) (a b : BitVec 6) (s : State) : Host.Outcome State Fault Refusal :=
  .next (vFp2 s 4 4 w d a b (fun x y => fadd .f32 (rmNow s) false (f32v x) (fneg (f32v y))))

def execVfmul (w : BitVec 1) (d : BitVec 5) (a b : BitVec 6) (s : State) : Host.Outcome State Fault Refusal :=
  .next (vFp2 s 4 4 w d a b (fun x y => fmul .f32 (rmNow s) false (f32v x) (f32v y)))

def execVfmin (w : BitVec 1) (d : BitVec 5) (a b : BitVec 6) (s : State) : Host.Outcome State Fault Refusal :=
  .next (vFp2 s 2 2 w d a b (fun x y => noFlag (fminCode .f32 x y)))

def execVfmax (w : BitVec 1) (d : BitVec 5) (a b : BitVec 6) (s : State) : Host.Outcome State Fault Refusal :=
  .next (vFp2 s 2 2 w d a b (fun x y => noFlag (fmaxCode .f32 x y)))

def execVfcmp (w : BitVec 1) (d : BitVec 5) (a b : BitVec 6) (s : State) : Host.Outcome State Fault Refusal :=
  .next (vFp2 s 2 2 w d a b (fun x y => noFlag (fcmpV (f32v x) (f32v y))))

def execVfscale (w : BitVec 1) (d : BitVec 5) (a b : BitVec 6) (s : State) : Host.Outcome State Fault Refusal :=
  .next (vFp2 s 2 2 w d a b (fun x y => fscaleL (rmNow s) x y))

def execVfdiv (w : BitVec 1) (d : BitVec 5) (a b : BitVec 6) (s : State) : Host.Outcome State Fault Refusal :=
  .next (vFp2 s (divLatency s) 20 w d a b (fun x y => fdiv .f32 (rmNow s) false (f32v x) (f32v y)))

def execVfabs (w : BitVec 1) (d : BitVec 5) (a : BitVec 6) (s : State) : Host.Outcome State Fault Refusal :=
  .next (vFp1 s 2 2 w d a (fun x => noFlag (fabsL x)))

def execVfneg (w : BitVec 1) (d : BitVec 5) (a : BitVec 6) (s : State) : Host.Outcome State Fault Refusal :=
  .next (vFp1 s 2 2 w d a (fun x => noFlag (fnegL x)))

def execVfclass (w : BitVec 1) (d : BitVec 5) (a : BitVec 6) (s : State) : Host.Outcome State Fault Refusal :=
  .next (vFp1 s 2 2 w d a (fun x => noFlag (fclassL x)))

def execVfsqrt (w : BitVec 1) (d : BitVec 5) (a : BitVec 6) (s : State) : Host.Outcome State Fault Refusal :=
  .next (vFp1 s (divLatency s) 20 w d a (fun x => fsqrt (rmNow s) (f32v x)))

def execVfma (w : BitVec 1) (d : BitVec 5) (a b c : BitVec 6) (s : State) : Host.Outcome State Fault Refusal :=
  .next (vFp3 s 4 w d a b c (fun x y z => ffma .f32 (rmNow s) false (f32v x) (f32v y) (f32v z)))

def execVfms (w : BitVec 1) (d : BitVec 5) (a b c : BitVec 6) (s : State) : Host.Outcome State Fault Refusal :=
  .next (vFp3 s 4 w d a b c (fun x y z => ffma .f32 (rmNow s) false (f32v x) (f32v y) (fneg (f32v z))))

def execVfnma (w : BitVec 1) (d : BitVec 5) (a b c : BitVec 6) (s : State) : Host.Outcome State Fault Refusal :=
  .next (vFp3 s 4 w d a b c (fun x y z => ffma .f32 (rmNow s) false (fneg (f32v x)) (f32v y) (f32v z)))

end Sys2Proof.Machine
end

