-- ==== Sys2Proof/Machine/FuncTables.lean ====
section
/-!
DEFINITION. The frozen function tables (09:R177 to R187): coefficients, evaluation, special inputs, and the sequences of
VSIN, VCOS, VTANH, VSIGM and VEXP. Every rounding is to nearest even.
-/

namespace Sys2Proof.Machine

/-! ### The coefficient tables -/

def tabRcp0 : List (Int × Int × Int) :=
  [(67108864, -131010, 3910), (65075262, -123194, 3570), (63161284, -116057, 3269), (61356676, -109522, 3000),
   (59652324, -103524, 2760), (58040099, -98006, 2545), (56512728, -92917, 2352), (55063683, -88215, 2178),
   (53687091, -83860, 2020), (52377650, -79821, 1878), (51130563, -76066, 1748), (49941480, -72571, 1631),
   (48806447, -69310, 1523), (47721859, -66264, 1425), (46684427, -63415, 1335), (45691141, -60746, 1252)]

def tabRcp1 : List (Int × Int × Int) :=
  [(44739243, -58241, 1176), (43826197, -55890, 1107), (42949673, -53676, 1042), (42107523, -51593, 983),
   (41297762, -49628, 928), (40518559, -47772, 876), (39768216, -46020, 829), (39045157, -44362, 785),
   (38347922, -42792, 744), (37675152, -41304, 706), (37025580, -39892, 670), (36398028, -38552, 637),
   (35791394, -37278, 606), (35204650, -36066, 577), (34636833, -34912, 550), (34087042, -33812, 524)]

/-- The coefficients of VRCP (09:R184). -/
def tabRcp : List (Int × Int × Int) := tabRcp0 ++ tabRcp1

def tabRsq0 : List (Int × Int × Int) :=
  [(67108864, -65517, 1478), (66084241, -62562, 1370), (65105161, -59824, 1273), (64168347, -57279, 1185),
   (63270844, -54909, 1105), (62409976, -52699, 1033), (61583317, -50633, 967), (60788660, -48699, 907),
   (60023993, -46884, 852), (59287474, -45180, 802), (58577419, -43577, 756), (57892279, -42066, 713),
   (57230632, -40641, 674), (56591163, -39293, 637), (55972662, -38019, 603), (55374006, -36812, 572)]

def tabRsq1 : List (Int × Int × Int) :=
  [(54794158, -35668, 543), (54232152, -34582, 516), (53687091, -33550, 491), (53158141, -32568, 467),
   (52644524, -31634, 446), (52145513, -30743, 425), (51660428, -29893, 406), (51188633, -29082, 388),
   (50729533, -28306, 371), (50282568, -27565, 355), (49847213, -26855, 340), (49422973, -26175, 326),
   (49009385, -25524, 313), (48606009, -24899, 300), (48212431, -24299, 288), (47828262, -23723, 277)]

/-- The coefficients of VRSQ (09:R184). -/
def tabRsq : List (Int × Int × Int) := tabRsq0 ++ tabRsq1

def tabExp20 : List (Int × Int × Int) :=
  [(67108864, 90848, 995), (68578357, 92838, 1016), (70080027, 94871, 1039), (71614580, 96949, 1061),
   (73182735, 99071, 1085), (74785228, 101241, 1108), (76422812, 103457, 1133), (78096253, 105722, 1158),
   (79806339, 108038, 1183), (81553870, 110403, 1209), (83339667, 112821, 1235), (85164568, 115292, 1262),
   (87029429, 117816, 1290), (88935126, 120396, 1318), (90882551, 123032, 1347), (92872620, 125726, 1377)]

def tabExp21 : List (Int × Int × Int) :=
  [(94906266, 128479, 1407), (96984442, 131292, 1438), (99108125, 134168, 1469), (101278310, 137106, 1501),
   (103496017, 140108, 1534), (105762284, 143175, 1568), (108078177, 146311, 1602), (110444781, 149515, 1637),
   (112863206, 152788, 1673), (115334589, 156134, 1710), (117860087, 159553, 1747), (120440887, 163047, 1785),
   (123078199, 166617, 1824), (125773261, 170266, 1864), (128527337, 173994, 1905), (131341719, 177804, 1947)]

/-- The coefficients of VEXP2 (09:R184). -/
def tabExp2 : List (Int × Int × Int) := tabExp20 ++ tabExp21

def tabLog20 : List (Int × Int × Int) :=
  [(0, 189066, -2864), (2979239, 183339, -2696), (5869532, 177949, -2542), (8676037, 172866, -2401),
   (11403474, 168065, -2271), (14056177, 163524, -2152), (16638134, 159221, -2041), (19153019, 155140, -1939),
   (21604229, 151262, -1845), (23994909, 147574, -1757), (26327977, 144060, -1675), (28606143, 140711, -1599),
   (30831934, 137514, -1528), (33007703, 134458, -1461), (35135648, 131535, -1399), (37217828, 128737, -1341)]

def tabLog21 : List (Int × Int × Int) :=
  [(39256169, 126055, -1286), (41252479, 123484, -1235), (43208457, 121014, -1186), (45125701, 118642, -1141),
   (47005714, 116361, -1098), (48849915, 114165, -1057), (50659643, 112052, -1019), (52436163, 110014, -982),
   (54180672, 108050, -948), (55894303, 106154, -915), (57578130, 104324, -884), (59233172, 102557, -855),
   (60860398, 100847, -827), (62460725, 99194, -800), (64035030, 97595, -775), (65584145, 96045, -750)]

/-- The coefficients of VLOG2 (09:R184). -/
def tabLog2 : List (Int × Int × Int) := tabLog20 ++ tabLog21

/-! ### Evaluation (09:R179 to R181) -/

/-- y of R180 for the 23-bit argument F. -/
def tabEval (t : List (Int × Int × Int)) (F : Nat) : Int :=
  let r := t.getD (F / 2 ^ 18) (0, 0, 0)
  let D : Nat := F % 2 ^ 18
  let sq : Nat := D * D / 2 ^ 18
  let tl := (r.2.1 * (D : Int)) / (2 ^ 18 : Int)
  let tq := (r.2.2 * (sq : Int)) / (2 ^ 18 : Int)
  r.1 + (16 : Int) * (tl + tq)

/-- |x| = m * 2^e with 1 <= m < 2, as F and e. -/
def splitNorm (m : Nat) (e : Int) : Nat × Int :=
  let k := m.log2
  let f : Nat := if k ≤ 23 then m * 2 ^ (23 - k) else m / 2 ^ (k - 23)
  (f % 2 ^ 23, e + (k : Int))

/-- An integer times 2^e rounded into f32. -/
def rneInt (v : Int) (e : Int) : FR := fput .f32 .rne false (fofInt v e)

def rcpL (a : W32) : FR :=
  match f32v a with
  | .nan => noFlag (FT.nan .f32)
  | .inf s => noFlag (fzero .f32 s)
  | .fin s m e =>
    if m = 0 then ⟨fsign .f32 s (FT.inf .f32).toNat, fDZ⟩
    else
      let p := splitNorm m e
      fround .f32 .rne false s (tabEval tabRcp p.1).natAbs (-26 - p.2) false

def rsqL (a : W32) : FR :=
  match f32v a with
  | .nan => noFlag (FT.nan .f32)
  | .inf s => if s then ⟨FT.nan .f32, fINV⟩ else noFlag 0
  | .fin s m e =>
    if m = 0 then ⟨fsign .f32 s (FT.inf .f32).toNat, fDZ⟩
    else if s then ⟨FT.nan .f32, fINV⟩
    else
      let p := splitNorm m e
      let y := tabEval tabRsq p.1
      if p.2 % 2 = 0 then rneInt y (-26 - p.2 / 2)
      else rneInt (y * 11863283 / (2 ^ 24 : Int)) (-26 - (p.2 - 1) / 2)

/-- floor(x * 2^23). -/
def floor23 (s : Bool) (m : Nat) (e : Int) : Int :=
  let v : Int := if s then -(m : Int) else m
  if -23 ≤ e then v * (2 ^ (e + 23).toNat : Nat) else v / ((2 ^ (-23 - e).toNat : Nat) : Int)

/-- Beyond 1,000 in magnitude n changes nothing of the rounded result. -/
def exp2L (a : W32) : FR :=
  match f32v a with
  | .nan => noFlag (FT.nan .f32)
  | .inf s => noFlag (if s then 0 else FT.inf .f32)
  | .fin s m e =>
    let x := floor23 s m e
    let n := satInt (-1000) 1000 (x / (2 ^ 23 : Int))
    rneInt (tabEval tabExp2 (x % (2 ^ 23 : Int)).toNat) (n - 26)

def log2L (a : W32) : FR :=
  match f32v a with
  | .nan => noFlag (FT.nan .f32)
  | .inf s => if s then ⟨FT.nan .f32, fINV⟩ else noFlag (FT.inf .f32)
  | .fin s m e =>
    if m = 0 then ⟨0xFF800000, fDZ⟩
    else if s then ⟨FT.nan .f32, fINV⟩
    else
      let p := splitNorm m e
      rneInt (p.2 * (2 ^ 26 : Int) + tabEval tabLog2 p.1) (-26)

/-! ### The derived functions (09:R185 to R187) -/

def kL : FV := f32v 0x3FB8AA3B
def oneV : FV := f32v 0x3F800000
def twoV : FV := f32v 0x40000000

def mulRne (a b : FV) : FR := fmul .f32 .rne false a b

def addRneV (a b : FV) : FR := fadd .f32 .rne false a b

def expL (a : W32) : FR :=
  if fisNan (f32v a) then noFlag (FT.nan .f32) else exp2L (mulRne (f32v a) kL).v

def sigmL (a : W32) : FR :=
  if fisNan (f32v a) then noFlag (FT.nan .f32)
  else
    let t := mulRne (fneg (f32v a)) kL
    let u := exp2L t.v
    rcpL (addRneV oneV (f32v u.v)).v

def tanhL (a : W32) : FR :=
  if fisNan (f32v a) then noFlag (FT.nan .f32)
  else
    let t := mulRne (f32v (a &&& 0x7FFFFFFF)) kL
    let t2 := mulRne twoV (f32v t.v)
    let u := exp2L t2.v
    let w := rcpL (addRneV (f32v u.v) oneV).v
    let r := ffma .f32 .rne false (fneg twoV) (f32v w.v) oneV
    ⟨(r.v &&& 0x7FFFFFFF) ||| (a &&& 0x80000000), r.f⟩

/-- RNE(p*z + c). -/
def polyStep (p : W32) (z c : FV) : FR := ffma .f32 .rne false (f32v p) z c

/-- k, r and the two chains of R187. -/
def circular (s : Bool) (m : Nat) (e : Int) : Int × FR × FR :=
  let u := (roundUnits .rne s m (e + 1) false 0).1
  let k : Int := if s then -(u : Int) else u
  let ts := [FV.fin s m e, fofInt (-k) (-1)]
  let r := fofInt (fsumAt (fexp0 ts) ts) (fexp0 ts)
  let z := f32v (mulRne r r).v
  let p1 := polyStep 0xBF196966 z (f32v 0x402335E3)
  let p2 := polyStep p1.v z (fneg (f32v 0x40A55DE7))
  let p3 := polyStep p2.v z (f32v 0x40490FDB)
  let sn := mulRne (f32v p3.v) r
  let q1 := polyStep 0x3E70FA83 z (fneg (f32v 0x3FAAE9E4))
  let q2 := polyStep q1.v z (f32v 0x4081E0F8)
  let q3 := polyStep q2.v z (fneg (f32v 0x409DE9E6))
  let cs := polyStep q3.v z oneV
  (k % 4, sn, cs)

def negFR (r : FR) : FR := ⟨r.v ^^^ 0x80000000, r.f⟩

/-- A zero result takes the given sign. -/
def zeroSign (neg : Bool) (r : FR) : FR := if r.v &&& 0x7FFFFFFF = 0 then ⟨fzero .f32 neg, r.f⟩ else r

def sinL (a : W32) : FR :=
  match f32v a with
  | .nan => noFlag (FT.nan .f32)
  | .inf _ => ⟨FT.nan .f32, fINV⟩
  | .fin s m e =>
    let c := circular s m e
    zeroSign s (if c.1 = 0 then c.2.1 else if c.1 = 1 then c.2.2 else if c.1 = 2 then negFR c.2.1 else negFR c.2.2)

def cosL (a : W32) : FR :=
  match f32v a with
  | .nan => noFlag (FT.nan .f32)
  | .inf _ => ⟨FT.nan .f32, fINV⟩
  | .fin s m e =>
    let c := circular s m e
    zeroSign false (if c.1 = 0 then c.2.2 else if c.1 = 1 then negFR c.2.1 else if c.1 = 2 then negFR c.2.2 else c.2.1)

/-! ### The instructions -/

def execVrcp (w : BitVec 1) (d : BitVec 5) (a : BitVec 6) (s : State) : Host.Outcome State Fault Refusal :=
  .next (vFp1 s 10 10 w d a rcpL)

def execVrsq (w : BitVec 1) (d : BitVec 5) (a : BitVec 6) (s : State) : Host.Outcome State Fault Refusal :=
  .next (vFp1 s 10 10 w d a rsqL)

def execVexp2 (w : BitVec 1) (d : BitVec 5) (a : BitVec 6) (s : State) : Host.Outcome State Fault Refusal :=
  .next (vFp1 s 10 10 w d a exp2L)

def execVlog2 (w : BitVec 1) (d : BitVec 5) (a : BitVec 6) (s : State) : Host.Outcome State Fault Refusal :=
  .next (vFp1 s 10 10 w d a log2L)

def execVsin (w : BitVec 1) (d : BitVec 5) (a : BitVec 6) (s : State) : Host.Outcome State Fault Refusal :=
  .next (vFp1 s 10 10 w d a sinL)

def execVcos (w : BitVec 1) (d : BitVec 5) (a : BitVec 6) (s : State) : Host.Outcome State Fault Refusal :=
  .next (vFp1 s 10 10 w d a cosL)

def execVtanh (w : BitVec 1) (d : BitVec 5) (a : BitVec 6) (s : State) : Host.Outcome State Fault Refusal :=
  .next (vFp1 s 10 10 w d a tanhL)

def execVsigm (w : BitVec 1) (d : BitVec 5) (a : BitVec 6) (s : State) : Host.Outcome State Fault Refusal :=
  .next (vFp1 s 10 10 w d a sigmL)

def execVexp (w : BitVec 1) (d : BitVec 5) (a : BitVec 6) (s : State) : Host.Outcome State Fault Refusal :=
  .next (vFp1 s 10 10 w d a expL)

end Sys2Proof.Machine
end

