-- ==== Sys2Proof/Machine/Packed.lean ====
section
/-!
DEFINITION. The element view of FMT.VTYPE (08:R157, R158) and packed arithmetic (08:R159 to R163).
-/

namespace Sys2Proof.Machine

/-- What an element code means: a floating-point format, or a two's complement or plain integer of a width, worth its
value times 2^-frac (02:R25). -/
inductive ElemTy where
  | fp (t : FT)
  | int (w : Nat) (signed : Bool) (frac : Nat)
deriving DecidableEq, Repr

/-- An element type with the width of its container. -/
structure Elem where
  cw : Nat
  ty : ElemTy
deriving DecidableEq, Repr

/-- Sub-elements per lane. -/
def Elem.n (e : Elem) : Nat := 32 / e.cw

/-- The type codes of 08:R157. -/
def elemOf (vt : Nat) : Option Elem :=
  match vt with
  | 0 => some ⟨32, .fp .f32⟩
  | 1 => some ⟨16, .fp .bf16⟩
  | 2 => some ⟨8, .fp .e4m3⟩
  | 3 => some ⟨8, .fp .e5m2⟩
  | 4 => some ⟨4, .fp .e2m1⟩
  | 5 => some ⟨8, .int 8 true 0⟩
  | 6 => some ⟨8, .int 8 false 0⟩
  | 7 => some ⟨16, .int 16 true 0⟩
  | 8 => some ⟨8, .int 8 true 6⟩
  | 9 => some ⟨8, .int 6 true 4⟩
  | 10 => some ⟨4, .int 4 true 2⟩
  | 11 => some ⟨4, .fp .e2m1⟩
  | 12 => some ⟨8, .fp .e4m3⟩
  | 13 => some ⟨4, .int 4 true 0⟩
  | _ => none

/-- The low w bits of a word, zero-extended. -/
def lowBits (w : Nat) (c : W32) : W32 := BitVec.ofNat 32 (c.toNat % 2 ^ w)

/-- The integer of a code of w bits. -/
def intCode (w : Nat) (signed : Bool) (c : W32) : Int :=
  let n := c.toNat % 2 ^ w
  if signed && decide (2 ^ (w - 1) ≤ n) then (n : Int) - ((2 ^ w : Nat) : Int) else (n : Int)

/-- The low w bits of an integer. -/
def codeInt (w : Nat) (v : Int) : W32 := BitVec.ofNat 32 (v % ((2 ^ w : Nat) : Int)).toNat

def intLo (w : Nat) (signed : Bool) : Int := if signed then -((2 ^ (w - 1) : Nat) : Int) else 0

def intHi (w : Nat) (signed : Bool) : Int := if signed then ((2 ^ (w - 1) : Nat) : Int) - 1 else ((2 ^ w : Nat) : Int) - 1

/-- Sub-element j of a lane. -/
def Elem.sub (e : Elem) (l : W32) (j : Nat) : W32 := lowBits e.cw (l >>> (e.cw * j))

/-- The value v(x) of an element code (02:R22, R25). -/
def Elem.val (e : Elem) (c : W32) : FV :=
  match e.ty with
  | .fp t => fdec t c
  | .int w sg fr => fofInt (intCode w sg c) (-(fr : Int))

/-- A lane from its sub-elements, lowest first. -/
def Elem.join (e : Elem) (l : List W32) : W32 := l.foldr (fun c a => (a <<< e.cw) ||| lowBits e.cw c) 0

def Elem.joinFR (e : Elem) (l : List FR) : FR := ⟨e.join (l.map (·.v)), allFlags l⟩

/-- A lane with sub-element p replaced (08:R158). -/
def Elem.insert (e : Elem) (old : W32) (p : Nat) (c : W32) : W32 :=
  (old &&& ~~~ (lowBits e.cw 0xFFFFFFFF <<< (e.cw * p))) ||| (lowBits e.cw c <<< (e.cw * p))

/-- A value written into an element, rounded once (02:R29, R30). -/
def Elem.put (e : Elem) (rm : RM) (sat : Bool) (v : FV) : FR :=
  match e.ty with
  | .fp t => fput t rm sat v
  | .int w sg fr =>
    let r := fconvInt rm (intLo w sg) (intHi w sg) (fscale2 v fr)
    ⟨codeInt w r.1, r.2⟩

/-- An unaccepted VTYPE: 0 in every lane, with invalid (08:R158). -/
def badType : List FR := List.replicate 128 ⟨0, fINV⟩

/-- The element view of the issuing context's VTYPE, among the accepted codes. -/
def vtypeElem (s : State) (ok : Nat → Bool) : Option Elem :=
  if ok (fmtVtype (cx s).fmt) then elemOf (fmtVtype (cx s).fmt) else none

/-- A lane-wise result under the element view, or the result of an unaccepted type. -/
def withElem (s : State) (ok : Nat → Bool) (f : Elem → List FR) : List FR :=
  match vtypeElem s ok with
  | some e => f e
  | none => badType

def anyVtype : Nat → Bool := fun _ => true

/-! ### Packed arithmetic -/

/-- Two-source packed arithmetic on one pair of sub-elements. -/
def packed2 (fp : FT → FV → FV → FR) (int : Int → Int → Int) (e : Elem) (x y : W32) : FR :=
  match e.ty with
  | .fp t => fp t (fdec t x) (fdec t y)
  | .int w sg _ => ⟨codeInt w (int (intCode w sg x) (intCode w sg y)), 0⟩

def packedLane2 (f : Elem → W32 → W32 → FR) (e : Elem) (a b : W32) : FR :=
  e.joinFR ((List.range e.n).map (fun j => f e (e.sub a j) (e.sub b j)))

def packedLane3 (f : Elem → W32 → W32 → W32 → FR) (e : Elem) (a b c : W32) : FR :=
  e.joinFR ((List.range e.n).map (fun j => f e (e.sub a j) (e.sub b j) (e.sub c j)))

/-- A packed operation of two sources, latency 3. -/
def vPack2 (s : State) (w : BitVec 1) (d : BitVec 5) (a b : BitVec 6) (f : Elem → W32 → W32 → FR) : State :=
  resultFP s [a, b] 3 3 w d (withElem s anyVtype (fun e => lanes2 (packedLane2 f e) (srcV s false a) (srcV s false b)))

def satNow (s : State) : Bool := fmtSat (cx s).fmt

def execVpadd (w : BitVec 1) (d : BitVec 5) (a b : BitVec 6) (s : State) : Host.Outcome State Fault Refusal :=
  .next (vPack2 s w d a b (packed2 (fun t x y => fadd t (rmNow s) (satNow s) x y) (fun x y => x + y)))

def execVpsub (w : BitVec 1) (d : BitVec 5) (a b : BitVec 6) (s : State) : Host.Outcome State Fault Refusal :=
  .next (vPack2 s w d a b (packed2 (fun t x y => fadd t (rmNow s) (satNow s) x (fneg y)) (fun x y => x - y)))

def execVpmul (w : BitVec 1) (d : BitVec 5) (a b : BitVec 6) (s : State) : Host.Outcome State Fault Refusal :=
  .next (vPack2 s w d a b (packed2 (fun t x y => fmul t (rmNow s) (satNow s) x y) (fun x y => x * y)))

/-- VPFMA on one triple. -/
def packedFma (rm : RM) (sat : Bool) (e : Elem) (x y z : W32) : FR :=
  match e.ty with
  | .fp t => ffma t rm sat (fdec t x) (fdec t y) (fdec t z)
  | .int w sg _ => ⟨codeInt w (intCode w sg x * intCode w sg y + intCode w sg z), 0⟩

def execVpfma (w : BitVec 1) (d : BitVec 5) (a b c : BitVec 6) (s : State) : Host.Outcome State Fault Refusal :=
  .next (resultFP s [a, b, c] 3 3 w d (withElem s anyVtype (fun e =>
    lanes3 (packedLane3 (packedFma (rmNow s) (satNow s)) e) (srcV s false a) (srcV s false b) (srcV s false c))))

/-- The flag of a NaN result of VPMIN or VPMAX (08:R160). -/
def minmaxFlag (t : FT) (x y : W32) : W8 :=
  if (fisNan (fdec t x) || fisNan (fdec t y)) && (t = .e4m3 || t = .e5m2) then fNNAN else 0

def packedMin (e : Elem) (x y : W32) : FR :=
  match e.ty with
  | .fp t => ⟨fminCode t x y, minmaxFlag t x y⟩
  | .int w sg _ => ⟨codeInt w (min (intCode w sg x) (intCode w sg y)), 0⟩

def packedMax (e : Elem) (x y : W32) : FR :=
  match e.ty with
  | .fp t => ⟨fmaxCode t x y, minmaxFlag t x y⟩
  | .int w sg _ => ⟨codeInt w (max (intCode w sg x) (intCode w sg y)), 0⟩

def execVpmin (w : BitVec 1) (d : BitVec 5) (a b : BitVec 6) (s : State) : Host.Outcome State Fault Refusal :=
  .next (vPack2 s w d a b packedMin)

def execVpmax (w : BitVec 1) (d : BitVec 5) (a b : BitVec 6) (s : State) : Host.Outcome State Fault Refusal :=
  .next (vPack2 s w d a b packedMax)

/-- The condition field of VPCMP (08:R163). -/
def packedCmp (e : Elem) (x y : W32) : FR :=
  match e.ty with
  | .fp t => noFlag (fcmpV (fdec t x) (fdec t y))
  | .int w sg _ =>
    let p := intCode w sg x
    let q := intCode w sg y
    noFlag (if p = q then 1 else if p < q then 2 else 4)

def execVpcmp (w : BitVec 1) (d : BitVec 5) (a b : BitVec 6) (s : State) : Host.Outcome State Fault Refusal :=
  .next (vPack2 s w d a b packedCmp)

/-- The exact dot product of a lane and its addend, rounded once into f32 (08:R162). DEDUCED (entry 100): a zero product has the sign of
02:R42 for every type; that integers have no signed zero is said of the array alone (12:R239). -/
def dotLane (rm : RM) (e : Elem) (a b c : W32) : FR :=
  let xs := (List.range e.n).map (fun j => e.val (e.sub a j))
  let ys := (List.range e.n).map (fun j => e.val (e.sub b j))
  let ps := List.zipWith fprod xs ys
  let z := f32v c
  fsum .f32 rm false (xs.any fisNan || ys.any fisNan || fisNan z) (ps.any (·.2)) (ps.map (·.1) ++ [z])

def execVpdot (w : BitVec 1) (d : BitVec 5) (a b c : BitVec 6) (s : State) : Host.Outcome State Fault Refusal :=
  .next (resultFP s [a, b, c] 5 5 w d (withElem s anyVtype (fun e =>
    lanes3 (dotLane (rmNow s) e) (srcV s false a) (srcV s false b) (srcV s true c))))

end Sys2Proof.Machine
end

