-- ==== Sys2Proof/Machine/Convert.lean ====
section
/-!
DEFINITION. Conversions, scaled packing and block scales of the V slots (08:R164 to R170).
-/

namespace Sys2Proof.Machine

/-- The old value of the destination register, which an insert form reads at c+0 (08:R158). -/
def oldLanes (s : State) (d : BitVec 5) : Lanes := readV (cx s) (isY s) d.toNat

/-- An insert of element results into part p of every lane. -/
def insertLanes (s : State) (d : BitVec 5) (e : Elem) (p : Nat) (l : List FR) : List FR :=
  List.zipWith (fun o r => ⟨e.insert o p r.v, r.f⟩) (oldLanes s d) l

/-- The scale code of a lane of an e8m0 operand. -/
def scaleCode (c : W32) : W8 := c.setWidth 8

/-! ### VCVT, VFTOI and VITOF -/

/-- Conversion of one element (08:R164). -/
def cvtElem (rm : RM) (sat : Bool) (src dst : Elem) (x : W32) : FR :=
  match src.ty, dst.ty with
  | .fp t, .fp t' => if t = t' then noFlag (if fisNan (fdec t x) then t.nan else lowBits src.cw x) else dst.put rm sat (fdec t x)
  | .int w sg _, .int w' sg' _ =>
    let v := intCode w sg x
    let r := satInt (intLo w' sg') (intHi w' sg') v
    ⟨codeInt w' r, if r = v then 0 else fINV⟩
  | _, _ => dst.put rm sat (src.val (lowBits src.cw x))

def cvtLane (rm : RM) (sat : Bool) (src dst : Option Elem) (x : W32) : FR :=
  match src, dst with
  | some e, some e' => cvtElem rm sat e e' x
  | _, _ => ⟨0, fINV⟩

def execVcvt (w : BitVec 1) (d : BitVec 5) (a : BitVec 6) (t c : BitVec 4) (s : State) : Host.Outcome State Fault Refusal :=
  .next (resultFP s [a] 3 3 w d
    (lanes1 (cvtLane (rmNow s) (satNow s) (elemOf c.toNat) (elemOf t.toNat)) (srcV s (c = 0) a)))

/-- i32 for z = 0 and z32 for z = 1, as elements. -/
def word32 (z : BitVec 1) : Elem := ⟨32, .int 32 (z = 0) 0⟩

def execVftoi (w : BitVec 1) (d : BitVec 5) (a : BitVec 6) (z : BitVec 1) (s : State) : Host.Outcome State Fault Refusal :=
  .next (resultFP s [a] 3 3 w d (lanes1 (fun x => (word32 z).put (rmNow s) false (f32v x)) (srcV s true a)))

def execVitof (w : BitVec 1) (d : BitVec 5) (a : BitVec 6) (z : BitVec 1) (s : State) : Host.Outcome State Fault Refusal :=
  .next (resultFP s [a] 3 3 w d (lanes1 (fun x => fput .f32 (rmNow s) false ((word32 z).val x)) (srcV s false a)))

/-! ### VCVTP2, VCVTP4 and VCVTP8 (08:R166) -/

/-- The types that a packed conversion with n parts accepts. -/
def cvtpOk (n : Nat) : Nat → Bool := fun vt =>
  if n = 2 then vt = 1 || vt = 7
  else if n = 4 then vt = 2 || vt = 3 || vt = 5 || vt = 6
  else vt = 4 || vt = 13

/-- x divided by the scale, as an element; a NaN scale converts NaN. -/
def narrowElem (rm : RM) (sat : Bool) (e : Elem) (x sc : W32) : FR :=
  match scaleExp (scaleCode sc) with
  | none => e.put rm sat .nan
  | some k => e.put rm sat (fscale2 (f32v x) (-k))

/-- An element times the scale, in f32; a NaN scale gives the canonical NaN without a flag. -/
def widenElem (rm : RM) (e : Elem) (x sc : W32) : FR :=
  match scaleExp (scaleCode sc) with
  | none => noFlag (FT.nan .f32)
  | some k => fput .f32 rm false (fscale2 (e.val x) k)

def vNarrow (s : State) (n : Nat) (w : BitVec 1) (d : BitVec 5) (a : BitVec 6) (p : Nat) (c : BitVec 6) : State :=
  resultFP s [a, c] 3 3 w d (withElem s (cvtpOk n) (fun e =>
    insertLanes s d e p (lanes2 (narrowElem (rmNow s) (satNow s) e) (srcV s false a) (srcV s false c))))

def vWiden (s : State) (n : Nat) (w : BitVec 1) (d : BitVec 5) (a : BitVec 6) (p : Nat) (c : BitVec 6) : State :=
  resultFP s [a, c] 3 3 w d (withElem s (cvtpOk n) (fun e =>
    lanes2 (fun x sc => widenElem (rmNow s) e (e.sub x p) sc) (srcV s false a) (srcV s false c)))

def execVcvtp2N (w : BitVec 1) (d : BitVec 5) (a : BitVec 6) (p : BitVec 1) (c : BitVec 6) (s : State) :
    Host.Outcome State Fault Refusal := .next (vNarrow s 2 w d a p.toNat c)

def execVcvtp2W (w : BitVec 1) (d : BitVec 5) (a : BitVec 6) (p : BitVec 1) (c : BitVec 6) (s : State) :
    Host.Outcome State Fault Refusal := .next (vWiden s 2 w d a p.toNat c)

def execVcvtp4N (w : BitVec 1) (d : BitVec 5) (a : BitVec 6) (p : BitVec 2) (c : BitVec 6) (s : State) :
    Host.Outcome State Fault Refusal := .next (vNarrow s 4 w d a p.toNat c)

def execVcvtp4W (w : BitVec 1) (d : BitVec 5) (a : BitVec 6) (p : BitVec 2) (c : BitVec 6) (s : State) :
    Host.Outcome State Fault Refusal := .next (vWiden s 4 w d a p.toNat c)

def execVcvtp8N (w : BitVec 1) (d : BitVec 5) (a : BitVec 6) (p : BitVec 3) (c : BitVec 6) (s : State) :
    Host.Outcome State Fault Refusal := .next (vNarrow s 8 w d a p.toNat c)

def execVcvtp8W (w : BitVec 1) (d : BitVec 5) (a : BitVec 6) (p : BitVec 3) (c : BitVec 6) (s : State) :
    Host.Outcome State Fault Refusal := .next (vWiden s 8 w d a p.toNat c)

/-! ### Scales that are not powers of two (08:R167, R168) -/

def mulInto (rm : RM) (sat : Bool) (e : Elem) (x y : FV) : FR :=
  if fisNan x || fisNan y then e.put rm sat .nan
  else match fprod x y with
    | (_, true) => ⟨(e.put rm sat .nan).v, (e.put rm sat .nan).f ||| fINV⟩
    | (p, false) => e.put rm sat p

def f32Elem : Elem := ⟨32, .fp .f32⟩

def execVdeq (w : BitVec 1) (d : BitVec 5) (a b : BitVec 6) (p : BitVec 3) (s : State) : Host.Outcome State Fault Refusal :=
  .next (resultFP s [a, b] 3 3 w d (withElem s anyVtype (fun e =>
    lanes2 (fun x y => mulInto (rmNow s) false f32Elem (e.val (e.sub x (p.toNat % e.n))) (f32v y))
      (srcV s false a) (srcV s true b))))

def execVqnt (w : BitVec 1) (d : BitVec 5) (a b : BitVec 6) (p : BitVec 3) (s : State) : Host.Outcome State Fault Refusal :=
  .next (resultFP s [a, b] 3 3 w d (withElem s anyVtype (fun e =>
    insertLanes s d e (p.toNat % e.n)
      (lanes2 (fun x y => mulInto (rmNow s) (satNow s) e (f32v x) (f32v (rcpL y).v)) (srcV s true a) (srcV s true b)))))

/-- x / s rounded once into an integer range. -/
def divInt (rm : RM) (lo hi : Int) (fr : Nat) (x y : FV) : Int × W8 :=
  match x, y with
  | .nan, _ => (0, fINV)
  | _, .nan => (0, fINV)
  | .inf _, .inf _ => (0, fINV)
  | .inf s, .fin s' _ _ => (if s != s' then lo else hi, fINV)
  | .fin _ _ _, .inf _ => (0, 0)
  | .fin s m e, .fin s' m' e' =>
    if m' = 0 then (if m = 0 then (0, fINV) else (if s != s' then lo else hi, fINV ||| fDZ))
    else
      let neg := s != s'
      let k := 400 + m'.log2
      let r := roundUnits rm neg (m * 2 ^ k / m') (e - e' - k + fr) (decide (m * 2 ^ k % m' ≠ 0)) 0
      let v : Int := if neg then -(r.1 : Int) else r.1
      if v < lo then (lo, fINV) else if v > hi then (hi, fINV) else (v, if r.2 then fINX else 0)

/-- VQDIV into one element. -/
def divInto (rm : RM) (sat : Bool) (e : Elem) (x y : FV) : FR :=
  match e.ty with
  | .fp t => fdiv t rm sat x y
  | .int w sg fr =>
    let r := divInt rm (intLo w sg) (intHi w sg) fr x y
    ⟨codeInt w r.1, r.2⟩

def execVqdiv (w : BitVec 1) (d : BitVec 5) (a b : BitVec 6) (p : BitVec 3) (s : State) : Host.Outcome State Fault Refusal :=
  .next (resultFP s [a, b] 20 20 w d (withElem s anyVtype (fun e =>
    insertLanes s d e (p.toNat % e.n)
      (lanes2 (fun x y => divInto (rmNow s) (satNow s) e (f32v x) (f32v y)) (srcV s true a) (srcV s true b)))))

/-! ### Block scales (08:R169, R170) -/

def mxOk : Nat → Bool := fun vt => 8 ≤ vt && vt ≤ 12

/-- emax of an mx type. -/
def Elem.emax (e : Elem) : Int :=
  match e.ty with
  | .fp .e4m3 => 8
  | .fp .e2m1 => 2
  | _ => 0

/-- The largest magnitude of values that are finite. -/
def maxMag (l : List FV) : FV :=
  l.foldl (fun a v =>
    let m : FV := match v with | .fin _ m e => .fin false m e | x => x
    if flt a m then m else a) (.fin false 0 0)

/-- The scale code of a group of active lanes. -/
def groupCode (e : Elem) (l : List FV) : Nat :=
  if l.any (fun v => fisNan v || fisInf v) then 0xFF
  else match maxMag l with
    | .fin _ m k => if m = 0 then 0 else (satInt 0 254 ((m.log2 : Int) + k - e.emax + 127)).toNat
    | _ => 0

/-- The active lanes of group k of size g, as values. -/
def groupVals (act : W128) (g k : Nat) (l : Lanes) : List FV :=
  (((l.zip laneIdx).drop (g * k)).take g).filterMap (fun p => if act.getLsbD p.2 then some (f32v p.1) else none)

/-- The scale kinds: one code per group, each lane taking the larger of it and its previous code. -/
def vMxScale (s : State) (w : BitVec 1) (d : BitVec 5) (a c : BitVec 6) (size : Elem → Nat) : State :=
  resultFP s [a, c] 3 3 w d (withElem s mxOk (fun e =>
    let act := activeLanes (cx s) (isY s)
    let codes := (List.range (128 / size e)).map (fun k => groupCode e (groupVals act (size e) k (srcV s false a)))
    List.zipWith (fun i p => noFlag (BitVec.ofNat 32 (max (codes.getD (i / size e) 0) (scaleCode p).toNat))) laneIdx (srcV s false c)))

def execVmxpackScale (w : BitVec 1) (d : BitVec 5) (a c : BitVec 6) (s : State) : Host.Outcome State Fault Refusal :=
  .next (vMxScale s w d a c (fun e => 32 / e.n))

def execVmxpackAscale (w : BitVec 1) (d : BitVec 5) (a c : BitVec 6) (s : State) : Host.Outcome State Fault Refusal :=
  .next (vMxScale s w d a c (fun _ => 16))

/-- The put kind: a NaN scale writes element 0 with no flag. -/
def mxPutElem (rm : RM) (sat : Bool) (e : Elem) (x sc : W32) : FR :=
  match scaleExp (scaleCode sc) with
  | none => noFlag 0
  | some k => e.put rm sat (fscale2 (f32v x) (-k))

def execVmxpackPutp (w : BitVec 1) (d : BitVec 5) (a : BitVec 6) (p : BitVec 3) (c : BitVec 6) (s : State) :
    Host.Outcome State Fault Refusal :=
  .next (resultFP s [a, c] 3 3 w d (withElem s mxOk (fun e =>
    insertLanes s d e (p.toNat % e.n) (lanes2 (mxPutElem (rmNow s) (satNow s) e) (srcV s false a) (srcV s false c)))))

def execVmxunp (w : BitVec 1) (d : BitVec 5) (a : BitVec 6) (p : BitVec 3) (c : BitVec 6) (s : State) :
    Host.Outcome State Fault Refusal :=
  .next (resultFP s [a, c] 3 3 w d (withElem s mxOk (fun e =>
    lanes2 (fun x sc => widenElem (rmNow s) e (e.sub x (p.toNat % e.n)) sc) (srcV s false a) (srcV s false c))))

end Sys2Proof.Machine
end

