-- ==== Sys2Proof/Machine/Stalls.lean ====
section
/-!
DEFINITION. Instructions whose issue stalls until an engine has done its work, and whose status is then written to s[sd]
(13:R270, 14:R295, 15:R302, 18:R366, 19:R398, R400, 20:R406, R410, 11:R232).
-/

namespace Sys2Proof.Machine

/-- Stall the issuing context until the operation completes; its result, if any, has room in its slot. -/
def startStall (s : State) (st : Stall) : State :=
  { updCx s (fun x => { x with stall := some { st with since := s.now, serial := s.serial } }) with serial := s.serial + 1 }

/-- A guarded instruction that stalls with operands a and b and writes a status to s[sd]. -/
def stallS (s : State) (kind : StallKind) (d : BitVec 5) (a b : BitVec 6) (g : BitVec 3) (n : BitVec 1) : State :=
  guarded s g n [a, b] (fun s' => startStall s' { kind := kind, a := srcS s a, b := srcS s b, dst := dstS s d.toNat, k := s.serial })

/-- One of the two contexts of a core, the urgent one for true. -/
def ctxOf (k : Core) (u : Bool) : Ctx := if u then k.urg else k.main

def updCtxOf (s : State) (c : CoreRef) (u : Bool) (f : Ctx → Ctx) : State :=
  s.upd c (fun k => if u then { k with urg := f k.urg } else { k with main := f k.main })

/-- The stall of a kind in a context. -/
def stallOf (s : State) (c : CoreRef) (u : Bool) (kind : StallKind) : Option Stall :=
  match (ctxOf (s.core c) u).stall with
  | some st => if st.kind = kind then some st else none
  | none => none

/-- The main context is frozen by a trap. -/
def frozenCtx (k : Core) (u : Bool) : Bool := k.tp.active && !u

/-- A stalled instruction completes without a result: the next bundle may issue from the next cycle. -/
def endStall (s : State) (c : CoreRef) (u : Bool) : State :=
  let t := (s.core c).clk.arch
  updCtxOf s c u (fun x => { x with stall := none, next := max x.next (t + 1) })

/-- A stalled instruction completes with a value for its destination, which lands in the next cycle, in the order of its issue
(03:R62); a frozen context gets it when it resumes (19:R388). -/
def finishStall (s : State) (c : CoreRef) (u : Bool) (st : Stall) (v : W64) : State :=
  let k := s.core c
  let p : Pend := { serial := st.serial, slot := 0, due := if frozenCtx k u then 1 else k.clk.arch + 1, dst := st.dst, val := .w v
                    latch := some 0, ten := fmtTen (ctxOf k u).fmt }
  let s1 := endStall s c u
  if frozenCtx k u then s1.upd c (fun k => { k with tp := { k.tp with shadow := k.tp.shadow ++ [p] } })
  else updCtxOf s1 c u (fun x => { x with pends := x.pends ++ [p] })

end Sys2Proof.Machine
end

