-- ==== Sys2Proof/Machine/Windows.lean ====
section
/-!
DEFINITION. Windows (11): the window instructions, the four engines of a core moving rows between system memory and their
rings, page walks, TLB invalidation and the patrol scrubber.
-/

namespace Sys2Proof.Machine

/-! ### Engine accesses to near memory (10:R191, R192) -/

/-- A granule that an atomic access is holding; the last reserved cycle counts through its engine half (10:R204). -/
def nearHeld (k : Core) (a n : Nat) : Bool :=
  let gs := granules 16 a n
  k.near.accs.any (fun x => decide (x.first ≤ k.clk.arch ∧ k.clk.arch ≤ x.due ∧ x.first < x.due) &&
      gs.any (fun g => (granules 16 x.addr (accBytes x.op)).contains g))
    || k.near.holds.any (fun h => h.2 = k.clk.arch && gs.contains h.1)

/-- An engine access to n bytes must wait: one of its granules is held, or the engine half of one of its banks is used in this core
cycle (10:R190). An engine's request is made in the half-cycle that serves it, so that no two requests wait at one bank, and
rotation and order of arrival have nothing to choose; a flit that waits comes before any later request (10:R192; entry 99). -/
def engBusy (k : Core) (a n : Nat) : Bool := nearHeld k a n || k.near.used &&& bankMask (granules 16 a n) ≠ 0

/-- The engine halves of the banks of n bytes are used. A data memory has no banks (10:R212). -/
def useBanks (s : State) (c : CoreRef) (a n : Nat) : State :=
  if c.cc then s else s.upd c (fun k => { k with near := { k.near with used := k.near.used ||| bankMask (granules 16 a n) } })

/-- Bytes read by an engine, and whether a granule of them is poisoned. -/
def engRead (s : State) (c : CoreRef) (a n : Nat) : List W8 × Bool × State :=
  let s1 := nearTouch (useBanks s c a n) c a n
  (nearRead s1 c a n, (s1.core c).near.poisoned a n, s1)

/-- Bytes written by an engine, with or without poison. -/
def engPut (s : State) (c : CoreRef) (a : Nat) (bs : List W8) (bad : Bool) : State :=
  let s1 := engWrite (useBanks s c a bs.length) c a bs
  if bad then s1.upd c (fun k => { k with near := k.near.taintBytes a bs.length }) else s1

/-- The number of a drain or MACC whose event still writes near memory. -/
def mopWrite : MOp → Option Nat
  | .drain id _ _ _ _ _ _ => some id
  | .transWr id _ _ _ _ _ _ => some id
  | .maccWr id _ _ _ => some id
  | _ => none

/-- The release of an engine operation (11:R217, 17:R352, R356): every scheduled write that was issued before number `after`, by the
core wherever it goes, or by another core to this core's vault, has taken effect; on a control core, every access issued before it is
performed. -/
def releaseDone (s : State) (c : CoreRef) (after : Nat) : Bool :=
  let k := s.core c
  (allCores s).all (fun t => (s.core t).near.accs.all (fun x =>
      !((x.src = c || t = c) && decide (x.serial < after) && (accWrites x.op || c.cc)))) &&
    k.mx.evts.all (fun e => match mopWrite e.op with | some id => decide (after ≤ id) | none => true) &&
    k.ctl.c1.all (fun x => decide (after ≤ x.serial))

/-! ### Windows (11:R214, R215) -/

def getWin (k : Core) (w : Nat) : Win := k.eng.wins.getD w {}

def setWin (s : State) (c : CoreRef) (w : Nat) (x : Win) : State :=
  s.upd c (fun k => { k with eng := { k.eng with wins := k.eng.wins.set w x } })

def updWin (s : State) (c : CoreRef) (w : Nat) (f : Win → Win) : State := setWin s c w (f (getWin (s.core c) w))

/-- Ring slot of a row. -/
def Win.slot (x : Win) (r : Nat) : Nat := x.ringoff + (r - x.firstrow) % x.depth * x.rowlen

/-- Virtual address of a row. -/
def Win.rowVa (x : Win) (r : Nat) : Int := (x.tbase : Int) + r * x.pitch

/-- A descriptor within the limits of 11:R215, as the window it describes. -/
def parseWin (d : List W8) : Option Win :=
  let tbase := fieldAt d 0 8
  let pitch := toSigned 64 (fieldAt d 8 8)
  let rowlen := fieldAt d 16 4
  let ring := fieldAt d 20 4
  let depth := fieldAt d 24 1
  let flags := fieldAt d 25 1
  if tbase % 512 = 0 ∧ tbase < 2 ^ 48 ∧ pitch % 512 = 0 ∧ pitch.natAbs < 2 ^ 47 ∧ rowlen % 512 = 0 ∧ 512 ≤ rowlen ∧ rowlen ≤ 65536
      ∧ ring % 512 = 0 ∧ 2 ≤ depth ∧ depth ≤ 64 ∧ ring + depth * rowlen ≤ 0x800000 ∧ flags ≤ 2
      ∧ fieldAt d 26 6 = 0 ∧ fieldAt d 48 16 = 0 then
    some { tbase := tbase, pitch := pitch, rowlen := rowlen, ringoff := ring, depth := depth, dir := flags
           firstrow := fieldAt d 32 8, nrows := fieldAt d 40 8, head := fieldAt d 32 8, descr := d }
  else none

/-- DETAIL of a window record (11:R230). -/
def winDetail (code w va : Nat) : Nat := code * 2 ^ 60 + w * 2 ^ 58 + va / 64 * 64 % 2 ^ 48

/-! ### The instructions (11:R216 to R222) -/

/-- Operations issued and not complete: those complete beyond the value do not count. -/
def pendOps (k : Core) (ctr : Nat) : Nat := (getTL k ctr).next - (getTL k ctr).val - (getTL k ctr).done.length

/-- Issue a window operation: it takes the next number; beyond 16 outstanding it fails FULL. -/
def issueWin (s : State) (w : Nat) (kind : WKind) (ready : Bool) : State :=
  let c := s.cur.core
  let full := decide (16 ≤ pendOps (me s) w)
  let n := takeNumber s c w
  let op : WinOp := { num := n.1, kind := kind, serial := s.serial, ready := ready || full
                      out := if full then some (2, winDetail 11 w 0) else none, after := s.cur.base }
  freshSerial (updWin n.2 c w (fun x => { x with ops := x.ops ++ [op] }))

/-- WOPEN (11:R218). -/
def execWopen (w : BitVec 2) (b : BitVec 4) (o : BitVec 12) (s : State) : Host.Outcome State Fault Refusal :=
  .next (
    let c := s.cur.core
    let v := readA (cx s) true b.toNat + BitVec.ofInt 64 (o.toInt * 64)
    if 2 ^ 30 ≤ v.toNat ∨ bitsOf v.toNat 29 23 ≠ c.num then issueFail s 0x06 v
    else if v.toNat % 64 ≠ 0 then issueFail s 0x07 v
    else
      let a := v.toNat % 2 ^ 23
      withClaims s c [(4, granAddrs a 64)] [] (fun s =>
        let s1 := addAccs s c [newAcc s c (.desc 64) a 4 4 0]
        issueWin s1 w.toNat .opn false))

def execWadv (w : BitVec 2) (k : BitVec 7) (s : State) : Host.Outcome State Fault Refusal :=
  .next (issueWin s w.toNat (.adv k.toNat) true)

def execWclose (s : State) : Host.Outcome State Fault Refusal := .next (issueWin s (sylField s 22 2).toNat .close true)

def execWflush (s : State) : Host.Outcome State Fault Refusal := .next (issueWin s (sylField s 22 2).toNat .flush true)

/-- The micro-TLB entries of a page are dropped. -/
def dropMicro (s : State) (c : CoreRef) (i va : Nat) : State :=
  s.upd c (fun k => { k with eng := { k.eng with
    utlb := k.eng.utlb.set i ((k.eng.utlb.getD i []).filter (fun e => !covers e.2.2 e.1 va)) } })

/-- Fills that are not yet resident poison their slots (11:R221). -/
def poisonFills (s : State) (c : CoreRef) (x : Win) : State :=
  x.work.foldl (fun s j => if j.fill then s.upd c (fun k => { k with near := k.near.taintBytes (x.slot j.row) x.rowlen }) else s) s

/-- WRES.fail on a stopped context: the faulted operation fails with detail 12, what it still had to move is dropped. -/
def failStopped (s : State) (c : CoreRef) (w st : Nat) : State :=
  let x := getWin (s.core c) w
  updWin (poisonFills s c x) c w (fun x => { x with
    fault := none, work := [], waits := []
    ops := match x.ops with | [] => [] | o :: t => { o with out := some (st, winDetail 12 w 0) } :: t })

/-- WRES acts as the engine receives it, at issue, and takes a number (11:R221); one that fails FULL changes nothing else (11:R217). -/
def windowRes (s : State) (fail : Bool) : State :=
  let w := (sylField s 22 2).toNat
  let c := s.cur.core
  let s1 := issueWin s w .wres true
  match (getWin (s.core c) w).fault with
  | none => s1
  | some f =>
    if 16 ≤ pendOps (s.core c) w then s1
    else if fail then failStopped s1 c w 2
    else updWin (dropMicro s1 c w f.va) c w (fun x => { x with fault := none })

def execWresRetry (s : State) : Host.Outcome State Fault Refusal := .next (windowRes s false)

def execWresFail (s : State) : Host.Outcome State Fault Refusal := .next (windowRes s true)

/-- The status word of a window (11:R222). -/
def winStatus (k : Core) (w : Nat) : W64 :=
  let x := getWin k w
  BitVec.ofNat 64 (x.head % 2 ^ 32 * 2 ^ 32 + min (pendOps k w) 16 * 2 ^ 16
    + (match x.fault with | some f => f.code % 16 * 256 + 2 | none => 0)
    + (if x.opn then x.dir * 8 + 1 else 0) + (if k.eng.err.getLsbD w then 4 else 0))

def execWstat (w : BitVec 2) (f : BitVec 3) (r : BitVec 5) (s : State) : Host.Outcome State Fault Refusal :=
  .next (withRoom s (fun s => emit s (intoReg s f r.toNat { newPend s 2 with val := .w (winStatus (me s) w.toNat) })))

/-! ### An operation at its turn (11:R217 to R220) -/

/-- Jobs for rows; what lies at or above NROWS is not drained, and is filled without being read. -/
def fillJobs (x : Win) (lo n : Nat) : List RowJob :=
  (List.range n).map (fun i => { fill := true, row := lo + i, todo := List.range (x.rowlen / 64), tail := decide (x.nrows ≤ lo + i) })

def drainJobs (x : Win) (lo n : Nat) : List RowJob :=
  ((List.range n).map (fun i => ({ fill := false, row := lo + i, todo := List.range (x.rowlen / 64), tail := false } : RowJob))).filter
    (fun j => decide (j.row < x.nrows))

/-- The jobs of an operation of an open window, in the window's present position. -/
def opJobs (x : Win) (k : WKind) : List RowJob :=
  let out := decide (x.dir ≠ 0)
  let inp := decide (x.dir ≠ 1)
  match k with
  | .opn => if inp then fillJobs x x.firstrow x.depth else []
  | .adv k => (if out then drainJobs x x.head k else []) ++ (if inp then fillJobs x (x.head + x.depth) k else [])
  | .close => if out then drainJobs x x.head x.depth else []
  | .flush => if out then drainJobs x x.head x.depth else []
  | .wres => []

/-- The outcome of an operation that has met two: the first, but a failure before poison (11:R224). -/
def worseOut (old : Option (Nat × Nat)) (o : Nat × Nat) : Nat × Nat :=
  match old with
  | some q => if q.1 = 1 ∧ o.1 = 2 then o else q
  | none => o

/-- Set the outcome of the oldest operation. -/
def setOut (x : Win) (o : Nat × Nat) : Win :=
  { x with ops := match x.ops with | [] => [] | p :: t => { p with out := some (worseOut p.out o) } :: t }

/-- Begin the oldest operation of a window, once its descriptor is read and the writes it waits for are done. -/
def winStart (s : State) (c : CoreRef) (w : Nat) : State :=
  let k := s.core c
  let x := getWin k w
  match x.ops with
  | [] => s
  | op :: _ =>
    if x.started ∨ !op.ready then s
    else if op.out.isSome ∨ op.kind = .wres then setWin s c w { x with started := true }
    else match op.kind with
      | .opn =>
        if x.opn then setWin s c w (setOut { x with started := true } (2, winDetail 9 w 0))
        else if op.poisoned then setWin s c w (setOut { x with started := true } (1, winDetail 0 w 0))
        else match parseWin op.desc with
          | none => setWin s c w (setOut { x with started := true } (2, winDetail 8 w 0))
          | some y =>
            if !releaseDone s c op.after then s
            else
              let y := { y with ops := x.ops, started := true, head := x.head }
              setWin s c w { y with work := opJobs y .opn }
      | kind =>
        if !x.opn then
          setWin s c w (if op.num = 0 then { x with started := true } else setOut { x with started := true } (2, winDetail 9 w 0))
        else if (match kind with | .adv n => decide (x.depth < n) | _ => false) then
          setWin s c w (setOut { x with started := true } (2, winDetail 10 w 0))
        else if !releaseDone s c op.after then s
        else setWin s c w { x with started := true, work := opJobs x kind }

/-! ### Moving granules (11:R219, R223, R228, R233, R234) -/

/-- What a window's translation of one granule gives. -/
inductive WXlat where
  | ok (pa : Nat) (e : Nat)
  | miss (va : Nat)
  | fault (code va : Nat)
deriving DecidableEq, Repr

/-- Translate through a micro-TLB without walking. -/
def engXlat (s : State) (c : CoreRef) (i : Nat) (r w : Bool) (va : Int) : WXlat × State :=
  if va < 0 ∨ (2 ^ 48 : Int) ≤ va then (.fault 6 (va % 2 ^ 48).toNat, s)
  else
    let v := va.toNat
    match tlbFind s c i v with
    | (.miss, s1) => (.miss v, s1)
    | (.hit large e, s1) => match xlatOf s1 (partOf s c) r w large e v with
      | .ok pa e => (.ok pa e, s1)
      | .fault code => (.fault code v, s1)

/-- Translate granule g of a row; a row over two pages needs both to agree in KIND and PPOL (11:R228). -/
def rowXlat (s : State) (c : CoreRef) (w : Nat) (x : Win) (j : RowJob) (g : Nat) : WXlat × State :=
  let rd := j.fill || x.dir = 2
  let wr := !j.fill || x.dir = 2
  let r := engXlat s c w rd wr (x.rowVa j.row + 64 * g)
  let first := x.rowVa j.row
  if (first + 64 * g) / 2 ^ 18 = first / 2 ^ 18 then r
  else match r with
    | (.ok pa e, s1) => match engXlat s1 c w rd wr first with
      | (.ok _ e0, s2) =>
        if leafKind e = leafKind e0 ∧ leafPpol e = leafPpol e0 then (.ok pa e, s2) else (.fault 5 (first + 64 * g).toNat, s2)
      | r => r
    | r => r

/-- A fault stops the context and posts its record (11:R230), once there is room; at task end it only fails the close, and the row
is dropped (11:R224): job n, or every row that reaches the address. -/
def winFault (s : State) (c : CoreRef) (w code va : Nat) (n : Option Nat) : State :=
  let x := getWin (s.core c) w
  match x.ops with
  | [] => s
  | op :: _ =>
    if x.fault.isSome then s
    else if op.num = 0 then updWin s c w (fun x =>
      let hit (j : RowJob) : Bool := decide (x.rowVa j.row ≤ va ∧ (va : Int) < x.rowVa j.row + x.rowlen)
      setOut { x with work := match n with
        | some n => x.work.eraseIdx n
        | none => x.work.filter (fun j => !hit j) } (2, winDetail code w va))
    else if !evRoom s (partOf s c) 1 then evSetFull s (partOf s c)
    else postCore (updWin s c w (fun x => { x with fault := some ⟨code, va, op.num⟩ })) c 1 2 w op.num op.num (winDetail code w va)

/-- Poison met under PPOL 1 (11:R234). -/
def notePpol (s : State) (c : CoreRef) (w e va : Nat) (bad : Bool) : State :=
  if bad && leafPpol e = 1 then updWin s c w (fun x => setOut x (1, winDetail 0 w va)) else s

/-- Change job n of a window. -/
def updJob (s : State) (c : CoreRef) (w n : Nat) (f : RowJob → RowJob) : State :=
  updWin s c w (fun x => { x with work := (x.work.zip (List.range x.work.length)).map (fun p => if p.2 = n then f p.1 else p.1) })

/-- Job n of a window has moved granule g. -/
def doneGran (s : State) (c : CoreRef) (w n g : Nat) : State := updJob s c w n (fun j => { j with todo := j.todo.filter (· ≠ g) })

/-- Granule g of job n is asked for, or sent, over the fabric. -/
def askedGran (s : State) (c : CoreRef) (w n g : Nat) : State :=
  updJob s c w n (fun j => { j with todo := j.todo.filter (· ≠ g), asked := j.asked ++ [g] })

/-- The number of the operation that a window is performing. -/
def Win.opNum (x : Win) : Nat := match x.ops with | [] => 0 | o :: _ => o.num

/-- Move granule g of job n to or from another chip's memory: its request leaves once a port has a path (11:R226). -/
def moveFar (s : State) (c : CoreRef) (w : Nat) (x : Win) (n : Nat) (j : RowJob) (g pa e : Nat) : State :=
  let a := x.slot j.row + 64 * g
  let va := (x.rowVa j.row + 64 * g).toNat
  let ask (op : Nat) : Flit := { memAsk s c (winCtx w) x.opNum op pa with cnt := 64, seqn := j.row, idx := g, grp := leafPpol e }
  if j.fill then
    match sendOut s (ask 0) with
    | none => s
    | some s1 => askedGran s1 c w n g
  else
    let r := engRead s c a 64
    match sendOut r.2.2 { ask 1 with bytes := r.1, pois := if r.2.1 then [0] else [] } with
    | none => s
    | some s1 => askedGran (notePpol s1 c w e va r.2.1) c w n g

/-- Move granule g of job n. -/
def moveGran (s : State) (c : CoreRef) (w : Nat) (x : Win) (n : Nat) (j : RowJob) (g pa e : Nat) : State :=
  let a := x.slot j.row + 64 * g
  let va := (x.rowVa j.row + 64 * g).toNat
  if engBusy (s.core c) a 64 then s
  else if isRemote pa then moveFar s c w x n j g pa e
  else if j.fill then
    let s1 := sysMeet s (pa / 64)
    let bad := sysPoisoned s1 pa 64
    doneGran (notePpol (engPut s1 c a (sysRead s1 pa 64) bad) c w e va bad) c w n g
  else
    let r := engRead s c a 64
    let s1 := if r.2.1 then sysPoison r.2.2 (pa / 64) else (sysWriteUnit r.2.2 pa r.1).2
    doneGran (notePpol s1 c w e va r.2.1) c w n g

/-- Another chip's memory answers window f.ctx: a fill's granule is written, a drain's is done; an access that the owner refuses faults
(11:R227). `none` while the banks are busy. An answer that no job waits for is dropped. -/
def winReply (s : State) (f : Flit) : Option State :=
  let c := flitDst f
  let w := f.ctx - 16
  let x := getWin (s.core c) w
  let g := f.idx
  match ((List.range x.work.length).zip x.work).find? (fun p => p.2.row = f.seqn && p.2.asked.contains g) with
  | none => some s
  | some (n, j) =>
    let a := x.slot j.row + 64 * g
    let va := (x.rowVa j.row + 64 * g).toNat
    let gone (s : State) : State := updJob s c w n (fun j => { j with asked := j.asked.filter (· ≠ g) })
    if x.opNum ≠ f.num then some s
    else if f.stat = 2 then some (winFault (updJob (gone s) c w n (fun j => { j with todo := g :: j.todo })) c w 3 va (some n))
    else if !j.fill then some (gone s)
    else if engBusy (s.core c) a 64 then none
    else
      let bad : Bool := f.pois ≠ []
      some (gone (notePpol (engPut s c a f.bytes bad) c w (f.grp * 128) va bad))

/-- A job may move its granules: a fill waits for the drain of its slot. -/
def jobReady (x : Win) (j : RowJob) : Bool :=
  j.todo ≠ [] && (!j.fill || x.work.all (fun d => d.fill || (d.todo = [] && d.asked = []) || x.slot d.row ≠ x.slot j.row))

/-- Jobs of a window that may move a granule now, by index. -/
def readyJobs (x : Win) : List (Nat × RowJob) :=
  if x.fault.isSome then []
  else ((List.range x.work.length).zip x.work).filter (fun p => jobReady x p.2)

/-- A job that has granules left may still access a strongly ordered page. -/
def strongLeft (s : State) (c : CoreRef) (w : Nat) (x : Win) (j : RowJob) : Bool :=
  if j.tail then false
  else match j.asked ++ j.todo with
    | [] => false
    | g :: _ => match (rowXlat s c w x j g).1 with
      | .ok _ e => leafKind e = 2
      | _ => true

/-- On a strongly ordered page an engine accesses row after row, and in each row granule after granule, each performed before the next
(11:R228, 17:R357): job n waits for those before it. -/
def strongWaits (s : State) (c : CoreRef) (w : Nat) (x : Win) (n : Nat) (j : RowJob) : Bool :=
  j.asked ≠ [] || (x.work.take n).any (fun d => strongLeft s c w x d)

/-- A walk is asked for, and the window waits for it. -/
def winMiss (s : State) (c : CoreRef) (w va : Nat) : State :=
  updWin (askWalk s c w va) c w (fun x => { x with waits := insNat (va / 2 ^ 18) x.waits })

/-- Move one granule of job n: the next in address order on a strongly ordered page, else any. -/
def winStep (s : State) (c : CoreRef) (w n : Nat) (j : RowJob) : State :=
  let x := getWin (s.core c) w
  if j.tail then
    let d := draw s j.todo.length
    let g := j.todo.getD d.1 0
    let a := x.slot j.row + 64 * g
    if engBusy (s.core c) a 64 then d.2 else doneGran (engPut d.2 c a (List.replicate 64 0) false) c w n g
  else
    let g0 := j.todo.head?.getD 0
    match rowXlat s c w x j g0 with
    | (.miss va, s1) => winMiss s1 c w va
    | (.fault code va, s1) => winFault s1 c w code va (some n)
    | (.ok pa e, s1) =>
      if leafKind e = 2 then (if strongWaits s c w x n j then s1 else moveGran s1 c w x n j g0 pa e)
      else
        let d := draw s1 j.todo.length
        let g := j.todo.getD d.1 0
        match rowXlat d.2 c w x j g with
        | (.miss va, s2) => winMiss s2 c w va
        | (.fault code va, s2) => winFault s2 c w code va (some n)
        | (.ok pa e, s2) => moveGran s2 c w x n j g pa e

/-- Begin what can begin in the four windows. -/
def startWins (s : State) (c : CoreRef) : State := [0, 1, 2, 3].foldl (fun s w => winStart s c w) s

/-- The requests that the window engines of a core have waiting: window, job number, job. -/
def winRequests (k : Core) : List (Nat × Nat × RowJob) :=
  [0, 1, 2, 3].flatMap (fun w => (readyJobs (getWin k w)).map (fun p => (w, p.1, p.2)))

/-- One engine-half access of the window engines, one of the requests waiting. -/
def winAccess (s : State) (c : CoreRef) : State :=
  let l := winRequests (s.core c)
  let d := draw s l.length
  match l[d.1]? with
  | none => s
  | some q => winStep d.2 c q.1 q.2.1 q.2.2

/-- Drop the first job of a kind that has nothing left to move. -/
def finishRow (s : State) (c : CoreRef) (w : Nat) (fill : Bool) : State :=
  updWin s c w (fun x => match x.work.find? (fun j => j.fill = fill && j.todo = [] && j.asked = []) with
    | some j => { x with work := x.work.erase j }
    | none => x)

/-- ROW_FILL (11:R219): a fill of window ev.i is resident. -/
def execRowFill (s : State) : Host.Outcome State Fault Refusal := .next (finishRow s s.ev.core s.ev.i true)

/-- ROW_DRAIN (11:R219): a drain of window ev.i has been performed in memory. -/
def execRowDrain (s : State) : Host.Outcome State Fault Refusal := .next (finishRow s s.ev.core s.ev.i false)

/-- The state change of a completed operation (11:R218 to R221). A failure other than by WRES.fail changes nothing. -/
def winEffect (x : Win) (op : WinOp) : Win :=
  let made := match op.out with
    | none => true
    | some (st, d) => (st = 1 && !op.poisoned) || bitsOf d 63 60 = 12
  if op.num = 0 then { x with opn := false }
  else if !made then x
  else match op.kind with
    | .opn => { x with opn := true, head := x.firstrow }
    | .adv k => { x with head := x.head + k }
    | .close => { x with opn := false }
    | .flush => x
    | .wres => x

/-- Records of an operation's outcome; status 255 posts none. -/
def outNeed (o : Option (Nat × Nat)) : Nat :=
  match o with
  | some (st, _) => if st = 255 then 0 else 1
  | none => 0

/-- The close at task end: its record, and the gang's worst status. -/
def finishEnding (s : State) (c : CoreRef) (w : Nat) (op : WinOp) : State :=
  match op.out with
  | none => s
  | some (st, d) =>
    let s1 := postCore s c 1 st w 0 (getTL (s.core c) w).val d
    match (s.core c).ph.gang with
    | none => s1
    | some g => updGang s1 g (fun x => { x with worst := max x.worst st })

/-- WINDOW_OP_COMPLETE (11:R217): the oldest operation of window ev.i completes: its state change, its record where it
failed or met poison, and the counter's advance with the thresholds it fires (14:R278, R282). It waits while its records
have no room (14:R286). -/
def execWindowOpComplete (s : State) : Host.Outcome State Fault Refusal :=
  let c := s.ev.core
  let w := s.ev.i
  let s0 := winStart s c w
  let x := getWin (s0.core c) w
  .next (match x.ops with
    | [] => s0
    | op :: rest =>
      if !x.started ∨ x.work ≠ [] ∨ x.fault.isSome then s0
      else
        let need := outNeed op.out + (if op.num = 0 then 0 else tlFires s0 c w op.num)
        if need ≠ 0 ∧ !evRoom s0 (partOf s c) need then evSetFull s0 (partOf s c)
        else
          let s1 := setWin s0 c w { winEffect x op with ops := rest, started := false, waits := [] }
          if op.num = 0 then finishEnding s1 c w op
          else
            let s2 := if op.kind = .opn ∧ (winEffect x op).opn ∧ !x.opn then
              s1.upd c (fun k => { k with eng := { k.eng with err := k.eng.err &&& ~~~ BitVec.ofNat 16 (2 ^ w) } }) else s1
            let s3 := match op.out with
              | none => s2
              | some (st, d) => setErr (if st = 255 then s2 else postCore s2 c 1 st w op.num op.num d) c w
            tlComplete s3 c w op.num)

/-! ### Walks and invalidation (11:R229 to R232) -/

/-- KIND of the records of a transfer operation (16:R333). -/
def txRecKind : TxKind → Nat
  | .rload => 7
  | .ratom => 7
  | .mcsto => 6
  | .join _ _ => 6
  | .leave _ => 6
  | .qresv _ _ => 10
  | .qpush _ _ => 10
  | _ => 2

/-- Counter of transfer context i of a core (16:R332). -/
def txCtr (c : CoreRef) (i : Nat) : Nat := if c.cc then i else i + 4

/-- DETAIL of a transfer record (16:R333). -/
def txDetail (code ctr va : Nat) : Nat := code * 2 ^ 60 + ctr % 4 * 2 ^ 58 + va / 16 * 16 % 2 ^ 48

/-- A translation fault stops transfer context i and posts its record, once there is room (16:R333). -/
def txFault (s : State) (c : CoreRef) (i code va : Nat) : State :=
  let x := (s.core c).eng.txs.getD i {}
  match x.ops.find? (fun o => o.wait.isSome && (o.wait.getD 0) / 2 ^ 18 = va / 2 ^ 18) with
  | none => s
  | some op =>
    if x.fault.isSome then s
    else if !evRoom s (partOf s c) 1 then evSetFull s (partOf s c)
    else
      let s1 := s.upd c (fun k => { k with eng := { k.eng with txs := k.eng.txs.set i { x with fault := some ⟨code, va, op.num⟩ } } })
      postCore s1 c (txRecKind op.kind) 2 (txCtr c i) op.num op.num (txDetail code (txCtr c i) va)

/-- A window waits for a page's walk no longer. -/
def winUnwait (s : State) (c : CoreRef) (w va : Nat) : State :=
  updWin s c w (fun x => { x with waits := x.waits.filter (· ≠ va / 2 ^ 18) })

/-- What waited for a walk that has failed: an engine context faults where it still waits for the page; a stall of a control core
waits no longer, and for a fetch the line is known to fail. -/
def walkFailed (s : State) (x : CoreRef × Nat × Nat) (code : Nat) : State :=
  let c := x.1
  if x.2.1 < 4 then
    (if (getWin (s.core c) x.2.1).waits.contains (x.2.2 / 2 ^ 18) then winFault (winUnwait s c x.2.1 x.2.2) c x.2.1 code (x.2.2 / 64 * 64) none
     else s)
  else if x.2.1 < 20 then txFault s c (x.2.1 - 4) code (x.2.2 / 16 * 16)
  else if x.2.1 = 20 then s.upd c (fun k =>
    let f (y : Ctx) : Ctx := { y with stall := y.stall.map (fun st =>
      if st.kind = .c1 && st.a.toNat / 2 ^ 18 = x.2.2 / 2 ^ 18 then { st with b := 1 } else st) }
    { k with main := f k.main, urg := f k.urg })
  else s

/-- The stall of a C1 access whose page has been found ends; its bundle issues again. -/
def walkFound (s : State) (x : CoreRef × Nat × Nat) : State :=
  if x.2.1 < 4 then winUnwait s x.1 x.2.1 x.2.2
  else if x.2.1 = 20 then s.upd x.1 (fun k =>
    let f (y : Ctx) : Ctx := match y.stall with
      | some st => if st.kind = .c1 ∧ st.a.toNat / 2 ^ 18 = x.2.2 / 2 ^ 18 then { y with stall := none } else y
      | none => y
    { k with main := f k.main, urg := f k.urg })
  else s

/-- Engine contexts that wait for a walk: a fault of theirs posts a record each. -/
def walkRecords (w : Walk) : Nat := w.who.countP (fun x => x.2.1 < 20)

/-- PAGE_WALK (11:R229): walk ev.i of the list completes; a die has up to 32 under way, the oldest first. What waits for it
goes on, or faults. -/
def execPageWalk (s : State) : Host.Outcome State Fault Refusal :=
  .next (match s.walks[s.ev.i]? with
    | none => s
    | some w =>
      if 32 ≤ (s.walks.take s.ev.i).countP (fun x => x.die = w.die) then s
      else
        let va := w.va * 2 ^ 18
        let s0 := walkMeet s w.part va
        match walkTable s0 w.part va with
        | .leaf large e =>
          let s1 := { installLeaf s0 w.die w.part va large e with walks := s.walks.eraseIdx s.ev.i }
          w.who.foldl walkFound s1
        | .fault code =>
          if 0 < walkRecords w ∧ !evRoom s w.part (walkRecords w) then evSetFull s w.part
          else w.who.foldl (fun s x => walkFailed s x code) { s0 with walks := s.walks.eraseIdx s.ev.i })

/-- TLBINV (11:R232): guarded, legal only on a control core; issue stalls until it completes. -/
def execTlbinvPage (a : BitVec 6) (g : BitVec 3) (n : BitVec 1) (s : State) : Host.Outcome State Fault Refusal :=
  .next (plainS s g n [a] (fun s' => startStall s' { kind := .tlbinv, a := srcS s a }))

def execTlbinvAll (s : State) : Host.Outcome State Fault Refusal :=
  .next (plainS s (sylField s 4 3) (sylField s 3 1) [] (fun s' => startStall s' { kind := .tlbinv, b := 1 }))

/-- Drop translations of a partition: of one address, or all. -/
def invalidate (s : State) (p : Nat) (all : Bool) (va : Nat) : State :=
  let gone (large : Bool) (base : Nat) : Bool := all || covers large base va
  let f (k : Core) : Core := { k with eng := { k.eng with utlb := k.eng.utlb.map (fun l => l.filter (fun e => !gone e.2.2 e.1)) } }
  { s with
    tlbs := s.tlbs.filter (fun e => !(e.part = p && gone e.large e.base))
    vms := s.vms.map (fun k => if k.part = some p then f k else k)
    ccs := (s.ccs.zip (List.range s.ccs.length)).map (fun x => if x.2 = p then f x.1 else x.1) }

/-- Accesses of a partition's engines that have been translated and are not yet performed: packets of atomics, and what travels to
another chip's memory. -/
def farBusy (s : State) (p : Nat) : Bool :=
  let mine (f : Flit) : Bool := f.virt && f.part = p && f.srcChip = s.chip
  s.ratoms.any mine || s.flits.any mine || s.ports.any (fun q => q.untimed.any mine) ||
    (allCores s).any (fun c => decide (partOf s c = p) && (c.cc || (s.core c).part.isSome) &&
      ((s.core c).eng.wins.any (fun w => w.work.any (fun j => j.asked ≠ []))
        || (s.core c).eng.txs.any (fun t => t.ops.any (fun o => o.asked ≠ []))))

/-- TLBINV_DONE (11:R232): every earlier access of the control core has been performed, and so has every access that an engine has
translated. ev.j is 1 for the urgent context. -/
def execTlbinvDone (s : State) : Host.Outcome State Fault Refusal :=
  let c := s.ev.core
  let u : Bool := s.ev.j = 1
  .next (match stallOf s c u .tlbinv with
    | none => s
    | some st =>
      if coreDrained (s.core c) c ∧ !farBusy s (partOf s c) then
        endStall (invalidate s (partOf s c) (st.b = 1) (st.a.toNat % 2 ^ 48)) c u
      else s)

/-! ### The patrol scrubber (11:R233) -/

/-- The region of a granule of local memory. -/
def regionNo (g : Nat) : Nat := g / 2 ^ 22

/-- Granules of local memory that hold an error: what a pass of the scrubber still finds. -/
def patrolLeft (s : State) : List Nat := (s.syscerr ++ s.sysuerr).filter (fun g => decide (g < 2 ^ 33))

/-- Count one more correctable error of a region. -/
def bumpFound (l : List (Nat × Nat)) (r : Nat) : List (Nat × Nat) :=
  l.filter (fun x => x.1 ≠ r) ++ [(r, ((l.find? (fun x => x.1 = r)).map (·.2)).getD 0 + 1)]

/-- The scrubber reads a granule: it logs and corrects, or poisons. -/
def scrubGran (s : State) (g : Nat) : State :=
  let s1 := { sysMeet s g with syscerr := s.syscerr.filter (· ≠ g) }
  if s.syscerr.contains g then
    { s1 with svc := { s1.svc with
        found := bumpFound s1.svc.found (regionNo g)
        hot := s1.svc.hot.map (fun h => if h.1 = regionNo g then (h.1, h.2.1, h.2.2 + 1) else h) } }
  else s1

/-- A pass ends and the next begins: regions with four or more correctable errors are rescanned at 16 times the rate. -/
def nextPass (s : State) : State :=
  let more := (s.svc.found.filter (fun x => decide (4 ≤ x.2) && s.svc.hot.all (fun h => h.1 ≠ x.1))).map (fun x => (x.1, s.now, 0))
  { s with svc := { s.svc with patrol := s.now, found := [], hot := s.svc.hot ++ more } }

/-- A rescan of a region ends: the last, where it has found nothing. -/
def nextRescan (s : State) (r : Nat) : State :=
  { s with svc := { s.svc with hot := s.svc.hot.filterMap (fun h =>
      if h.1 ≠ r then some h else if h.2.2 = 0 then none else some (r, s.now, 0)) } }

/-- PATROL_SCRUB (11:R233): with ev.j = 0 granule ev.i of local memory is read and put right; with ev.j = 1 a pass ends, with ev.j = 2
the rescan of region ev.i. -/
def execPatrolScrub (s : State) : Host.Outcome State Fault Refusal :=
  .next (
    if s.ev.j = 0 then scrubGran s s.ev.i
    else if s.ev.j = 1 then (if s.svc.patrol + dayTicks ≤ s.now ∧ patrolLeft s = [] then nextPass s else s)
    else match s.svc.hot.find? (fun h => h.1 = s.ev.i) with
      | none => s
      | some h =>
        if h.2.1 + dayTicks / 16 ≤ s.now ∧ (patrolLeft s).all (fun g => regionNo g ≠ h.1) then nextRescan s h.1 else s)

end Sys2Proof.Machine
end

