-- ==== Sys2Proof/Machine/Queues.lean ====
section
/-!
DEFINITION. Operations of transfer contexts as such (16:R332, R333), token-queue channels (14:R289 to R294), the move of
records out of overflow (14:R286), and WATCH (14:R295).
-/

namespace Sys2Proof.Machine

/-! ### Transfer contexts (16:R332, R333) -/

/-- Index of the transfer context that a ctx field names. -/
def txIndex (c : CoreRef) (t : Nat) : Nat := if c.cc then t else t - 4

def getTx (k : Core) (i : Nat) : Tx := k.eng.txs.getD i {}

def updTx (s : State) (c : CoreRef) (i : Nat) (f : Tx → Tx) : State :=
  s.upd c (fun k => { k with eng := { k.eng with txs := k.eng.txs.set i (f (getTx k i)) } })

/-- Change the operation with a number. -/
def updTxOp (s : State) (c : CoreRef) (i num : Nat) (f : TxOp → TxOp) : State :=
  updTx s c i (fun x => { x with ops := x.ops.map (fun o => if o.num = num then f o else o) })

/-- The channel that a failure of a queue operation names in DETAIL[3:0] (14:R285). -/
def kindChan : TxKind → Nat
  | .qresv ch _ => ch
  | .qpush ch _ => ch
  | _ => 0

/-- Issue an operation on the context that the field t names; beyond 16 outstanding it fails FULL. -/
def issueTx (s : State) (t : Nat) (kind : TxKind) (ready : Bool) (daddr start : Nat) : State :=
  let c := s.cur.core
  let full := decide (16 ≤ pendOps (me s) t)
  let n := takeNumber s c t
  let op : TxOp := { num := n.1, kind := kind, serial := s.serial, ready := ready || full, daddr := daddr, start := start
                     out := if full then some (2, txDetail 11 t 0 + kindChan kind) else none, after := s.cur.base }
  freshSerial (updTx n.2 c (txIndex c t) (fun x => { x with ops := x.ops ++ [op] }))

/-- Decide an operation's outcome; the first decision stands. -/
def setTxOut (s : State) (c : CoreRef) (i num : Nat) (o : Nat × Nat) : State :=
  updTxOp s c i num (fun p => { p with out := match p.out with | some q => some q | none => some o })

/-- Fail with a code of 16:R333. -/
def txFail (s : State) (c : CoreRef) (i num code : Nat) : State := setTxOut s c i num (2, txDetail code (txCtr c i) 0)

/-- Operations begin in number order: number j of the list may begin once all before it have begun, its descriptor has been
read, and what it releases has been performed; in a stopped context none begins (16:R333). -/
def txCanStart (s : State) (c : CoreRef) (i j : Nat) : Bool :=
  let x := getTx (s.core c) i
  match x.ops[j]? with
  | none => false
  | some o => x.fault.isNone && !o.started && o.ready && (x.ops.take j).all (·.started) && releaseDone s c o.after

def startTx (s : State) (c : CoreRef) (i j : Nat) : State :=
  match (getTx (s.core c) i).ops[j]? with
  | none => s
  | some o => if txCanStart s c i j then updTxOp s c i o.num (fun o => { o with started := true }) else s

/-- Begin every operation of a context that may begin. -/
def startTxs (s : State) (c : CoreRef) (i : Nat) : State :=
  (List.range (getTx (s.core c) i).ops.length).foldl (fun s j => startTx s c i j) s

/-- Statuses that set ERR: all but success, a changed membership and a rerouted walk (16:R333, R336, R342). -/
def statusErr (st : Nat) : Bool := st ≠ 0 && st ≠ 3 && st ≠ 4

/-- Records that the completion of an operation would post. -/
def txNeed (s : State) (c : CoreRef) (i : Nat) (o : TxOp) (out : Nat × Nat) : Nat :=
  (if out.1 = 0 ∨ out.1 = 255 then 0 else 1) + tlFires s c (txCtr c i) o.num

/-- An operation completes with a status and detail: its record, ERR, and the counter's advance (14:R278, 16:R333). It waits
while its records have no room (14:R286). The Bool says that it has completed. -/
def txFinish (s : State) (c : CoreRef) (i : Nat) (o : TxOp) (out : Nat × Nat) : Bool × State :=
  let need := txNeed s c i o out
  if need ≠ 0 ∧ !evRoom s (partOf s c) need then (false, evSetFull s (partOf s c))
  else
    let ctr := txCtr c i
    let item := match o.kind with
      | .qresv _ _ => 0
      | .qpush _ _ => 0
      | _ => o.num
    let s1 := updTx s c i (fun x => { x with ops := x.ops.filter (fun p => p.num ≠ o.num) })
    let s2 := if out.1 = 0 ∨ out.1 = 255 then s1 else postCore s1 c (txRecKind o.kind) out.1 ctr item o.num out.2
    let s3 := if statusErr out.1 then setErr s2 c ctr else s2
    (true, tlComplete s3 c ctr o.num)

/-! ### Channels (14:R289, R291) -/

def getChan (s : State) (p ch : Nat) : Chan := (getPart s p).chans.getD ch {}

def updChan (s : State) (p ch : Nat) (f : Chan → Chan) : State :=
  updPart s p (fun q => { q with chans := q.chans.set ch (f (q.chans.getD ch {})) })

/-- Where the entries of a partition's channel are held: the consuming side. -/
def chanHome (s : State) (p ch : Nat) : Nat × Nat :=
  let x := getChan s p ch
  if x.prod && !x.cons then x.peer.getD (p, ch) else (p, ch)

/-- The producing side of a partition's channel. -/
def chanProd (s : State) (p ch : Nat) : Nat × Nat :=
  let x := getChan s p ch
  if x.cons && !x.prod then x.peer.getD (p, ch) else (p, ch)

def chanEntries (s : State) (p ch : Nat) : List W64 :=
  let h := chanHome s p ch
  (getChan s h.1 h.2).entries

/-- Slots that the contexts of one core hold reserved in a channel. -/
def coreResv (k : Core) (ch : Nat) : Nat :=
  k.eng.txs.foldl (fun a x => a + (x.resv.filter (fun r => r.1 = ch)).foldl (fun b r => b + r.2) 0) 0

/-- Slots reserved in a channel and not yet pushed. -/
def chanResv (s : State) (p ch : Nat) : Nat :=
  let h := chanProd s p ch
  (allCores s).foldl (fun a c =>
    if partOf s c = h.1 ∧ (c.cc ∨ (s.core c).part.isSome) then a + coreResv (s.core c) h.2 else a) 0

/-- The channel's state as a producer meets it: the status of a failure. -/
def chanFail (s : State) (p ch : Nat) : Option Nat :=
  let x := getChan s p ch
  if !x.opn then some 6 else if !x.prod then some 2 else none

/-- What a context holds reserved in a channel. -/
def ownResv (x : Tx) (ch : Nat) : Nat := (x.resv.filter (fun r => r.1 = ch)).foldl (fun b r => b + r.2) 0

/-- Use up one reserved slot. -/
def takeResv : List (Nat × Nat) → Nat → List (Nat × Nat)
  | [], _ => []
  | r :: t, ch => if r.1 = ch then (if r.2 ≤ 1 then t else (r.1, r.2 - 1) :: t) else r :: takeResv t ch

/-! ### QRESV, QPUSH, QSTAT (14:R290 to R294) -/

def execQresv (ch : BitVec 4) (k : BitVec 8) (t : BitVec 4) (s : State) : Host.Outcome State Fault Refusal :=
  .next (issueTx s t.toNat (.qresv ch.toNat (k.toNat + 1)) true 0 0)

def execQpush (ch : BitVec 4) (f : BitVec 3) (r : BitVec 5) (t : BitVec 4) (s : State) : Host.Outcome State Fault Refusal :=
  .next (issueTx s t.toNat (.qpush ch.toNat (cmData s f r.toNat)) true 0 0)

/-- Channel status (SEL 0). -/
def chanStatus (s : State) (p ch : Nat) : W64 :=
  let x := getChan s p ch
  BitVec.ofNat 64 (flagAt x.cons 35 + flagAt x.prod 34 + flagAt x.peer.isSome 33 + flagAt x.opn 32
    + chanResv s p ch * 2 ^ 16 + (chanEntries s p ch).length)

/-- Latch status (SEL 1). -/
def latchStatus (s : State) : W64 :=
  let v := [0, 1, 2, 3].foldl (fun a i => a + flagAt (queueHead s i).isSome i) 0
  BitVec.ofNat 64 ((qemptySeen s).toNat * 16 + v)

/-- Event-queue status (SEL 2). -/
def evStatus (s : State) (p : Nat) : W64 :=
  let q := getPart s p
  BitVec.ofNat 64 (flagAt q.evFull 32 + q.ovCount * 2 ^ 16 + q.evCount)

def execQstat (ch : BitVec 4) (f : BitVec 3) (r : BitVec 5) (sel : BitVec 2) (s : State) : Host.Outcome State Fault Refusal :=
  let p := partOf s s.cur.core
  let v := match sel.toNat with
    | 0 => chanStatus s p ch.toNat
    | 1 => latchStatus s
    | _ => evStatus s p
  let effs : List Eff := match sel.toNat with
    | 0 => []
    | 1 => [.clrQempty (qemptySeen s)]
    | _ => if (getPart s p).evFull then [.clrFull] else []
  .next (withRoom s (fun s =>
    let s1 := if effs = [] then s
      else updCx s (fun x => { x with pends := x.pends ++ [{ newPend s 1 with effs := effs }] })
    emit s1 (intoReg s f r.toNat { newPend s 2 with val := .w v })))

/-- The oldest operation of a context, where it is a queue operation that may act now. -/
def headQueueOp (s : State) (c : CoreRef) (i : Nat) : Option TxOp :=
  match (getTx (s.core c) i).ops.head? with
  | some o => if o.started ∧ (getTx (s.core c) i).fault = none then some o else none
  | none => none

/-- QRESV_COMPLETE (14:R291): the oldest operation of context ev.i reserves its slots, or fails. -/
def execQresvComplete (s : State) : Host.Outcome State Fault Refusal :=
  let c := s.ev.core
  let i := s.ev.i
  let s0 := startTx s c i 0
  .next (match headQueueOp s0 c i with
    | none => s0
    | some o => match o.kind with
      | .qresv ch k =>
        let p := partOf s0 c
        match o.out, chanFail s0 p ch with
        | some x, _ => (txFinish s0 c i o x).2
        | none, some st => (txFinish s0 c i o (st, ch)).2
        | none, none =>
          if 256 < (chanEntries s0 p ch).length + chanResv s0 p ch + k then s0
          else
            let r := txFinish s0 c i o (0, 0)
            if r.1 then updTx r.2 c i (fun x => { x with resv := x.resv ++ [(ch, k)] }) else r.2
      | _ => s0)

/-- QPUSH_ENQUEUE (14:R291): the oldest operation of context ev.i enqueues its entry, or fails. -/
def execQpushEnqueue (s : State) : Host.Outcome State Fault Refusal :=
  let c := s.ev.core
  let i := s.ev.i
  let s0 := startTx s c i 0
  .next (match headQueueOp s0 c i with
    | none => s0
    | some o => match o.kind with
      | .qpush ch v =>
        let p := partOf s0 c
        match o.out, chanFail s0 p ch with
        | some x, _ => (txFinish s0 c i o x).2
        | none, some st => (txFinish s0 c i o (st, ch)).2
        | none, none =>
          let own := ownResv (getTx (s0.core c) i) ch ≠ 0
          if !own ∧ 256 ≤ (chanEntries s0 p ch).length + chanResv s0 p ch then s0
          else
            let r := txFinish s0 c i o (0, 0)
            if r.1 then
              let s1 := if own then updTx r.2 c i (fun x => { x with resv := takeResv x.resv ch }) else r.2
              let h := chanHome s1 p ch
              updChan s1 h.1 h.2 (fun x => { x with entries := x.entries ++ [v] })
            else r.2
      | _ => s0)

/-! ### The event queue's overflow (14:R286) -/

/-- EVENT_OVERFLOW_MOVE: records of partition ev.i move on as room frees: the oldest in overflow into the ring, or the oldest
that waits into the overflow or the ring. -/
def execEventOverflowMove (s : State) : Host.Outcome State Fault Refusal :=
  let p := s.ev.i
  let q := getPart s p
  .next (
    if 0 < q.ovCount ∧ q.evCount < 4096 then
      let r := sysRead s (q.ovfl + 32 * q.ovHead) 32
      let a := 0x20000 + 32 * ((q.evHead + q.evCount) % 4096)
      engWrite (updPart s p (fun q => { q with
        evCount := q.evCount + 1, ovHead := (q.ovHead + 1) % 32768, ovCount := q.ovCount - 1 })) ⟨true, p⟩ a r
    else match q.evWait with
      | [] => s
      | r :: t =>
        if (q.ovCount = 0 ∧ q.evCount < 4096) ∨ q.ovCount < 32768 then
          updPart (enterRecord (updPart s p (fun q => { q with evWait := [] })) p r) p (fun q => { q with evWait := t })
        else s)

/-! ### WATCH (14:R295) -/

/-- WATCH.arm: the granule is translated precisely, a misaligned address being cause 0x07 and a translation fault 0x06; the
slot number is given when the watch is armed. -/
def execWatchArm (d : BitVec 5) (a b : BitVec 6) (g : BitVec 3) (n : BitVec 1) (s : State) : Host.Outcome State Fault Refusal :=
  .next (guarded s g n [a, b] (fun s' =>
    let v := srcS s a
    if v.toNat % 64 ≠ 0 then issueFail s' 0x07 v
    else match xlate s' s.cur.core 20 v.toNat true false with
      | (.fault _, s1) => issueFail s1 0x06 v
      | (.ok pa _, s1) => startStall s1 { kind := .watch, a := BitVec.ofNat 64 pa, b := srcS s b, dst := dstS s d.toNat, k := s.serial }))

/-- WATCH.dis frees a slot that has not fired. -/
def execWatchDis (a : BitVec 6) (g : BitVec 3) (n : BitVec 1) (s : State) : Host.Outcome State Fault Refusal :=
  .next (plainS s g n [a] (fun s' => updMe s' (fun k => { k with ctl := { k.ctl with
    watch := k.ctl.watch.set ((srcS s a).toNat % 8) none } })))

/-- A watch slot is free: neither armed nor fired with its record still to be posted. -/
def freeWatch (k : Core) : Option Nat :=
  (List.range 8).find? (fun i => k.ctl.watch.getD i none = none && !k.ctl.fired.any (fun f => f.1 = i))

/-- WATCH_ARM_DONE: ev.j is 1 for the urgent context. -/
def execWatchArmDone (s : State) : Host.Outcome State Fault Refusal :=
  let c := s.ev.core
  let u : Bool := s.ev.j = 1
  .next (match stallOf s c u .watch with
    | none => s
    | some st => match freeWatch (s.core c) with
      | none => finishStall s c u st (-1)
      | some i =>
        finishStall (s.upd c (fun k => { k with ctl := { k.ctl with
          watch := k.ctl.watch.set i (some (st.a.toNat / 64, st.b.setWidth 24)) } })) c u st (BitVec.ofNat 64 i))

/-- WATCH_FIRE: the record of the oldest slot that has fired; the slot is free again. It waits for room (14:R286). -/
def execWatchFire (s : State) : Host.Outcome State Fault Refusal :=
  let c := s.ev.core
  .next (match (s.core c).ctl.fired with
    | [] => s
    | f :: t =>
      if !evRoom s (partOf s c) 1 then evSetFull s (partOf s c)
      else postCore (s.upd c (fun k => { k with ctl := { k.ctl with fired := t } })) c 11 0 0 f.1 0 f.2.2.toNat)

end Sys2Proof.Machine
end

