-- ==== Sys2Proof/Machine/Fabric.lean ====
section
/-!
DEFINITION. The transfer engines and the Afgen ports (16): descriptors, pieces of transfers read and written, timetabled flits,
receive tiles and queues, flits arriving, retries and lost links. What is sent to another chip leaves through the outbox; what
another chip sends arrives as an input.
-/

namespace Sys2Proof.Machine

/-! ### Address forms and descriptors (16:R334) -/

def isVirt (v : W64) : Bool := v.getLsbD 63

/-- Chip, core and offset of a vault form. -/
def vChip (v : W64) : Nat := (v.extractLsb' 30 9).toNat
def vCore (v : W64) : Nat := (v.extractLsb' 23 7).toNat
def vOff (v : W64) : Nat := (v.extractLsb' 0 23).toNat
def vVirt (v : W64) : Nat := (v.extractLsb' 0 48).toNat

/-- The reserved bits of an address form are 0, and a vault offset is a multiple of 16. -/
def formOk (v : W64) : Bool :=
  if isVirt v then (v.extractLsb' 48 15) = 0 else (v.extractLsb' 39 24) = 0 && vOff v % 16 = 0

structure TDesc where
  src : W64
  dst : W64
  len : Nat
  mode : Nat
  next : Bool
  notify : Bool
  rq : Nat
  tile : Nat
  note : W64
deriving DecidableEq, Repr

/-- A descriptor within the limits of 16:R334. -/
def parseT (d : List W8) : Option TDesc :=
  let src := BitVec.ofNat 64 (fieldAt d 0 8)
  let dst := BitVec.ofNat 64 (fieldAt d 8 8)
  let len := fieldAt d 16 4
  let mode := fieldAt d 20 1
  let fl := fieldAt d 21 1
  if formOk src ∧ formOk dst ∧ len % 16 = 0 ∧ 16 ≤ len ∧ len ≤ 2 ^ 24 ∧ mode ≤ 3 ∧ fl < 16
      ∧ (mode = 0 ∨ !isVirt dst) ∧ (mode ≠ 3 ∨ vOff dst % 32 = 0) ∧ !(bitOf fl 1 && isVirt dst) then
    some { src := src, dst := dst, len := len, mode := mode, next := bitOf fl 0, notify := bitOf fl 1, rq := fl / 4 % 4
           tile := fieldAt d 22 2, note := BitVec.ofNat 64 (fieldAt d 24 8) }
  else none

/-- The near memory that a vault form on this chip names: for a control core, its own number means its data memory
(16:R332). -/
def nearOf (c : CoreRef) (v : W64) : CoreRef := if c.cc ∧ vCore v = c.num then c else ⟨false, vCore v⟩

def ownChip (s : State) (v : W64) : Bool := isVirt v || vChip v = s.chip

/-- A core belongs to a partition. -/
def inPart (s : State) (t : CoreRef) (p : Nat) : Bool :=
  hasCore s t && (if t.cc then t.num = p else (s.core t).part = some p)

/-- Bytes that a transfer covers at its destination. -/
def dstSpan (d : TDesc) : Nat := if d.mode = 3 then 8 * d.len else d.len

/-- A range lies in the near memory that it names. -/
def spanOk (s : State) (c : CoreRef) (v : W64) (n : Nat) : Bool :=
  isVirt v || vOff v + n ≤ (if vChip v = s.chip then nearSize (nearOf c v) else 0x800000)

/-- What each instruction asks of its addresses (16:R335). -/
def kindOk (s : State) (c : CoreRef) (k : TxKind) (d : TDesc) : Bool :=
  let own (v : W64) : Bool := !isVirt v && vChip v = s.chip && vCore v = c.num
  (match k with
   | .send => isVirt d.src || own d.src
   | .copy => ownChip s d.src && ownChip s d.dst
   | _ => own d.dst) && spanOk s c d.src d.len && spanOk s c d.dst (dstSpan d)

/-- Flits that n payload bytes take. -/
def flitCount (n : Nat) : Nat := (n + 223) / 224

/-- Pieces of a transfer: offset and bytes. A piece is what one flit carries; toward virtual memory, what one granule of memory
takes. -/
def piecesT (d : TDesc) : List (Nat × Nat) :=
  if isVirt d.dst then
    let a := vVirt d.dst
    (granules 64 a d.len).map (fun k => (max a (64 * k) - a, min (a + d.len) (64 * k + 64) - max a (64 * k)))
  else
    (List.range ((d.len + 223) / 224)).map (fun i => (224 * i, min 224 (d.len - 224 * i)))

/-! ### Receive tiles (16:R337 to R339) -/

def getRx (k : Core) (i : Nat) : RxSlot := k.eng.rx.getD i {}

def updRx (s : State) (c : CoreRef) (i : Nat) (f : RxSlot → RxSlot) : State :=
  s.upd c (fun k => { k with eng := { k.eng with rx := k.eng.rx.set i (f (getRx k i)) } })

/-- Complete the RXARM of a tile that is ready, and report an overcount, as far as there is room for the records. -/
def rxSettle (s : State) (c : CoreRef) (i : Nat) : State :=
  let r := getRx (s.core c) i
  let s1 :=
    if r.ready ∧ r.num ≠ 0 then
      let need := (if r.pois then 1 else 0) + tlFires s c 6 r.num
      if need ≠ 0 ∧ !evRoom s (partOf s c) need then evSetFull s (partOf s c)
      else
        let s2 := updRx s c i (fun r => { r with num := 0 })
        let s3 := if r.pois then setErr (postCore s2 c 5 1 6 r.num r.num (txDetail 0 6 0)) c 6 else s2
        tlComplete s3 c 6 r.num
    else s
  let r := getRx (s1.core c) i
  if r.excess ∧ !r.overPosted ∧ r.num = 0 then
    if !evRoom s1 (partOf s1 c) 1 then evSetFull s1 (partOf s1 c)
    else postCore (updRx s1 c i (fun r => { r with overPosted := true })) c 5 2 6 r.armNum r.armNum (txDetail 0 6 0)
  else s1

/-- Words written count toward an armed tile. -/
def countWords (s : State) (c : CoreRef) (tile n : Nat) (bad : Bool) : State :=
  let i := tile % 64
  let r := getRx (s.core c) i
  if tile = 0 ∨ !r.armed ∨ r.id ≠ tile ∨ (s.core c).clk.cyc < r.start then s
  else
    let m := r.counted + n
    rxSettle (updRx s c i (fun r => { r with
      counted := min m (2 ^ 24 - 1), pois := r.pois || bad
      ready := r.ready || decide (r.expected ≤ m), excess := r.excess || decide (r.expected < m) })) c i

/-- RXARM (16:R338). -/
def execRxarm (f : BitVec 3) (r : BitVec 5) (s : State) : Host.Outcome State Fault Refusal :=
  .next (
    let c := s.cur.core
    if c.cc then issueFail s 0x06 0
    else
      let a := cmData s f r.toNat
      let id := (a.extractLsb' 0 16).toNat
      let n := (a.extractLsb' 16 24).toNat
      let x := getRx (me s) (id % 64)
      let t := takeNumber s c 6
      let fail (code : Nat) : State := t.2.upd c (fun k => { k with eng := { k.eng with
        rxFails := k.eng.rxFails ++ [(t.1, 2, txDetail code 6 0)] } })
      if id = 0 ∨ n = 0 then fail 8
      else if x.armed ∧ !x.ready then fail 9
      else updRx t.2 c (id % 64) (fun _ => { id := id, expected := n, armed := true, num := t.1, armNum := t.1, start := (me s).clk.cyc + 1 }))

/-- RXFLAG (16:R339). A ready tile is acquired: a vector-matrix core needs nothing more for it (17:R355). -/
def execRxflag (f : BitVec 3) (r : BitVec 5) (t : BitVec 16) (s : State) : Host.Outcome State Fault Refusal :=
  .next (
    if isCC s then issueFail s 0x06 0
    else
      let x := getRx (me s) (t.toNat % 64)
      let held := x.armed && x.id = t.toNat && x.start ≤ (me s).clk.cyc
      let v := if held then x.counted * 2 ^ 32 + flagAt x.excess 3 + flagAt x.pois 2 + 2 + flagAt x.ready 0 else 0
      withRoom s (fun s => emit s (intoReg s f r.toNat { newPend s 2 with val := .w (BitVec.ofNat 64 v) })))

/-- A failed RXARM completes with its record. -/
def rxFailDone (s : State) (c : CoreRef) : State :=
  match (s.core c).eng.rxFails with
  | [] => s
  | x :: t =>
    if !evRoom s (partOf s c) (1 + tlFires s c 6 x.1) then evSetFull s (partOf s c)
    else tlComplete (setErr (postCore (s.upd c (fun k => { k with eng := { k.eng with rxFails := t } })) c 5 x.2.1 6 x.1 x.1 x.2.2) c 6) c 6 x.1

/-! ### Payload written (16:R328, R329) -/

/-- Add 4-byte words, in f32 or i32. -/
def addWords (f32 : Bool) (old new : List W8) : List W8 :=
  (List.range 4).flatMap (fun i =>
    let a := leW32 (byteSlice old (4 * i) 4)
    let b := leW32 (byteSlice new (4 * i) 4)
    word32Bytes (if f32 then (fadd .f32 .rne false (fdec .f32 a) (fdec .f32 b)).v else a + b))

/-- Granule k of a transfer reaches the near memory of t at offset `base`; the Bool says that poison was met. A poisoned one poisons
its destination: in modes 1 and 2 the granule it would be added to, in mode 3 the bins that its words go to; nothing is added then, nor
where the destination is poisoned (16:R329). -/
def putGran (s : State) (t : CoreRef) (base k mode : Nat) (bs : List W8) (bad : Bool) : Bool × State :=
  let a := base + 16 * k
  if mode = 0 then (bad, engPut s t a bs bad)
  else if bad then
    let n : Nat × Nat := if mode = 3 then (base + 128 * k, 128) else (a, 16)
    (true, (useBanks s t n.1 n.2).upd t (fun x => { x with near := x.near.taintBytes n.1 n.2 }))
  else if mode = 3 then
    (List.range 4).foldl (fun r w =>
      let b := base + 32 * (4 * k + w)
      let m := engRead r.2 t b 32
      if m.2.1 then (true, m.2.2) else (r.1, engWrite m.2.2 t b (binPlus m.1 (leW32 (byteSlice bs (4 * w) 4))))) (false, s)
  else
    let r := engRead s t a 16
    if r.2.1 then (true, r.2.2) else (false, engWrite r.2.2 t a (addWords (mode = 1) r.1 bs))

/-- Granule j of a payload is written, and its words counted: n0 is the number of the payload's first granule in its transfer, `pois` its
poisoned granules. -/
def putPayload (s : State) (t : CoreRef) (base n0 mode tile : Nat) (bs : List W8) (pois : List Nat) (j : Nat) : State :=
  let r := putGran s t base (n0 + j) mode (byteSlice bs (16 * j) 16) (pois.contains j)
  countWords r.2 t tile 4 r.1

/-- A whole payload is written. -/
def deliver (s : State) (t : CoreRef) (base n0 mode tile : Nat) (bs : List W8) (pois : List Nat) : State :=
  (List.range (bs.length / 16)).foldl (fun s j => putPayload s t base n0 mode tile bs pois j) s

/-- n bytes of payload from granule n0 on must wait for their banks. -/
def deliverBusy (k : Core) (base n0 mode n : Nat) : Bool :=
  if mode = 3 then engBusy k (base + 128 * n0) (8 * n) else engBusy k (base + 16 * n0) n

/-- The granules of a flit that its banks take now are written, in order; its count of those done rises (10:R190). -/
def deliverSome (t : CoreRef) (base n0 : Nat) (f : Flit) : Nat → State → Nat → Nat × State
  | 0, s, j => (j, s)
  | n + 1, s, j =>
    if f.bytes.length / 16 ≤ j ∨ deliverBusy (s.core t) base (n0 + j) f.mode 16 then (j, s)
    else deliverSome t base n0 f n (putPayload s t base n0 f.mode f.tile f.bytes f.pois j) (j + 1)

/-! ### Flits of this chip (16:R320 to R323, R437) -/

/-- A timetabled flit that core c sent through a port failed or was rejected: the port's sign-off in that core's gang carries
ERR (16:R330). -/
def portErr (s : State) (c : CoreRef) (p : Nat) : State :=
  match (s.core c).ph.gang with
  | none => s
  | some g => updGang s g (fun x => { x with perr := insNat p x.perr })

/-- A flit for the home of a multicast group, which is a switch (16:R437). -/
def toHome (k : FKind) : Bool := k = .mcStore || k = .mcJoin || k = .mcLeave

/-- A flit that this chip sends over a link. -/
def crosses (s : State) (f : Flit) : Bool := f.srcChip = s.chip && (f.timed || f.dstChip ≠ s.chip || toHome f.kind)

/-- The port over which a flit of a port goes: another one where its link has been lost (16:R323). -/
def linkOf (s : State) (f : Flit) : Nat :=
  match (getPort s f.port).detour with
  | some (q, _) => q
  | none => f.port

/-- Further ticks of the path of a port that has lost its link. -/
def detourTicks (s : State) (p : Nat) : Nat :=
  match (getPort s p).detour with
  | some (_, n) => n
  | none => 0

/-- Ticks from this chip to where a flit goes; the home of group g stands as number 1,024 + g (entry 14). -/
def flitTicks (s : State) (f : Flit) : Nat :=
  pathTicks s.chip (if toHome f.kind then 1024 + f.grp else f.dstChip) + detourTicks s f.port

/-- A flit from an operation of a context. -/
def flitOf (s : State) (c : CoreRef) (i : Nat) (o : TxOp) (kind : FKind) (dst : W64) : Flit :=
  { kind := kind, part := partOf s c, srcChip := s.chip, srcCc := c.cc, srcCore := c.num, ctx := i, num := o.num
    dstChip := vChip dst, dstCore := vCore dst, off := vOff dst }

/-- An acknowledgement reaches the operation that waits for it: op 2 is that of a notification. -/
def gotAck (s : State) (f : Flit) (lost : Bool) : State :=
  updTxOp s (flitDst f) f.ctx f.num (fun o =>
    if f.op = 2 then { o with note := 2, lost := o.lost || lost }
    else { o with unacked := if lost && o.kind = .rload then 0 else o.unacked - 1, lost := o.lost || lost })

/-- Answer a flit: at once on this chip, through the outbox elsewhere. -/
def reply (s : State) (f : Flit) (kind : FKind) (lost : Bool) : State :=
  let a := answer s f kind
  if f.srcChip = s.chip then gotAck s a lost else { s with outbox := s.outbox ++ [.flit a] }

/-! ### Operations of a transfer context -/

/-- Read n bytes of a source at offset x: bytes, poisoned 16-byte granules, and what to report under PPOL 1. -/
inductive SrcRead where
  | got (bs : List W8) (pois : List Nat) (report : Option Nat) (s : State)
  | wait (va : Option Nat) (s : State)
  | fault (code va : Nat) (s : State)
  /-- no path to the chip that holds it -/
  | lost (s : State)

/-- A part of a source in another chip's memory: as received, or asked for (11:R226). -/
def srcFar (s : State) (c : CoreRef) (i : Nat) (o : TxOp) (va n pa : Nat) : SrcRead :=
  match o.got.find? (fun x => x.1 = va) with
  | some x => .got x.2.1 [] none s
  | none =>
    if o.asked.contains va then .wait none s
    else match sendOut s { memAsk s c i o.num 0 pa with cnt := n, seqn := va } with
      | none => .lost s
      | some s1 => .wait none (updTxOp s1 c i o.num (fun o => { o with asked := va :: o.asked }))

/-- Read virtual memory, granule by granule of 64 bytes. -/
def srcVirt (s : State) (c : CoreRef) (i : Nat) (o : TxOp) : List (Nat × Nat) → SrcRead
  | [] => .got [] [] none s
  | x :: t =>
    match engXlat s c (4 + i) true false (x.1 : Nat) with
    | (.miss va, s1) => .wait (some va) (askWalk s1 c (4 + i) va)
    | (.fault code va, s1) => .fault code va s1
    | (.ok pa e, s1) =>
      let far := isRemote pa
      let s2 := if far then s1 else sysMeet s1 (pa / 64)
      let bad := if far then o.got.any (fun g => g.1 = x.1 && g.2.2) else sysPoisoned s2 pa 1
      match (if far then srcFar s2 c i o x.1 x.2 pa else .got (sysRead s2 pa x.2) [] none s2) with
      | .got here _ _ s3 =>
        (match srcVirt s3 c i o t with
        | .got bs _ rep s4 => .got (here ++ bs) [] (if bad && leafPpol e = 1 then some x.1 else rep) s4
        | r => r)
      | r => r

/-- The poisoned 16-byte granules of n bytes read from virtual address va. -/
def virtPois (s : State) (c : CoreRef) (i : Nat) (o : TxOp) (va n : Nat) : List Nat :=
  (List.range ((n + 15) / 16)).filter (fun k =>
    (granules 64 (va + 16 * k) (min 16 (n - 16 * k))).any (fun g => match engXlat s c (4 + i) true false ((64 * g : Nat) : Int) with
      | (.ok pa _, _) => if isRemote pa then o.got.any (fun x => x.1 / 64 = g && x.2.2) else s.syspoison.contains (pa / 64)
      | _ => false))

/-- The page of a source or destination is strongly ordered. -/
def strongPage (s : State) (c : CoreRef) (i va : Nat) (w : Bool) : Bool :=
  match (engXlat s c (4 + i) (!w) w (va : Nat)).1 with
  | .ok _ e => leafKind e = 2
  | _ => false

def readSrc (s : State) (c : CoreRef) (i : Nat) (o : TxOp) (src : W64) (x n : Nat) : SrcRead :=
  if isVirt src then
    let va := vVirt src + x
    let parts := (granules 64 va n).map (fun k => (max va (64 * k), min (va + n) (64 * k + 64) - max va (64 * k)))
    match srcVirt s c i o parts with
    | .got bs _ rep s1 => .got bs (virtPois s1 c i o va n) rep s1
    | r => r
  else
    let t := nearOf c src
    let a := vOff src + x
    if engBusy (s.core t) a n then .wait none s
    else
      let r := engRead s t a n
      let pois := (List.range (n / 16)).filter (fun k => (r.2.2.core t).near.poison.contains ((a + 16 * k) / 16))
      .got r.1 pois none r.2.2

/-! ### The order of writes by KIND (17:R357, R361) -/

/-- An operation may still write a page of a kind. -/
def mayWrite (s : State) (c : CoreRef) (i kind : Nat) (o : TxOp) : Bool :=
  let page (va : Nat) : Bool := match (engXlat s c (4 + i) false true (va : Nat)).1 with
    | .ok _ e => leafKind e = kind
    | _ => true
  if o.out.isSome then false
  else match o.kind with
    | .send => pend page
    | .copy => pend page
    | .ratom =>
      let tgt := BitVec.ofNat 64 (fieldAt o.desc 0 8)
      !o.ready || (isVirt tgt && o.settled.isNone && page (vVirt tgt))
    | _ => false
where
  pend (page : Nat → Bool) : Bool :=
    !o.loaded || (match parseT o.desc with
      | none => false
      | some d => d.next || (isVirt d.dst && (o.asked ≠ [] || o.todo.any (fun n => page (vVirt d.dst + ((piecesT d).getD n (0, 0)).1)))))

/-- Operations of the context before number num may still write pages of a kind. -/
def priorWrites (s : State) (c : CoreRef) (i num kind : Nat) : Bool :=
  (getTx (s.core c) i).ops.any (fun p => decide (p.num < num) && mayWrite s c i kind p)

/-- A write of an operation to a page waits: on release-consistent and strongly ordered pages for the writes of the operations before it,
on strongly ordered ones also for its own earlier pieces. -/
def writeWaits (s : State) (c : CoreRef) (i : Nat) (o : TxOp) (n e : Nat) : Bool :=
  let k := leafKind e
  (k = 1 || k = 2) && priorWrites s c i o.num k || (k = 2 && (o.todo.head? ≠ some n || o.asked ≠ []))

/-- Write piece n to virtual memory: within one granule. A poisoned payload writes the poison pattern, and a part of a poisoned
granule is not committed and reported (11:R235). The Bool says that the piece is dealt with. -/
def writeVirt (s : State) (c : CoreRef) (i : Nat) (o : TxOp) (n va : Nat) (bs : List W8) (bad : Bool) : Bool × State :=
  let num := o.num
  let wait (s : State) : State := updTxOp s c i num (fun o => { o with wait := some va })
  match engXlat s c (4 + i) false true (va : Nat) with
  | (.miss v, s1) => (false, askWalk (wait s1) c (4 + i) v)
  | (.fault code v, s1) => (false, txFault (wait s1) c i code v)
  | (.ok pa e, s1) =>
    if writeWaits s1 c i o n e then (false, s1)
    else if isRemote pa then
      match sendOut s1 { memAsk s1 c i num 1 pa with
        bytes := bs, pois := if bad then [0] else [], seqn := va, idx := n, cnt := bs.length } with
      | none => (true, updTxOp s1 c i num (fun o => { o with lost := true }))
      | some s2 => (true, updTxOp s2 c i num (fun o => { o with asked := va :: o.asked }))
    else if bad then (true, sysPoison s1 (pa / 64))
    else
      let w := sysWriteUnit s1 pa bs
      (true, if w.1 then w.2 else updTxOp w.2 c i num (fun o => { o with pois := if o.pois = none then some va else o.pois }))

/-- Piece n of an operation's descriptor has been dealt with: what was received for it is used up. -/
def pieceDone (s : State) (c : CoreRef) (i num n : Nat) (rep : Option Nat) : State :=
  updTxOp s c i num (fun o => { o with
    todo := o.todo.filter (· ≠ n), wait := none, pois := match o.pois with | some v => some v | none => rep })

/-- A piece that can reach nothing: the operation has lost it. -/
def losePiece (s : State) (c : CoreRef) (i num n : Nat) : State :=
  updTxOp (pieceDone s c i num n none) c i num (fun o => { o with lost := true })

/-- Forget the parts received of n bytes at va. -/
def dropGot (s : State) (c : CoreRef) (i num va n : Nat) : State :=
  updTxOp s c i num (fun o => { o with got := o.got.filter (fun g => !decide (va ≤ g.1 ∧ g.1 < va + n)) })

/-- The bytes of piece n of a transfer go to their destination: a vault of this chip takes them as a flit does (16:R335). -/
def placePiece (s : State) (c : CoreRef) (i : Nat) (o : TxOp) (d : TDesc) (n : Nat) (pc : Nat × Nat) (bs : List W8) (pois : List Nat)
    (rep : Option Nat) : State :=
  let done (s : State) : State := dropGot (pieceDone s c i o.num n rep) c i o.num (vVirt d.src + pc.1) pc.2
  if isVirt d.dst then
    let w := writeVirt s c i o n (vVirt d.dst + pc.1) bs (pois ≠ [])
    if w.1 then done w.2 else w.2
  else if vChip d.dst = s.chip then
    let t := nearOf c d.dst
    if !inPart s t (partOf s c) then losePiece s c i o.num n
    else
      let f := { flitOf s c i o .data d.dst with
        dstCc := t.cc, dstCore := t.num, bytes := bs, pois := pois, mode := d.mode, tile := d.tile, idx := n, due := s.now }
      let s1 := updTxOp (done s) c i o.num (fun o => { o with unacked := o.unacked + 1 })
      { s1 with flits := s1.flits ++ [f] }
  else
    let f := { flitOf s c i o .data d.dst with bytes := bs, pois := pois, mode := d.mode, tile := d.tile, idx := n }
    match sendOut s f with
    | none => losePiece s c i o.num n
    | some s1 => updTxOp (done s1) c i o.num (fun o => { o with unacked := o.unacked + 1 })

/-- Move piece n of a transfer; a strongly ordered source is read in address order (17:R357). -/
def movePiece (s : State) (c : CoreRef) (i : Nat) (o : TxOp) (d : TDesc) (n : Nat) : State :=
  let pc := (piecesT d).getD n (0, 0)
  if isVirt d.src ∧ o.todo.head? ≠ some n ∧ strongPage s c i (vVirt d.src + pc.1) false then s
  else match readSrc s c i o d.src pc.1 pc.2 with
    | .wait va s1 => updTxOp s1 c i o.num (fun o => { o with wait := va })
    | .fault code va s1 => txFault (updTxOp s1 c i o.num (fun o => { o with wait := some va })) c i code va
    | .lost s1 => losePiece s1 c i o.num n
    | .got bs pois rep s1 => placePiece s1 c i o d n pc bs pois rep

/-- Check the present descriptor of a TXSEND, TXCOPY or RLOAD; an RLOAD from another chip sends its request. -/
def loadDesc (s : State) (c : CoreRef) (i : Nat) (o : TxOp) : State :=
  match parseT o.desc with
  | none => txFail s c i o.num 8
  | some d =>
    if !kindOk s c o.kind d then txFail s c i o.num 8
    else if o.kind = .rload ∧ !isVirt d.src ∧ vChip d.src ≠ s.chip then
      match sendOut s { flitOf s c i o .rloadReq d.src with a := BitVec.ofNat 64 d.len } with
      | none => txFail s c i o.num 13
      | some s1 => updTxOp s1 c i o.num (fun o => { o with loaded := true, note := 0, unacked := flitCount d.len })
    else if !isVirt d.src ∧ !inPart s (nearOf c d.src) (partOf s c) then txFail s c i o.num 13
    else updTxOp s c i o.num (fun o => { o with loaded := true, note := 0, todo := List.range (piecesT d).length })

/-- The notification of a descriptor is sent to its destination core. -/
def sendNote (s : State) (c : CoreRef) (i : Nat) (o : TxOp) (d : TDesc) : State :=
  let f := { flitOf s c i o .notify d.dst with a := d.note, mode := d.rq, op := 2 }
  if vChip d.dst = s.chip then
    let t := nearOf c d.dst
    updTxOp (s.upd t (fun k => { k with eng := { k.eng with notes := k.eng.notes ++ [(d.rq, d.note, f)] } })) c i o.num
      (fun o => { o with note := 1 })
  else match sendOut s f with
    | none => txFail s c i o.num 13
    | some s1 => updTxOp s1 c i o.num (fun o => { o with note := 1 })

/-- The outcome of an operation all of whose work is done. -/
def txResult (c : CoreRef) (i : Nat) (o : TxOp) : Nat × Nat :=
  if o.lost then (2, txDetail 13 (txCtr c i) 0)
  else match o.pois with
    | some va => (1, txDetail 0 (txCtr c i) va)
    | none => (0, 0)

/-- What follows a descriptor whose bytes are all written: its notification, the next descriptor, or the end. -/
def nextDesc (s : State) (c : CoreRef) (i : Nat) (o : TxOp) (d : TDesc) : State :=
  if o.todo ≠ [] ∨ o.unacked ≠ 0 ∨ o.asked ≠ [] ∨ o.note = 1 then s
  else if o.lost then setTxOut s c i o.num (txResult c i o)
  else if d.notify ∧ o.note = 0 then sendNote s c i o d
  else if d.next then
    if 64 ≤ o.chain + 1 then txFail s c i o.num 8
    else if engBusy (s.core c) (o.daddr + 32 * (o.chain + 1)) 32 then s
    else
      let r := engRead s c (o.daddr + 32 * (o.chain + 1)) 32
      if r.2.1 then setTxOut r.2.2 c i o.num (1, txDetail 0 (txCtr c i) 0)
      else updTxOp r.2.2 c i o.num (fun o => { o with desc := r.1, chain := o.chain + 1, loaded := false })
  else setTxOut s c i o.num (txResult c i o)

/-! ### Atomics and multicast stores set out (16:R341, R342, R346, R347) -/

/-- Bytes of an atomic by its code (16:R346). -/
def ratSize (n : Nat) : Nat := if n = 7 then 4 else 8

/-- Send, or send again, the packet of a RATOM to the home of its target: on this chip, or through a port to the chip that holds the vault
or the memory (16:R347). -/
def sendRatom (s : State) (c : CoreRef) (i : Nat) (o : TxOp) (tgt : W64) (virt : Option Nat) : Option State :=
  let f := { flitOf s c i o .atomic tgt with
    a := BitVec.ofNat 64 (fieldAt o.desc 8 8), b := BitVec.ofNat 64 (fieldAt o.desc 16 8), op := fieldAt o.desc 28 1 % 16 }
  match virt with
  | some pa =>
    if isRemote pa then sendOut s { f with virt := true, off := pa % 2 ^ 39, dstChip := paChip pa }
    else some { s with ratoms := s.ratoms ++ [{ f with virt := true, off := pa, dstChip := s.chip }] }
  | none =>
    if vChip tgt = s.chip then
      let t := nearOf c tgt
      some { s with ratoms := s.ratoms ++ [{ f with dstCc := t.cc, dstCore := t.num }] }
    else sendOut s f

/-- The chip that holds a RATOM's target. -/
def ratomChip (s : State) (tgt : W64) (virt : Option Nat) : Nat :=
  match virt with
  | some pa => if isRemote pa then paChip pa else s.chip
  | none => vChip tgt

/-- Two class latencies and 4,096 ticks; the class latency counts 0 on one chip (16:R348, R437). -/
def resendTicks (s : State) (chip : Nat) : Nat := 2 * (if chip = s.chip then 0 else pathTicks s.chip chip) + 4096

/-- A RATOM's packet goes out and its resend is due later. -/
def ratomOut (s : State) (c : CoreRef) (i : Nat) (o : TxOp) (tgt : W64) (virt : Option Nat) : State :=
  match sendRatom s c i o tgt virt with
  | none => txFail s c i o.num 13
  | some s1 => updTxOp s1 c i o.num (fun o => { o with
      loaded := true, wait := none, sent := o.sent + 1, deadline := s.now + resendTicks s (ratomChip s tgt virt) })

/-- The descriptor of a RATOM is sound. -/
def ratomOk (s : State) (c : CoreRef) (d : List W8) : Bool :=
  let tgt := BitVec.ofNat 64 (fieldAt d 0 8)
  let op := fieldAt d 28 1
  let n := ratSize op
  let a := if isVirt tgt then vVirt tgt else vOff tgt
  (if isVirt tgt then (tgt.extractLsb' 48 15) = 0 else (tgt.extractLsb' 39 24) = 0 && spanOk s c tgt n) && op < 8 && a % n = 0
    && fieldAt d 29 3 = 0 && fieldAt d 24 4 % 8 = 0 && fieldAt d 24 4 + 8 ≤ nearSize c

/-- Set out a RATOM, with a fresh translation of a virtual target. -/
def loadRatom (s : State) (c : CoreRef) (i : Nat) (o : TxOp) : State :=
  let tgt := BitVec.ofNat 64 (fieldAt o.desc 0 8)
  if !ratomOk s c o.desc then txFail s c i o.num 8
  else if isVirt tgt then
    let va := vVirt tgt
    let wait (s : State) : State := updTxOp s c i o.num (fun o => { o with wait := some va })
    match engXlat s c (4 + i) true true (va : Nat) with
    | (.miss v, s1) => askWalk (wait s1) c (4 + i) v
    | (.fault code v, s1) => txFault (wait s1) c i code v
    | (.ok pa e, s1) =>
      if (leafKind e = 1 ∨ leafKind e = 2) ∧ priorWrites s1 c i o.num (leafKind e) then s1 else ratomOut s1 c i o tgt (some pa)
  else ratomOut s c i o tgt none

/-- A group's home side. -/
def getGroup (s : State) (g : Nat) : Group := ((s.groups.find? (fun x => x.1 = g)).map (·.2)).getD {}

def updGroup (s : State) (g : Nat) (f : Group → Group) : State :=
  { s with groups := s.groups.filter (fun x => x.1 ≠ g) ++ [(g, f (getGroup s g))] }

/-- Send flits to the home of a group, one after the other; none of them where no path remains. -/
def sendHome (s : State) : List Flit → Option State
  | [] => some s
  | f :: t => match sendOut s f with
    | none => none
    | some s1 => sendHome s1 t

/-- Set out a multicast store: one flit, or two above 224 bytes, through the ports to the group's home (16:R342, R437). -/
def loadMcsto (s : State) (c : CoreRef) (i : Nat) (o : TxOp) : State :=
  let d := o.desc
  let src := fieldAt d 0 4
  let off := fieldAt d 4 4
  let len := fieldAt d 8 2
  let g := fieldAt d 10 2
  if src % 16 ≠ 0 ∨ nearSize c < src + len ∨ off % 16 ≠ 0 ∨ 0x800000 < off + len ∨ len % 16 ≠ 0 ∨ len < 16 ∨ 256 < len ∨ 4096 ≤ g
      ∨ fieldAt d 12 20 ≠ 0 ∨ (getGroup s g).part ≠ some (partOf s c) then txFail s c i o.num 8
  else if engBusy (s.core c) src len then s
  else
    let r := engRead s c src len
    let pois := (List.range (len / 16)).filter (fun k => (r.2.2.core c).near.poison.contains ((src + 16 * k) / 16))
    let cnt := if 224 < len then 2 else 1
    let mk (j : Nat) : Flit := { flitOf s c i o .mcStore 0 with
      dstChip := s.chip, grp := g, off := off, bytes := byteSlice r.1 (224 * j) (min 224 (len - 224 * j))
      pois := (pois.filter (fun k => decide (14 * j ≤ k ∧ k < 14 * j + 14))).map (fun k => k - 14 * j), idx := j, cnt := cnt }
    match sendHome r.2.2 ((List.range cnt).map mk) with
    | none => txFail r.2.2 c i o.num 13
    | some s1 => updTxOp s1 c i o.num (fun o => { o with loaded := true, gen := g })

/-- Set out a join or leave request to the group's home. -/
def loadJoin (s : State) (c : CoreRef) (i : Nat) (o : TxOp) (g q : Nat) (leave : Bool) : State :=
  if (getGroup s g).part ≠ some (partOf s c) then txFail s c i o.num 8
  else
    let f := { flitOf s c i o (if leave then .mcLeave else .mcJoin) 0 with dstChip := s.chip, grp := g, seqn := q }
    match sendOut s f with
    | none => txFail s c i o.num 13
    | some s0 =>
      let s1 := if leave then s0.upd c (fun k => { k with eng := { k.eng with
        members := k.eng.members.map (fun m => if m.grp = g then { m with leaving := true } else m) } }) else s0
      updTxOp s1 c i o.num (fun o => { o with loaded := true })

/-! ### Steps of a context -/

/-- The operation at position j of a context may act: begun, undecided, and its context not stopped. -/
def liveOp (s : State) (c : CoreRef) (i j : Nat) : Option TxOp :=
  let x := getTx (s.core c) i
  match x.ops[j]? with
  | none => none
  | some o => if o.started ∧ o.out = none ∧ x.fault = none then some o else none

/-- What a walk completes with (16:R336): rerouted flits count in a phase whose DET flag is 0. -/
def walkResult (s : State) (c : CoreRef) (i : Nat) (o : TxOp) : Nat × Nat :=
  if o.lost then (2, txDetail 13 (txCtr c i) 0)
  else match o.moved with
    | some tile => if (s.core c).ph.detf then (0, 0) else (4, tile)
    | none => (0, 0)

/-- Carry an operation on as far as it needs no access of its own: check its descriptor, set it out, notify, go on to the next
descriptor, decide. -/
def prepOp (s : State) (c : CoreRef) (i j : Nat) : State :=
  match liveOp s c i j with
  | none => s
  | some o =>
    let bad := o.poisoned && o.chain = 0
    let once (f : State) : State := if o.lost then txFail s c i o.num 13 else if o.loaded then s else f
    match o.kind with
    | .walk => if o.walk = [] ∧ o.flits = 0 then setTxOut s c i o.num (walkResult s c i o) else s
    | .res => setTxOut s c i o.num (0, 0)
    | .qresv _ _ => s
    | .qpush _ _ => s
    | .join g q => once (loadJoin s c i o g q false)
    | .leave g => once (loadJoin s c i o g 0 true)
    | .mcsto => if bad then setTxOut s c i o.num (1, txDetail 0 (txCtr c i) 0) else once (loadMcsto s c i o)
    | .ratom => if bad then setTxOut s c i o.num (1, txDetail 0 (txCtr c i) 0) else once (loadRatom s c i o)
    | _ =>
      if bad then setTxOut s c i o.num (1, txDetail 0 (txCtr c i) 0)
      else if !o.loaded then loadDesc s c i o
      else match parseT o.desc with
        | none => s
        | some d => nextDesc s c i o d

/-- Begin and carry on every operation of a context. -/
def prepTx (s : State) (c : CoreRef) (i : Nat) : State :=
  (List.range (getTx (s.core c) i).ops.length).foldl (fun s j => prepOp s c i j) (startTxs s c i)

def prepAll (s : State) (c : CoreRef) : State := (List.range (if c.cc then 16 else 2)).foldl (fun s i => prepTx s c i) s

/-- The pieces that the transfer contexts of a core have waiting: context, operation, piece. -/
def txRequests (k : Core) (c : CoreRef) : List (Nat × Nat × Nat) :=
  (List.range (if c.cc then 16 else 2)).flatMap (fun i =>
    let x := getTx k i
    if x.fault.isSome then []
    else x.ops.flatMap (fun o => if o.started && o.out = none then o.todo.map (fun n => (i, o.num, n)) else []))

/-- One engine-half access of the transfer engines, one of the requests waiting. -/
def txAccess (s : State) (c : CoreRef) : State :=
  let l := txRequests (s.core c) c
  let d := draw s l.length
  match l[d.1]? with
  | none => s
  | some q =>
    match (getTx (d.2.core c) q.1).ops.find? (fun o => o.num = q.2.1) with
    | none => d.2
    | some o => match parseT o.desc with
      | none => d.2
      | some t => movePiece d.2 c q.1 o t q.2.2

/-- ENGINE_BANK_ACCESS (10:R190, R192): one request of the window engines or of the transfer engines of a core is made and served,
where its banks are free. The writes of arriving flits are the row FLIT_ARRIVAL, and those of a save or restore the rows SAVE_POINT and
RESTCTX_DONE (entry 99). -/
def execEngineBankAccess (s : State) : Host.Outcome State Fault Refusal :=
  let c := s.ev.core
  let s1 := prepAll (startWins s c) c
  let k := s1.core c
  let d := draw s1 2
  .next (
    if winRequests k ≠ [] ∧ (txRequests k c = [] ∨ d.1 = 0) then winAccess (if txRequests k c = [] then s1 else d.2) c
    else if txRequests k c ≠ [] then txAccess (if winRequests k = [] then s1 else d.2) c
    else s1)

/-! ### The instructions (16:R331, R332, R335, R336) -/

/-- Issue an operation whose descriptor lies at n[base] + 32 * off16. -/
def descOp (s : State) (t : BitVec 4) (b : BitVec 4) (o : BitVec 16) (kind : TxKind) : State :=
  let c := s.cur.core
  let v := readA (cx s) true b.toNat + BitVec.ofInt 64 (o.toInt * 32)
  if c.cc then
    if 0x40000 ≤ v.toNat then issueFail s 0x06 v
    else
      let s1 := addAccs s c [newAcc s c (.desc 32) v.toNat 4 4 0]
      issueTx s1 t.toNat kind false v.toNat 0
  else
    let a := v.toNat % 2 ^ 23
    if 2 ^ 30 ≤ v.toNat ∨ bitsOf v.toNat 29 23 ≠ c.num then issueFail s 0x06 v
    else if v.toNat % 32 ≠ 0 then issueFail s 0x07 v
    else withClaims s c [(4, granAddrs a 32)] [] (fun s =>
      let s1 := addAccs s c [newAcc s c (.desc 32) a 4 4 0]
      issueTx s1 t.toNat kind false a 0)

def execTxsend (c : BitVec 4) (b : BitVec 4) (o : BitVec 16) (s : State) : Host.Outcome State Fault Refusal :=
  .next (descOp s c b o .send)

def execTxcopy (c : BitVec 4) (b : BitVec 4) (o : BitVec 16) (s : State) : Host.Outcome State Fault Refusal :=
  .next (descOp s c b o .copy)

def execRload (c : BitVec 4) (b : BitVec 4) (o : BitVec 16) (s : State) : Host.Outcome State Fault Refusal :=
  .next (descOp s c b o .rload)

def execMcsto (c : BitVec 4) (b : BitVec 4) (o : BitVec 16) (s : State) : Host.Outcome State Fault Refusal :=
  .next (descOp s c b o .mcsto)

def execRatom (c : BitVec 4) (b : BitVec 4) (o : BitVec 16) (s : State) : Host.Outcome State Fault Refusal :=
  .next (descOp s c b o .ratom)

/-- The timetable run of a core in its gang's running phase: entries and INBOUND (16:R325). -/
def fabRun (s : State) (c : CoreRef) : List (List W8) × Nat :=
  match gangOf s c with
  | none => ([], 0)
  | some g => match g.cur with
    | none => ([], 0)
    | some (b, i) => match (if b then g.bufB else g.bufA) with
      | none => ([], 0)
      | some recs => (recs.getD i {}).fab.getD (s.core c).ph.gpos ([], 0)

/-- Fields of a timetable entry (16:R326). -/
def entStamp (e : List W8) : Nat := fieldAt e 0 4 % 2 ^ 20
def entSrc (e : List W8) : Nat := fieldAt e 4 4 % 2 ^ 23
def entLen (e : List W8) : Nat := fieldAt e 8 4 % 2 ^ 17
def entChip (e : List W8) : Nat := fieldAt e 12 4 % 512
def entCore (e : List W8) : Nat := bitsOf (fieldAt e 12 4) 15 9
def entPort (e : List W8) : Nat := bitsOf (fieldAt e 12 4) 21 16
def entDoff (e : List W8) : Nat := fieldAt e 16 4 % 2 ^ 23
def entTile (e : List W8) : Nat := fieldAt e 20 2
def entMode (e : List W8) : Nat := fieldAt e 22 1 % 8
def entFlits (e : List W8) : Nat := (entLen e + 223) / 224

/-- The flits of a run, as entry * 1024 + flit. -/
def runFlits (es : List (List W8)) : List Nat :=
  (es.zip (List.range es.length)).flatMap (fun x => (List.range (entFlits x.1)).map (fun j => x.2 * 1024 + j))

/-- TXWALK (16:R336). -/
def execTxwalk (s : State) : Host.Outcome State Fault Refusal :=
  .next (
    let t := (sylField s 20 4).toNat
    let c := s.cur.core
    if !inPhase s then issueFail s 0x01 0
    else
      let again := (me s).ph.txwalked
      let i := txIndex c t
      let num := (getTL (me s) t).next + 1
      let s1 := issueTx s t .walk true 0 ((me s).ph.phc + 2)
      let s2 := updMe s1 (fun k => { k with ph := { k.ph with txwalked := true } })
      if again then setTxOut s2 c i num (2, txDetail 9 t 0)
      else updTxOp s2 c i num (fun o => { o with walk := runFlits (fabRun s c).1 }))

/-- TXRES acts as the engine receives it, and takes a number (16:R333, 11:R221). -/
def transferRes (s : State) (fail : Bool) : State :=
  let t := (sylField s 20 4).toNat
  let c := s.cur.core
  let i := txIndex c t
  let s1 := issueTx s t .res true 0 0
  match (getTx (me s) i).fault with
  | none => s1
  | some f =>
    if 16 ≤ pendOps (me s) t then s1 else
    let s2 := updTx s1 c i (fun x => { x with fault := none })
    let s3 := updTxOp s2 c i f.num (fun o => { o with wait := none })
    if fail then setTxOut (updTxOp s3 c i f.num (fun o => { o with todo := [] })) c i f.num (2, txDetail 12 t 0)
    else dropMicro s3 c (4 + i) f.va

def execTxresRetry (s : State) : Host.Outcome State Fault Refusal := .next (transferRes s false)

def execTxresFail (s : State) : Host.Outcome State Fault Refusal := .next (transferRes s true)

/-- TRANSFER_COMPLETE (16:R335): operation ev.j of context ev.i completes, once its outcome is decided. From 16 on, ev.i names a
receive tile, and 80 the RXARMs that failed. -/
def execTransferComplete (s : State) : Host.Outcome State Fault Refusal :=
  let c := s.ev.core
  .next (
    if 80 ≤ s.ev.i then rxFailDone s c
    else if 16 ≤ s.ev.i then rxSettle s c (s.ev.i - 16)
    else
      let s1 := prepTx s c s.ev.i
      match (getTx (s1.core c) s.ev.i).ops[s.ev.j]? with
      | none => s1
      | some o => match o.out with
        | none => s1
        | some out => if o.started ∧ (getTx (s1.core c) s.ev.i).fault = none then (txFinish s1 c s.ev.i o out).2 else s1)

/-- NOTIFY_PUSH (16:R335): the first note waiting for receive queue ev.i of a core is pushed once the queue has room. -/
def execNotifyPush (s : State) : Host.Outcome State Fault Refusal :=
  let c := s.ev.core
  let k := s.core c
  .next (match k.eng.notes.find? (fun n => n.1 = s.ev.i) with
    | none => s
    | some n =>
      if 64 ≤ (k.eng.rqs.getD n.1 []).length then s
      else
        let s1 := s.upd c (fun k => { k with eng := { k.eng with
          notes := k.eng.notes.erase n, rqs := k.eng.rqs.set n.1 (k.eng.rqs.getD n.1 [] ++ [n.2.1]) } })
        reply s1 n.2.2 .ack false)

/-! ### Timetabled flits (16:R327) -/

/-- The tick at which a phase cycle of a gang's running phase begins (15:R297). -/
def stampTick (g : Gang) (stamp : Nat) : Nat := g.s + (9 * stamp + ninths g.step - 1) / ninths g.step

/-- The walk of a core: its context, operation and gang. -/
def walkOf (s : State) (c : CoreRef) (i : Nat) : Option (TxOp × Gang) :=
  let x := getTx (s.core c) i
  match x.ops.find? (fun o => o.kind = .walk && o.started && o.out = none && x.fault.isNone), gangOf s c with
  | some o, some g => some (o, g)
  | _, _ => none

/-- The first phase cycle at which a flit of an entry may be read. -/
def readFrom (o : TxOp) (e : List W8) : Nat := max (entStamp e - 32) o.start

/-- Insert by the tick from which a flit is ready, after equal ones (16:R321). -/
def insFlit (f : Flit) : List Flit → List Flit
  | [] => [f]
  | x :: t => if f.due < x.due then f :: x :: t else x :: insFlit f t

/-- A port may start a flit in this tick: an aligned slot (16:R320), in service and not retraining. -/
def slotOpen (s : State) (p : Port) : Bool := dcc s % 7 = 0 && p.nextSlot ≤ s.now && p.up && p.retrain ≤ s.now

/-- Count a departure for the sign-off of its port. -/
def bumpLeft (l : List (Nat × Nat)) (p : Nat) : List (Nat × Nat) :=
  let n := ((l.find? (fun x => x.1 = p)).map (·.2)).getD 0
  l.filter (fun x => x.1 ≠ p) ++ [(p, n + 1)]

/-- A walk has a rerouted flit: the first one's tile is kept (16:R336). -/
def markMoved (s : State) (f : Flit) : State :=
  updTxOp s (flitSrc f) f.ctx f.num (fun o => if o.kind = .walk ∧ o.moved = none then { o with moved := some f.tile } else o)

/-- A timetabled flit leaves: its walk and its gang count it. -/
def leftPort (s : State) (f : Flit) : State :=
  let c := flitSrc f
  let s1 := updTxOp s c f.ctx f.num (fun o => { o with flits := o.flits - 1 })
  let s2 := if f.rerouted then markMoved s1 f else s1
  match (s.core c).ph.gang with
  | none => s2
  | some g => updGang s2 g (fun x => { x with left := bumpLeft x.left f.port })

/-- A request for another chip's memory is lost: what asked for it asks again, or an operation of a transfer context fails. -/
def loseAsk (s : State) (f : Flit) : State :=
  let c := flitSrc f
  if f.ctx < 16 then
    updTxOp s c f.ctx f.num (fun o => { o with asked := o.asked.filter (· ≠ f.seqn), lost := true })
  else if f.ctx = c1Ctx then
    s.upd c (fun k => { k with ctl := { k.ctl with c1 := k.ctl.c1.map (fun x => if x.serial = f.num then { x with sent := false } else x) } })
  else
    updWin s c (f.ctx - 16) (fun x => { x with work := x.work.map (fun j =>
      if j.row = f.seqn ∧ j.asked.contains f.idx then { j with asked := j.asked.filter (· ≠ f.idx), todo := insNat f.idx j.todo } else j) })

/-- A flit that is lost with its path: its operation, or its port's next sign-off, reports it; another chip learns that what it asked
for does not come. -/
def loseFlit (s : State) (f : Flit) : State :=
  let c := flitSrc f
  let lost (g : TxOp → TxOp) : State := updTxOp s c f.ctx f.num (fun o => { g o with lost := true })
  if f.timed then updTxOp (portErr s c f.port) c f.ctx f.num (fun o => { o with lost := true })
  else match f.kind with
    | .data => if f.op = 1 then { s with outbox := s.outbox ++ [.flit { f with kind := .nack, bytes := [], pois := [] }] }
               else lost (fun o => { o with unacked := o.unacked - 1 })
    | .rloadReq => lost (fun o => { o with unacked := 0 })
    | .notify => lost (fun o => { o with note := 2 })
    | .memReq => loseAsk s f
    | .memReply => { s with outbox := s.outbox ++ [.flit { f with kind := .nack, bytes := [], pois := [] }] }
    | _ => lost id

/-- TIMETABLE_SOURCE_READ (16:R327): the source of the flit at position ev.j of the walk on context ev.i is read, and the flit is ready
from its stamp on, or from now where that has passed. Where its port has lost its link it goes over the port that took over, and fails
where there is none. -/
def execTimetableSourceRead (s0 : State) : Host.Outcome State Fault Refusal :=
  let c := s0.ev.core
  let i := s0.ev.i
  let s := startTxs s0 c i
  .next (match walkOf s c i with
    | none => s
    | some (o, g) => match o.walk[s.ev.j]? with
      | none => s
      | some w =>
        let e := (fabRun s c).1.getD (w / 1024) []
        let j := w % 1024
        let a := entSrc e + 224 * j
        let n := min 224 (entLen e - 224 * j)
        if (s.core c).ph.phc < readFrom o e ∨ engBusy (s.core c) a n then s
        else
          let r := engRead s c a n
          let pois := (List.range (n / 16)).filter (fun k => (r.2.2.core c).near.poison.contains ((a + 16 * k) / 16))
          let f : Flit := { kind := .data, timed := true, part := partOf s c, srcChip := s.chip, srcCore := c.num, ctx := i
                            num := o.num, dstChip := entChip e, dstCore := entCore e, off := entDoff e, bytes := r.1, pois := pois
                            mode := entMode e, tile := entTile e, entry := w / 1024, port := entPort e, idx := j
                            due := max (stampTick g (entStamp e) + 7 * j) s.now }
          let s1 := updTxOp r.2.2 c i o.num (fun o => { o with walk := o.walk.filter (· ≠ w), flits := o.flits + 1 })
          let q := linkOf s1 f
          if (getPort s1 q).up then updPort s1 q (fun x => { x with timed := insFlit f x.timed }) else loseFlit (leftPort s1 f) f)

/-- A flit leaves over port p: its way begins in this tick. -/
def depart (s : State) (f : Flit) : Flit :=
  { f with hop := s.now, due := s.now + flitTicks s f, rerouted := f.rerouted || (getPort s f.port).detour.isSome }

/-- TIMETABLED_FLIT_DEPART (16:R321, R327): port ev.i starts the next timetabled flit, or with ev.j = 1 an untimed one where no
timetabled flit is ready. -/
def execTimetabledFlitDepart (s : State) : Host.Outcome State Fault Refusal :=
  let p := s.ev.i
  let x := getPort s p
  let ready := x.timed.filter (fun f => decide (f.due ≤ s.now))
  .next (
    if !slotOpen s x then s
    else match ready, x.untimed with
      | f :: _, _ =>
        let g := depart s f
        let s1 := updPort s p (fun x => { x with timed := x.timed.drop 1, nextSlot := s.now + 7 })
        leftPort { s1 with flits := s1.flits ++ [g] } g
      | [], u :: r =>
        if s.ev.j = 1 then
          let s1 := updPort s p (fun x => { x with untimed := r, nextSlot := s.now + 7 })
          { s1 with flits := s1.flits ++ [depart s u] }
        else s
      | [], [] => s)

/-! ### Arrivals (16:R328 to R330, R343) -/

/-- What came of a flit that arrives: none where it is dealt with, or how far it has come while it waits for banks. -/
abbrev Arrived := Option Nat × State

/-- A payload has been written as far as its banks took it; where all of it is, what follows is done. -/
def afterDelivery (f : Flit) (r : Nat × State) (done : State → State) : Arrived :=
  if r.1 < f.bytes.length / 16 then (some r.1, r.2) else (none, done r.2)

/-- A data flit is written, or rejected (16:R324). -/
def arriveData (s : State) (f : Flit) : Arrived :=
  let t := flitDst f
  if !inPart s t f.part then
    (none, if f.timed then
        (if f.srcChip = s.chip then
          updTxOp (portErr s (flitSrc f) f.port) (flitSrc f) f.ctx f.num (fun o => { o with lost := true })
        else { s with outbox := s.outbox ++ [.flit (answer s f .nack)] })
      else reply s f .nack true)
  else
    afterDelivery f (deliverSome t f.off (14 * f.idx) f 14 s f.fill) (fun s1 =>
      if f.timed then
        s1.upd t (fun k => { k with eng := { k.eng with
          inbound := k.eng.inbound + f.bytes.length
          rxErr := k.eng.rxErr || decide ((fabRun s t).2 < k.eng.inbound + f.bytes.length) } })
      else reply s1 f .ack false)

/-- Data that answers an RLOAD of this chip. -/
def arriveLoad (s : State) (f : Flit) : Arrived :=
  let c := flitDst f
  match (getTx (s.core c) f.ctx).ops.find? (fun o => o.num = f.num) with
  | none => (none, s)
  | some o => match parseT o.desc with
    | none => (none, s)
    | some d =>
      afterDelivery f (deliverSome c (vOff d.dst) (14 * f.idx) { f with mode := d.mode, tile := d.tile } 14 s f.fill) (fun s1 =>
        updTxOp s1 c f.ctx f.num (fun o => { o with unacked := o.unacked - 1 }))

/-- Read what other chip's RLOAD asks for as far as banks and ports allow: chunk j and those after it leave as flits. -/
def serveFrom (t : CoreRef) (f : Flit) : Nat → State → Nat → Arrived
  | 0, s, j => (some j, s)
  | n + 1, s, j =>
    let len := f.a.toNat
    let a := f.off + 224 * j
    let m := min 224 (len - 224 * j)
    if len ≤ 224 * j then (none, s)
    else if engBusy (s.core t) a m then (some j, s)
    else
      let r := engRead s t a m
      let pois := (List.range (m / 16)).filter (fun k => (r.2.2.core t).near.poison.contains ((a + 16 * k) / 16))
      match sendOut r.2.2 { answer s f .data with bytes := r.1, pois := pois, idx := j, op := 1 } with
      | none => (none, { r.2.2 with outbox := r.2.2.outbox ++ [.flit (answer s f .nack)] })
      | some s1 => serveFrom t f n s1 (j + 1)

/-- Serve another chip's RLOAD. -/
def serveLoad (s : State) (f : Flit) : Arrived :=
  let t := flitDst f
  if !inPart s t f.part ∨ nearSize t < f.off + f.a.toNat then (none, { s with outbox := s.outbox ++ [.flit (answer s f .nack)] })
  else serveFrom t f 8 s f.fill

/-- Serve another chip's access to memory that this chip holds, where it is allotted to that partition (11:R226, R227). -/
def serveMem (s : State) (f : Flit) : Arrived :=
  let back (s : State) (a : Flit) : Arrived := (none, { s with outbox := s.outbox ++ [.flit a] })
  let a := answer s f .memReply
  if !paAllotted s f.part f.off then back s { a with stat := 2 }
  else
    let s1 := sysMeet s (f.off / 64)
    let bad := sysPoisoned s1 f.off 1
    let rmw (n : Nat) (g : List W8 → List W8) : Arrived :=
      if bad then back s1 { a with stat := 1 }
      else
        let old := sysRead s1 f.off n
        back (sysWriteUnit s1 f.off (g old)).2 { a with a := leW64 old }
    match f.op with
    | 0 =>
      (match sendOut s1 { a with bytes := sysRead s1 f.off f.cnt, pois := if bad then [0] else [] } with
      | none => (some 0, s)
      | some s2 => (none, s2))
    | 1 =>
      if f.pois ≠ [] then back (sysPoison s1 (f.off / 64)) a
      else
        let w := sysWriteUnit s1 f.off f.bytes
        back w.2 { a with stat := if w.1 then 0 else 1 }
    | 2 => rmw f.cnt (fun old => natBytes f.cnt (atomNew (ratOp f.mode) (leW64 old) f.a f.b).1.toNat)
    | _ => rmw 32 (fun old => binPlus old (f.a.setWidth 32))

/-- Another chip's memory answers a transfer operation: a part of its source, or a piece written; one that the owner refuses faults. -/
def txReply (s : State) (f : Flit) : State :=
  let c := flitDst f
  let gone := updTxOp s c f.ctx f.num (fun o => { o with asked := o.asked.filter (· ≠ f.seqn) })
  if f.stat = 2 then
    txFault (updTxOp gone c f.ctx f.num (fun o => { o with
      wait := some f.seqn, todo := if f.op = 1 then insNat f.idx o.todo else o.todo })) c f.ctx 3 f.seqn
  else updTxOp gone c f.ctx f.num (fun o =>
    if f.op = 0 then { o with got := (f.seqn, f.bytes, !f.pois.isEmpty) :: o.got }
    else if f.stat = 1 ∧ o.pois = none then { o with pois := some f.seqn } else o)

/-- The answer to a request for another chip's memory reaches what asked for it. -/
def memAnswer (s : State) (f : Flit) : Arrived :=
  let c := flitDst f
  if f.ctx < 16 then (none, txReply s f)
  else if f.ctx = c1Ctx then
    match (s.core c).ctl.c1.find? (fun x => x.serial = f.num && x.sent) with
    | none => (none, s)
    | some x =>
      if f.stat = 1 ∧ !evRoom s (partOf s c) 1 then (some 0, evSetFull s (partOf s c))
      else (none, c1Answer (s.upd c (fun k => { k with ctl := { k.ctl with c1 := k.ctl.c1.filter (fun y => y.serial ≠ f.num) } })) c x f)
  else match winReply s f with
    | none => (some 0, s)
    | some s1 => (none, s1)

/-- A stamped store reaches a member: kept while it is next or among 32 beyond, and not yet there (16:R343). The newest tells it the
generation (16:R344). -/
def holdStore (m : Member) (f : Flit) : Member :=
  if f.seqn ≤ m.applied ∨ m.held.any (fun h => h.seqn = f.seqn && h.idx = f.idx) then m
  else
    let beyond := ((m.held.map (·.seqn)).filter (fun q => m.applied + 1 < q)).eraseDups
    if m.applied + 1 < f.seqn ∧ !beyond.contains f.seqn ∧ 32 ≤ beyond.length then m
    else { m with held := m.held ++ [f], gen := if m.held.all (fun h => decide (h.seqn ≤ f.seqn)) then f.gen else m.gen }

def updMember (s : State) (c : CoreRef) (g : Nat) (f : Member → Member) : State :=
  s.upd c (fun k => { k with eng := { k.eng with members := k.eng.members.map (fun m => if m.grp = g then f m else m) } })

/-- A member has acknowledged a sequence as applied. -/
def ackStore (s : State) (g seqn chip core : Nat) : State :=
  updGroup s g (fun x => { x with open_ := x.open_.map (fun o =>
    if o.1.seqn = seqn then (o.1, o.2.1.filter (· ≠ (chip, core)), o.2.2) else o) })

/-- A home answers a join, leave or store of this chip. -/
def settleOp (s : State) (f : Flit) : State :=
  updTxOp s (flitDst f) f.ctx f.num (fun o => { o with settled := some f.stat, seqn := f.seqn, gen := f.gen, old := f.a })

/-- A flit reaches this chip. -/
def arriveFlit (s : State) (f : Flit) : Arrived :=
  match f.kind with
  | .data => if f.op = 1 then arriveLoad s f else arriveData s f
  | .ack => (none, gotAck s f false)
  | .nack =>
    (none, if f.timed then updTxOp (portErr s (flitDst f) f.port) (flitDst f) f.ctx f.num (fun o => { o with lost := true })
      else gotAck s f true)
  | .rloadReq => serveLoad s f
  | .memReq => serveMem s f
  | .memReply => memAnswer s f
  | .atomic => (none, { s with ratoms := s.ratoms ++ [f] })
  | .atomicReply => (none, settleOp s f)
  | .mcStore => (none, updGroup s f.grp (fun x => { x with inq := x.inq ++ [f] }))
  | .mcMember => (none, updMember s (flitDst f) f.grp (fun m => if m.leaving then m else holdStore m f))
  | .mcAck => (none, ackStore s f.grp f.seqn f.srcChip f.srcCore)
  | .mcResend => (none, updGroup s f.grp (fun x => { x with asks := x.asks ++ [f] }))
  | .mcJoin => (none, updGroup s f.grp (fun x => { x with joins := x.joins ++ [f] }))
  | .mcLeave => (none, updGroup s f.grp (fun x => { x with joins := x.joins ++ [f] }))
  | .mcJoined => (none, settleOp s f)
  | .notify =>
    let t := flitDst f
    (none, if inPart s t f.part then
        s.upd t (fun k => { k with eng := { k.eng with notes := k.eng.notes ++ [(f.mode % 4, f.a, f)] } })
      else reply s f .nack true)

/-- The order in which flits are taken: by arrival, and where that is equal, by source chip and core, and entry (16:R328, R360). -/
def flitKey (f : Flit) : List Nat := [f.due, f.srcChip, f.srcCore + (if f.srcCc then 128 else 0), f.entry, f.idx]

/-- A payload for the near memory of a core waits for one that comes before it. -/
def flitBehind (s : State) (f : Flit) : Bool :=
  f.kind = .data && s.flits.any (fun h => h.kind = .data && h.dstChip = f.dstChip && h.dstCc = f.dstCc && h.dstCore = f.dstCore
    && decide (h.due ≤ s.now) && decide (flitKey h < flitKey f))

/-- FLIT_ARRIVAL (16:R328): flit ev.i of those on their way arrives, which for another chip leaves the package; or, as an input, a flit that
another chip sent joins them. -/
def execFlitArrival (s : State) : Host.Outcome State Fault Refusal :=
  .next (match s.ev.flit with
    | some f => { s with flits := s.flits ++ [{ f with due := s.now, fill := 0 }] }
    | none => match s.flits[s.ev.i]? with
      | none => s
      | some f =>
        if s.now < f.due ∨ flitBehind s f then s
        else
          let gone (s : State) : State := { s with flits := s.flits.eraseIdx s.ev.i }
          let s1 := if crosses s f then updPort s (linkOf s f) (fun x => { x with failures := 0 }) else s
          if f.dstChip ≠ s.chip then gone { s1 with outbox := s1.outbox ++ [.flit f] }
          else match arriveFlit s1 f with
            | (none, s2) => gone s2
            | (some j, s2) => { s2 with flits := s2.flits.set s.ev.i { f with fill := j } })

/-! ### Failures of links (16:R322, R323) -/

/-- PART of an error-log entry about a port (20:R415). -/
def portPartByte (s : State) (q : Nat) : Nat :=
  match (List.range 8).find? (fun p => (getPart s p).ports.getLsbD q) with
  | some p => p
  | none => 0x80

/-- The flits on their way over port p. -/
def onLink (s : State) (p : Nat) (f : Flit) : Bool := crosses s f && linkOf s f = p

/-- From the n-th flit of those wanted on, they come d ticks later. -/
def delayFrom (mine : Flit → Bool) (d : Nat) : Nat → List Flit → List Flit
  | _, [] => []
  | n, f :: t =>
    if !mine f then f :: delayFrom mine d n t
    else if n = 0 then { f with due := f.due + d, hop := f.hop + d } :: delayFrom mine d 0 t
    else f :: delayFrom mine d (n - 1) t

/-- A port sends again what it had sent from its n-th flit on its way on; what is sent later follows it (16:R322). -/
def replayFrom (s : State) (p n d : Nat) : State :=
  let s1 := { s with flits := delayFrom (onLink s p) d n s.flits }
  let last := (((s1.flits.filter (onLink s p)).drop n).map (·.hop)).foldl max 0
  if (s.flits.filter (onLink s p)).length ≤ n then s1 else updPort s1 p (fun x => { x with nextSlot := max x.nextSlot (last + 7) })

/-- FLIT_REPLAY (16:R322): the ev.v-th of the flits of port ev.i on their way failed its check: it and those after it are replayed and
come 320 ticks later. After eight failures in a row the spare lane is brought in for lane ev.j and the link retrains. -/
def execFlitReplay (s : State) : Host.Outcome State Fault Refusal :=
  let p := s.ev.i
  let eighth := (getPort s p).failures + 1 = 8
  let s1 := replayFrom s p s.ev.v.toNat (320 + (if eighth then 4096 else 0))
  let s2 := updPort s1 p (fun x =>
    if eighth then { x with failures := 0, spareUsed := true, retrain := s.now + 4096 } else { x with failures := x.failures + 1 })
  .next (if eighth then logError s2 7 (portPartByte s p) (p + s.ev.j % 8 * 256) 0 0 else s2)

/-- LINK_RETRAIN_DONE (16:R322): the link of port ev.i is back. -/
def execLinkRetrainDone (s : State) : Host.Outcome State Fault Refusal :=
  .next (updPort s s.ev.i (fun x => if x.retrain ≤ s.now then { x with retrain := 0, failures := 0 } else x))

/-- Where the flits of a port go after port p has lost its link: over `dest`, n ticks longer, or nowhere. -/
def rerouted (p : Nat) (dest : Option (Nat × Nat)) (i : Nat) (x : Port) : Port :=
  let past := match x.detour with | some (_, m) => m | none => 0
  let via := match x.detour with | some (q, _) => q = p | none => i = p
  if !via then x
  else match dest with
    | some (q, n) => { x with detour := some (q, past + n), up := x.up && (i ≠ p || q = p) }
    | none => { x with detour := none, up := x.up && i ≠ p }

/-- LINK_LOSS (16:R323): port ev.i loses its link for good. Where another path remains (ev.j = 0) its flits take it, ev.v ticks
later where its class is higher, through another port of the partition (where it has none in service, by its own, over the
switches); else (ev.j = 1) every flit undelivered on it fails. -/
def execLinkLoss (s : State) : Host.Outcome State Fault Refusal :=
  let p := s.ev.i
  let x := getPort s p
  let go := s.flits.filter (onLink s p)
  let put (s : State) (dest : Option (Nat × Nat)) : State :=
    { s with ports := ((List.range s.ports.length).zip s.ports).map (fun y => rerouted p dest y.1 y.2) }
  let s1 := logError s 8 (portPartByte s p) p 0 0
  .next (
    if s.ev.j = 0 then
      let same (i : Nat) : Bool := (List.range 8).any (fun q => (getPart s q).ports.getLsbD p && (getPart s q).ports.getLsbD i)
      let other := ((List.range 36).filter (fun i => i ≠ p && same i && (getPort s i).up)).head?.getD p
      let s2 := put { s1 with flits := s1.flits.map (fun f =>
        if onLink s p f then { f with due := f.due + s.ev.v.toNat, rerouted := true } else f) } (some (other, s.ev.v.toNat))
      let s3 := (go.filter (·.timed)).foldl markMoved s2
      if other = p then s3
      else updPort (updPort s3 p (fun y => { y with timed := [], untimed := [] })) other (fun y => { y with
        timed := x.timed.foldl (fun l f => insFlit f l) y.timed, untimed := y.untimed ++ x.untimed })
    else
      let s2 := updPort (put { s1 with flits := s1.flits.filter (fun f => !onLink s p f) } none) p (fun y => { y with timed := [], untimed := [] })
      (x.timed ++ x.untimed ++ go).foldl loseFlit (x.timed.foldl leftPort s2))

end Sys2Proof.Machine
end

