-- ==== Sys2Proof/Machine/Fetch.lean ====
section
/-!
DEFINITION. A control core's instruction fetch (18:R364): the line that a stalled fetch waits for arrives, or the fetch fails.
-/

namespace Sys2Proof.Machine

/-- What a fetch gives: the 64 bytes of its line, or the cause of its failure. -/
inductive Line where
  | bytes (l : List W8)
  | bad (cause : W8)
deriving DecidableEq, Repr

/-- Fetch the line of a virtual address: it needs a valid leaf with R = 1 and no poison. -/
def fetchLine (s : State) (c : CoreRef) (a : Nat) : Line × State :=
  match xlate s c 21 (64 * (a / 64)) true false with
  | (.fault _, s1) => (.bad 0x06, s1)
  | (.ok pa _, s1) =>
    let s2 := sysMeet s1 (pa / 64)
    if sysPoisoned s2 pa 64 then (.bad 0x05, s2) else (.bytes (sysRead s2 pa 64), s2)

/-- The stalled context goes on from the next cycle. -/
def endFetch (s : State) (c : CoreRef) : State :=
  s.upd c (fun k => k.updCtx (fun x => { x with stall := none, next := max x.next (k.clk.arch + 1) }))

/-- The line enters the instruction cache of 64 KiB, which keeps its latest lines. -/
def fillLine (s : State) (c : CoreRef) (n : Nat) (l : List W8) : State :=
  s.upd c (fun k => { k with ctl := { k.ctl with
    icache := lastN 1024 (k.ctl.icache.filter (fun x => x.1 ≠ n) ++ [(n, l)]), badLines := k.ctl.badLines.filter (· ≠ n) } })

/-- A fetch that fails for a bundle that issue has reached: a trap at the bundle; for the first bundle of a handler, a core
fault (19:R387). -/
def fetchTrap (s : State) (c : CoreRef) (cause : W8) (a : W64) : State :=
  let k := s.core c
  let s1 := endFetch s c
  if k.tp.active ∧ k.urg.pc = k.tr.tvec then coreFault s1 c 0 (k.tr.tcause.setWidth 8) k.tr.tpc
  else takeTrap s1 c cause a 15 false []

/-- FETCH_MISS_FILL (18:R364): a line fetched ahead of issue that fails is only noted. -/
def execFetchMissFill (s : State) : Host.Outcome State Fault Refusal :=
  let c := s.ev.core
  .next (match (s.core c).ctx.stall with
    | none => s
    | some st =>
      if st.kind ≠ .fetch then s
      else match fetchLine s c st.a.toNat with
        | (.bytes l, s1) => endFetch (fillLine s1 c (st.a.toNat / 64) l) c
        | (.bad cause, s1) =>
          if st.b = 1 then
            endFetch (s1.upd c (fun k => { k with ctl := { k.ctl with badLines := insNat (st.a.toNat / 64) k.ctl.badLines } })) c
          else fetchTrap s1 c cause st.a)

end Sys2Proof.Machine
end

