-- ==== Sys2Proof/Machine/Multicast.lean ====
section
/-!
DEFINITION. Ordered multicast (16:R340 to R345) and remote atomics (16:R346 to R348): the home side of a group, its members,
and the home of an atomic's target. The homes of the domain's groups are part of the machine.
-/

namespace Sys2Proof.Machine

/-! ### Stamping and sending (16:R342) -/

/-- The flits of one store. -/
def sameStore (a b : Flit) : Bool :=
  a.srcChip = b.srcChip && a.srcCc = b.srcCc && a.srcCore = b.srcCore && a.ctx = b.ctx && a.num = b.num

/-- The first store all of whose flits have arrived: the one whose last flit arrived first. -/
def wholeStore (l : List Flit) : Option Flit :=
  ((List.range l.length).filterMap (fun n =>
    let seen := l.take (n + 1)
    match l[n]? with
    | none => none
    | some f => if (seen.countP (fun x => sameStore x f)) = f.cnt then some f else none)).head?

/-- Ticks between this chip and the home of group g (entry 14). -/
def homeTicks (s : State) (g : Nat) : Nat := pathTicks s.chip (1024 + g)

/-- A flit of the home of group g, or to it, that is no store, join or leave: on its way on this chip, out of the package elsewhere. -/
def overHome (s : State) (g : Nat) (f : Flit) : State :=
  if f.dstChip = s.chip then { s with flits := s.flits ++ [{ f with due := s.now + homeTicks s g }] }
  else { s with outbox := s.outbox ++ [.flit f] }

/-- Send a flit of the home to a member. -/
def toMember (s : State) (f : Flit) (m : Nat × Nat) : State :=
  overHome s f.grp { f with kind := .mcMember, dstChip := m.1, dstCc := false, dstCore := m.2, fill := 0 }

/-- A list kept to the flits of the last n sequences. -/
def keepSeqs (l : List Flit) (seqn n : Nat) : List Flit := l.filter (fun f => seqn < f.seqn + n)

/-- MULTICAST_STAMP (16:R342): the home of group ev.i stamps the next store and sends it to every member. -/
def execMulticastStamp (s : State) : Host.Outcome State Fault Refusal :=
  let g := s.ev.i
  let x := getGroup s g
  .next (match wholeStore x.inq with
    | none => s
    | some f =>
      let q := x.seqn + 1
      let fs := (x.inq.filter (fun y => sameStore y f)).map (fun y => { y with seqn := q, gen := x.gen, grp := g })
      let s1 := updGroup s g (fun x => { x with
        seqn := q, inq := x.inq.filter (fun y => !sameStore y f), kept := keepSeqs x.kept q 1024 ++ fs
        open_ := x.open_ ++ [({ f with seqn := q, gen := x.gen, grp := g }, x.members, false)] })
      x.members.foldl (fun s m => fs.foldl (fun s f => toMember s f m) s) s1)

/-! ### Members (16:R343) -/

/-- The flits of a sequence that a member holds, where all have arrived. -/
def wholeSeq (m : Member) (q : Nat) : Option (List Flit) :=
  let l := m.held.filter (fun f => f.seqn = q)
  match l.head? with
  | none => none
  | some f => if l.length = f.cnt then some l else none

/-- MULTICAST_APPLY (16:R343): member ev.i of a core writes the next store whole, in one engine half-cycle. -/
def execMulticastApply (s : State) : Host.Outcome State Fault Refusal :=
  let c := s.ev.core
  .next (match (s.core c).eng.members[s.ev.i]? with
    | none => s
    | some m => match wholeSeq m (m.applied + 1) with
      | none => s
      | some fs =>
        if m.leaving ∨ fs.any (fun f => engBusy (s.core c) (f.off + 224 * f.idx) f.bytes.length) then s
        else
          let s1 := fs.foldl (fun s f => deliver s c f.off (14 * f.idx) 0 0 f.bytes f.pois) s
          let q := m.applied + 1
          let s2 := updMember s1 c m.grp (fun m => { m with applied := q, held := m.held.filter (fun f => f.seqn ≠ q) })
          syncTl7 (overHome s2 m.grp { kind := .mcAck, part := partOf s c, srcChip := s.chip, srcCore := c.num, dstChip := s.chip
                                       grp := m.grp, seqn := q }) c)

/-- The first sequence that a member lacks, in whole or in part, and that is neither on its way to it nor asked for. -/
def lacking (s : State) (c : CoreRef) (m : Member) : Option Nat :=
  let x := getGroup s m.grp
  let coming (q : Nat) : Bool :=
    s.flits.any (fun h => h.grp = m.grp && h.seqn = q && (h.kind = .mcMember && h.dstCore = c.num || h.kind = .mcResend && h.srcCore = c.num))
      || x.asks.any (fun a => a.seqn = q && a.srcChip = s.chip && a.srcCore = c.num)
  ((x.kept.filter (fun f => m.applied < f.seqn && !m.held.any (fun h => h.seqn = f.seqn && h.idx = f.idx) && !coming f.seqn)).map
    (·.seqn)).head?

/-- MULTICAST_RESEND (16:R343): with ev.j = 0, member ev.i of a core asks the home for a sequence that it lacks; with ev.j = 1, the home
of group ev.i serves the oldest request. -/
def execMulticastResend (s : State) : Host.Outcome State Fault Refusal :=
  let c := s.ev.core
  .next (
    if s.ev.j = 1 then
      let x := getGroup s s.ev.i
      match x.asks with
      | [] => s
      | a :: t =>
        let fs := x.kept.filter (fun f => f.seqn = a.seqn)
        fs.foldl (fun s f => toMember s f (a.srcChip, a.srcCore)) (updGroup s s.ev.i (fun x => { x with asks := t }))
    else match (s.core c).eng.members[s.ev.i]? with
      | none => s
      | some m => match lacking s c m with
        | none => s
        | some q => overHome s m.grp { kind := .mcResend, part := partOf s c, srcChip := s.chip, srcCore := c.num, dstChip := s.chip
                                       grp := m.grp, seqn := q })

/-! ### Membership (16:R340, R342, R345) -/

/-- The membership of a group changes: the generation rises, and the stores that a member has still to acknowledge are marked. -/
def changeMembers (s : State) (g : Nat) (l : List (Nat × Nat)) : State :=
  updGroup s g (fun x => { x with
    members := l, gen := (x.gen + 1) % 2 ^ 16, open_ := x.open_.map (fun o => (o.1, o.2.1, o.2.2 || o.2.1 ≠ [])) })

/-- The home answers a join, leave or store. -/
def homeAnswer (s : State) (f : Flit) (stat seqn gen code : Nat) : State :=
  overHome s f.grp { answer s f .mcJoined with stat := stat, seqn := seqn, gen := gen, a := BitVec.ofNat 64 code }

/-- A join is refused with the code of 16:R345. -/
def joinCode (x : Group) (f : Flit) : Option Nat :=
  let oldest := (x.kept.map (·.seqn)).foldl min (x.seqn + 1)
  if x.members.contains (f.srcChip, f.srcCore) then some 9
  else if x.seqn + 1 < f.seqn ∨ (x.kept ≠ [] ∧ f.seqn ≤ oldest) ∨ f.seqn = 0 ∨ 64 ≤ x.members.length then some 10
  else none

/-- MULTICAST_JOIN_RECORD (16:R345): the home of group ev.i records the oldest join or leave request. -/
def execMulticastJoinRecord (s : State) : Host.Outcome State Fault Refusal :=
  let g := s.ev.i
  let x := getGroup s g
  .next (match x.joins with
    | [] => s
    | f :: t =>
      let s1 := updGroup s g (fun x => { x with joins := t })
      let who := (f.srcChip, f.srcCore)
      let c := flitSrc f
      if f.kind = .mcLeave then
        if !x.members.contains who then homeAnswer s1 f 2 0 x.gen 9
        else
          let s2 := changeMembers s1 g (x.members.filter (· ≠ who))
          let s3 := if f.srcChip = s.chip then
            syncTl7 (s2.upd c (fun k => { k with eng := { k.eng with members := k.eng.members.filter (fun m => m.grp ≠ g) } })) c else s2
          homeAnswer s3 f 0 0 (getGroup s3 g).gen 0
      else match joinCode x f with
        | some code => homeAnswer s1 f 2 0 x.gen code
        | none =>
          let s2 := changeMembers s1 g (x.members ++ [who])
          let gen := (getGroup s2 g).gen
          let s3 := if f.srcChip = s.chip then
            syncTl7 (s2.upd c (fun k => { k with eng := { k.eng with
              members := k.eng.members ++ [{ grp := g, applied := f.seqn - 1, gen := gen }] } })) c else s2
          homeAnswer s3 f 0 f.seqn gen 0)

/-- MULTICAST_MEMBER_FAILED (16:R342): member ev.j of group ev.i is removed as failed. -/
def execMulticastMemberFailed (s : State) : Host.Outcome State Fault Refusal :=
  let x := getGroup s s.ev.i
  .next (match x.members[s.ev.j]? with
    | none => s
    | some m =>
      let s1 := changeMembers s s.ev.i (x.members.filter (· ≠ m))
      if m.1 = s.chip then
        let c : CoreRef := ⟨false, m.2⟩
        syncTl7 (s1.upd c (fun k => { k with eng := { k.eng with members := k.eng.members.filter (fun y => y.grp ≠ s.ev.i) } })) c
      else s1)

/-- A store of a group whose outcome is known: applied by every member, or overtaken by a change of membership. -/
def settledStore (x : Group) : Option (Flit × Bool) :=
  (x.open_.find? (fun o => o.2.2 || o.2.1 = [])).map (fun o => (o.1, o.2.2))

/-- MCSTO_COMPLETE (16:R342): the home of group ev.i answers a store whose outcome it knows, with status 3 where the membership changed
before every member had applied it. -/
def execMcstoComplete (s : State) : Host.Outcome State Fault Refusal :=
  let g := s.ev.i
  let x := getGroup s g
  .next (match settledStore x with
    | none => s
    | some (f, changed) =>
      homeAnswer (updGroup s g (fun x => { x with open_ := x.open_.filter (fun o => o.1.seqn ≠ f.seqn) })) f
        (if changed then 3 else 0) f.seqn x.gen 0)

/-! ### MCAPPL and MCJOIN (16:R344, R345) -/

def execMcapplBind (s : State) : Host.Outcome State Fault Refusal :=
  .next (
    let g := (sylField s 10 12).toNat
    if isCC s then issueFail s 0x06 0
    else if (getGroup s g).part ≠ some (partOf s s.cur.core) then issueFail s 0x0C 7
    else withRoom s (fun s => putEffs s 1 [.bindTl7 (some g)]))

def execMcapplUnbind (s : State) : Host.Outcome State Fault Refusal :=
  .next (if isCC s then issueFail s 0x06 0 else withRoom s (fun s => putEffs s 1 [.bindTl7 none]))

/-- The bound group's applied sequence and generation; 0 where the core is not a member. -/
def execMcapplRd (f : BitVec 3) (r : BitVec 5) (s : State) : Host.Outcome State Fault Refusal :=
  .next (
    if isCC s then issueFail s 0x06 0
    else
      let k := me s
      let v := match k.eng.tl7 with
        | none => 0
        | some g => match k.eng.members.find? (fun m => m.grp = g) with
          | some m => m.applied % 2 ^ 48 + m.gen % 2 ^ 16 * 2 ^ 48
          | none => 0
      withRoom s (fun s => emit s (intoReg s f r.toNat { newPend s 2 with val := .w (BitVec.ofNat 64 v) })))

def execMcjoinJoin (t : BitVec 4) (f : BitVec 3) (r : BitVec 5) (s : State) : Host.Outcome State Fault Refusal :=
  let v := cmData s f r.toNat
  .next (issueTx s t.toNat (.join (v.extractLsb' 0 12).toNat (v.extractLsb' 12 48).toNat) true 0 0)

def execMcjoinLeave (t : BitVec 4) (f : BitVec 3) (r : BitVec 5) (s : State) : Host.Outcome State Fault Refusal :=
  let v := cmData s f r.toNat
  .next (issueTx s t.toNat (.leave (v.extractLsb' 0 12).toNat) true 0 0)

/-! ### Remote atomics at their home (16:R347, R348) -/

/-- Source of a packet as the reply cache keys it. -/
def ratKey (f : Flit) : Nat := f.srcCore + (if f.srcCc then 256 else 0)

/-- The old value that the reply cache holds for a packet. -/
def cachedReply (s : State) (f : Flit) : Option W64 :=
  (s.replies.find? (fun r => r.1 = f.srcChip && r.2.1 = ratKey f && r.2.2.1 = f.ctx && r.2.2.2.1 = f.num)).map (·.2.2.2.2)

/-- The cache of a source holds its last 64 sequences. -/
def cacheReply (s : State) (f : Flit) (old : W64) : State :=
  let mine (r : Nat × Nat × Nat × Nat × W64) : Bool := r.1 = f.srcChip && r.2.1 = ratKey f && r.2.2.1 = f.ctx
  let same := s.replies.filter mine
  { s with replies := s.replies.filter (fun r => !mine r) ++ lastN 63 same ++ [(f.srcChip, ratKey f, f.ctx, f.num, old)] }

/-- The answer to an atomic. -/
def ratAnswer (s : State) (f : Flit) (stat : Nat) (old : W64) : State :=
  let a := { answer s f .atomicReply with stat := stat, a := old, due := s.now }
  if f.srcChip = s.chip then { s with flits := s.flits ++ [a] } else { s with outbox := s.outbox ++ [.flit a] }

/-- REMOTE_ATOMIC_PERFORM (16:R347, R348): packet ev.i of those that have arrived is performed once, or answered from the reply
cache. -/
def execRemoteAtomicPerform (s : State) : Host.Outcome State Fault Refusal :=
  .next (match s.ratoms[s.ev.i]? with
    | none => s
    | some f =>
      let s1 := { s with ratoms := s.ratoms.eraseIdx s.ev.i }
      let op := ratOp f.op
      let n := ratSize f.op
      match cachedReply s f with
      | some old => ratAnswer s1 f 0 old
      | none =>
        if f.virt then
          if f.srcChip ≠ s.chip ∧ !paAllotted s f.part f.off then ratAnswer s1 f 2 0
          else
            let s2 := sysMeet s1 (f.off / 64)
            if sysPoisoned s2 f.off 1 then ratAnswer s2 f 1 0
            else
              let old := leW64 (sysRead s2 f.off n)
              ratAnswer (cacheReply (sysWriteUnit s2 f.off (natBytes n (atomNew op old f.a f.b).1.toNat)).2 f old) f 0 old
        else
          let t := flitDst f
          if !inPart s t f.part then ratAnswer s1 f 2 0
          else if engBusy (s.core t) f.off n then s
          else
            let r := engRead s1 t f.off n
            if r.2.1 then ratAnswer r.2.2 f 1 0
            else
              let old := leW64 r.1
              ratAnswer (cacheReply (engPut r.2.2 t f.off (natBytes n (atomNew op old f.a f.b).1.toNat) false) f old) f 0 old)

/-- RATOM_REPLY (16:R347): the answer to operation ev.j of context ev.i is written at RESOFF, or the operation fails. -/
def execRatomReply (s : State) : Host.Outcome State Fault Refusal :=
  let c := s.ev.core
  let i := s.ev.i
  .next (match (getTx (s.core c) i).ops[s.ev.j]? with
    | none => s
    | some o => match o.kind, o.settled with
      | .ratom, some st =>
        let a := fieldAt o.desc 24 4
        if o.out.isSome ∨ engBusy (s.core c) a 8 then s
        else if st = 0 then setTxOut (engPut s c a (natBytes 8 o.old.toNat) false) c i o.num (0, 0)
        else setTxOut s c i o.num (st, txDetail (if st = 2 then 13 else 0) (txCtr c i) 0)
      | .join _ _, some st => setTxOut s c i o.num (if st = 0 then (0, 0) else (2, txDetail o.old.toNat (txCtr c i) 0))
      | .leave _, some st => setTxOut s c i o.num (if st = 0 then (0, 0) else (2, txDetail o.old.toNat (txCtr c i) 0))
      | .mcsto, some st => setTxOut s c i o.num (if st = 3 then (3, o.seqn + o.gen * 2 ^ 48) else (st, 0))
      | _, _ => s)

/-- RATOM_RESEND (16:R348): operation ev.j of context ev.i has had no reply; it is sent again, and fails after eight resends. -/
def execRatomResend (s : State) : Host.Outcome State Fault Refusal :=
  let c := s.ev.core
  let i := s.ev.i
  .next (match liveOp s c i s.ev.j with
    | none => s
    | some o =>
      if o.kind ≠ .ratom ∨ !o.loaded ∨ o.settled.isSome ∨ s.now < o.deadline then s
      else if 9 ≤ o.sent then txFail s c i o.num 14
      else loadRatom s c i o)

end Sys2Proof.Machine
end

