-- ==== Sys2Proof/Machine/Matrix.lean ====
section
/-!
DEFINITION. The matrix array at work: formats and combinations (12:R236 to R238), the partial sums of a row (02:R36,
12:R239, R240), the epilogue (02:R37), and what each event of the array does at its cycle (12:R239 to R243, R249 to R258,
13:R268, R269). The rows ARRAY_ROW_ACCUMULATE and DRAIN_ROW_WRITE run the events of one cycle.
-/

namespace Sys2Proof.Machine

/-! ### Formats -/

def fmtMta (f : W32) : Nat := (f.extractLsb' 4 4).toNat
def fmtMtb (f : W32) : Nat := (f.extractLsb' 8 4).toNat
def fmtAcc (f : W32) : Nat := (f.extractLsb' 12 2).toNat
def fmtSpn (f : W32) : Nat := (f.extractLsb' 17 2).toNat

/-- Products per cell and cycle (12:R236). -/
def cellK (t : Nat) : Nat :=
  match t with
  | 1 => 4 | 5 => 4 | 6 => 4 | 8 => 4 | 9 => 8 | _ => 16

/-- Width of an element's container. -/
def elemBits (t : Nat) : Nat := match elemOf t with | some e => e.cw | none => 32

/-- Block-scaled type codes. -/
def blockScaled (t : Nat) : Bool := 8 ≤ t && t ≤ 12

/-- Blocks of a tile and of its sidebar (12:R237). -/
def tileBlocks (t : Nat) : Nat := cellK t * elemBits t

def sideBlocks (t : Nat) : Nat := if blockScaled t then cellK t / 4 else 0

/-- The combinations of 12:R238. -/
def comboOk (a b acc spn : Nat) : Bool :=
  match b with
  | 1 => a = 1 && acc = 0 && spn ≤ 1
  | 5 => (a = 5 || a = 6) && acc = 1 && spn ≤ 2
  | 6 => (a = 5 || a = 6) && acc = 1 && spn ≤ 2
  | 8 => a = 8 && acc = 0 && spn ≤ 2
  | 9 => a = 9 && acc = 0 && spn ≤ 1
  | 2 => (a = 2 || a = 3) && acc = 0 && spn = 0
  | 3 => (a = 2 || a = 3) && acc = 0 && spn = 0
  | 12 => a = 12 && acc = 0 && spn = 0
  | 4 => a = 4 && acc = 0 && spn ≤ 1
  | 13 => a = 13 && acc = 1 && spn ≤ 1
  | 10 => a = 10 && acc = 0 && spn ≤ 1
  | 11 => a = 11 && acc = 0 && spn ≤ 1
  | _ => false

def comboFmt (f : W32) : Bool := comboOk (fmtMta f) (fmtMtb f) (fmtAcc f) (fmtSpn f)

/-- MTB and SPN appear together in some row. -/
def comboLoad (f : W32) : Bool :=
  (List.range 14).any (fun a => comboOk a (fmtMtb f) 0 (fmtSpn f) || comboOk a (fmtMtb f) 1 (fmtSpn f))

/-- Bytes of a row chunk. -/
def rowBytes (f : W32) : Nat := 8 * cellK (fmtMta f) * elemBits (fmtMta f) * 2 ^ fmtSpn f

/-! ### Partial sums (02:R36, 12:R239, R240) -/

/-- Sub-element codes of packed bytes (02:R21). -/
def unpackCodes (cw : Nat) : List W8 → List W32
  | [] => []
  | a :: t =>
    if cw = 8 then a.setWidth 32 :: unpackCodes cw t
    else if cw = 4 then (a &&& 0x0F).setWidth 32 :: (a >>> 4).setWidth 32 :: unpackCodes cw t
    else match t with
      | [] => [a.setWidth 32]
      | b :: t' => (b ++ a).setWidth 32 :: unpackCodes cw t'

/-- A list in pieces of n. -/
def piecesOf {α : Type} (n : Nat) : Nat → List α → List (List α)
  | 0, _ => []
  | k + 1, l => l.take n :: piecesOf n k (l.drop n)

/-- A product in a cell: integer elements have no signed zero. -/
def cellProd (isInt : Bool) (a w : FV) : FV × Bool × Bool :=
  let p := fprod a w
  let v := match p.1 with
    | .fin s m e => if isInt && m = 0 then .fin false 0 e else .fin s m e
    | v => v
  (v, p.2, fisNan a || fisNan w)

/-- The sum of one cell, scaled by its sidebar code where the type is block-scaled: the exact value, and whether it is
invalid. -/
def cellSum (scale : Option W8) (ps : List (FV × Bool × Bool)) : FV × W8 :=
  let vs := ps.map (·.1)
  if scale = some 0xFF#8 ∨ ps.any (·.2.2) then (.nan, 0)
  else if ps.any (·.2.1) ∨ (vs.contains (.inf false) ∧ vs.contains (.inf true)) then (.nan, fINV)
  else if vs.contains (.inf false) then (.inf false, 0)
  else if vs.contains (.inf true) then (.inf true, 0)
  else
    let e0 := fexp0 vs
    let s := fsumAt e0 vs
    let k : Int := match scale with | some c => (c.toNat : Int) - 127 | none => 0
    if s = 0 then (.fin (vs.all (fun v => fsgn v)) 0 0, 0) else (.fin (decide (s < 0)) s.natAbs (e0 + k), 0)

/-- The activations that the 64 columns of stored element k meet. -/
def actRow (n spn : Nat) (acts : List FV) (nibs : List W8) (k : Nat) : List FV :=
  if spn = 0 then List.replicate 64 (acts.getD k (.fin false 0 0))
  else
    let g := (acts.drop (16 * (k / (16 / 2 ^ spn)))).take 16
    (List.range 64).map (fun j =>
      let i := j * n + k
      let b := (nibs.getD (i / 2) 0).toNat
      g.getD (if i % 2 = 0 then b % 16 else b / 16) (.fin false 0 0))

/-- The products of one cell row in each of the 64 columns. -/
def cellProds (isInt : Bool) : List (List FV × List FV) → List (List (FV × Bool × Bool))
  | [] => List.replicate 64 []
  | r :: t => List.zipWith (fun p rest => p :: rest) (List.zipWith (cellProd isInt) r.1 r.2) (cellProds isInt t)

/-- One cell row down the column chains of an f32 accumulation: partial sums with the flags gathered. -/
def chainStep (isInt : Bool) (scales : Option (List W8)) (rows : List (List FV × List FV)) (ps : List FR) : List FR :=
  let prods := cellProds isInt rows
  let scs : List (Option W8) := match scales with | some l => l.map some | none => List.replicate 64 none
  List.zipWith (fun (p : FR) (x : Option W8 × List (FV × Bool × Bool)) =>
    let c := cellSum x.1 x.2
    let r := fadd .f32 .rne false (fdec .f32 p.v) c.1
    ⟨r.v, p.f ||| r.f ||| c.2⟩) ps (scs.zip prods)

/-- The array flags of floating-point flags: invalid, overflow, underflow, inexact. -/
def arrayFlags (f : W8) : BitVec 5 :=
  (if f &&& fINV ≠ 0 then 1 else 0) ||| (if f &&& fOVF ≠ 0 then 2 else 0) ||| (if f &&& fUNF ≠ 0 then 4 else 0)
    ||| (if f &&& fINX ≠ 0 then 8 else 0)

/-- Stored elements of a column. -/
def tileRows (t : Nat) : Nat := 64 * cellK t

/-- The partial sums of a row under a plane, with their flags. -/
def rowSums (fmt : W32) (p : Plane) (bytes : List W8) : List W32 × W8 :=
  match elemOf (fmtMta fmt), elemOf p.typ.toNat with
  | some ea, some eb =>
    let t := p.typ.toNat
    let K := cellK t
    let n := tileRows t
    let isInt := match eb.ty with | .int _ _ _ => true | _ => false
    let acts := (unpackCodes ea.cw bytes).map ea.val
    let ws := piecesOf 64 n ((unpackCodes eb.cw p.tile.flatten).map eb.val)
    let nibs := p.nibs.flatten
    let rows := ((List.range n).map (fun k => actRow n p.spn.toNat acts nibs k)).zip ws
    let cells := piecesOf K 64 rows
    if fmtAcc fmt = 1 then
      let term (x : FV) : Int := match x with | .fin s m e => (if s then -1 else 1) * ((m * 2 ^ e.toNat : Nat) : Int) | _ => 0
      let add (acc : List Int) (r : List FV × List FV) : List Int :=
        List.zipWith (fun a p => a + p) acc (List.zipWith (fun x w => term x * term w) r.1 r.2)
      ((rows.foldl add (List.replicate 64 0)).map (fun v => BitVec.ofInt 32 v), 0)
    else
      let side := p.side.flatten
      let scales (i : Nat) : Option (List W8) :=
        if blockScaled t then some (byteSlice side (64 * (K * i / 32)) 64) else none
      let ps := (cells.zip (List.range 64)).foldl (fun ps c => chainStep isInt (scales c.2) c.1 ps)
        (List.replicate 64 ⟨0x80000000, 0⟩)
      (ps.map (·.v), allFlags ps)
  | _, _ => (List.replicate 64 0, 0)

/-- The exponent scaling at the port (12:R253). -/
def portScale (code : W8) (ps : List W32) : List W32 × W8 :=
  let rs := ps.map (fun p =>
    if code = 0xFF then (⟨FT.nan .f32, 0⟩ : FR) else fput .f32 .rne false (fscale2 (fdec .f32 p) ((code.toNat : Int) - 127)))
  (rs.map (·.v), allFlags rs)

/-! ### The accumulator plane (12:R241) -/

def clearedWord (i32 : Bool) : W32 := if i32 then 0 else 0x80000000

def setBit256 (b : BitVec 256) (i : Nat) (v : Bool) : BitVec 256 :=
  if v then b ||| (1#256 <<< i) else b &&& ~~~ (1#256 <<< i)

def accRow (m : Matrix) (r : Nat) : List W32 := m.acc.getD r []

/-- Clear an accumulator row and its taint. -/
def clearAcc (i32 : Bool) (m : Matrix) (r : Nat) : Matrix :=
  { m with acc := m.acc.set r (List.replicate 64 (clearedWord i32)), rtaint := setBit256 m.rtaint r false }

/-- Rows (ar + j) mod 256 for j below n. -/
def rowsFrom (ar n : Nat) : List Nat := (List.range n).map (fun j => (ar + j) % 256)

/-- A row's partial sums reach its accumulator row. -/
def accumulate (m : Matrix) (r : MRow) : Matrix :=
  let old := accRow m r.ar
  let taint := r.taint || (!r.z && m.rtaint.getLsbD r.ar)
  if r.i32 then
    let sum (a p : W32) : W32 := if r.z then p else a + p
    let wraps := !r.z && (old.zip r.psum).any (fun x => BitVec.saddOverflow x.1 x.2)
    { m with acc := m.acc.set r.ar (List.zipWith sum old r.psum), rtaint := setBit256 m.rtaint r.ar taint
             mflags := m.mflags ||| arrayFlags r.flags ||| (if wraps then 16 else 0) }
  else
    let rs := List.zipWith (fun a p => fadd .f32 .rne false (fdec .f32 (if r.z then 0x80000000 else a)) (fdec .f32 p)) old r.psum
    { m with acc := m.acc.set r.ar (rs.map (·.v)), rtaint := setBit256 m.rtaint r.ar taint
             mflags := m.mflags ||| arrayFlags r.flags ||| arrayFlags (allFlags rs) }

/-! ### The epilogue (02:R37, 12:R254, R255) -/

/-- One element through the epilogue. -/
def epiElem (e : Elem) (rm : RM) (sat : Bool) (v rs cs bs : FV) : FR :=
  let p := fprod v rs
  let q := fprod p.1 cs
  let nan := fisNan v || fisNan rs || fisNan cs || fisNan bs
  match e.ty with
  | .fp t => fsum t rm sat nan (p.2 || q.2) [q.1, bs]
  | .int _ _ _ =>
    if nan || p.2 || q.2 || (fisInf q.1 && fisInf bs && fsgn q.1 != fsgn bs) then e.put rm sat .nan
    else if fisInf q.1 then e.put rm sat q.1
    else if fisInf bs then e.put rm sat bs
    else
      let e0 := fexp0 [q.1, bs]
      e.put rm sat (fofInt (fsumAt e0 [q.1, bs]) e0)

/-- The 64 results of an accumulator row. -/
def epiRowOut (m : Matrix) (cfg : W8) (fmt : W32) (r : Nat) : List FR :=
  let row := accRow m r
  if cfg.getLsbD 4 then row.map (fun w => ⟨w, 0⟩)
  else match elemOf (cfg.extractLsb' 0 4).toNat with
    | none => []
    | some e =>
      let rs := if cfg.getLsbD 5 then fdec .f32 (m.rowscale.getD r 0) else fofInt 1 0
      (row.zip (m.colscale.zip m.bias)).map (fun x =>
        let v := if fmtAcc fmt = 1 then fofInt x.1.toInt 0 else fdec .f32 x.1
        let cs := if cfg.getLsbD 6 then fdec .f32 x.2.1 else fofInt 1 0
        let bs := if cfg.getLsbD 7 then fdec .f32 x.2.2 else .fin true 0 0
        epiElem e (fmtRM fmt) (fmtSat fmt) v rs cs bs)

/-- Bits of a drained element. -/
def drainBits (cfg : W8) : Nat := if cfg.getLsbD 4 then 32 else otypeBits (cfg.extractLsb' 0 4).toNat

/-- What MASK writes: -Inf in the output type, or in f32 under RAW, with no flag. -/
def maskCode (cfg : W8) : FR :=
  if cfg.getLsbD 4 then ⟨0xFF800000, 0⟩
  else match elemOf (cfg.extractLsb' 0 4).toNat with
    | some e => ⟨(e.put .rne false (.inf true)).v, 0⟩
    | none => ⟨0, 0⟩

/-- Elements whose mask bit is 0 are replaced. -/
def masked (cfg : W8) (mask : List W8) (l : List FR) : List FR :=
  (l.zip (List.range l.length)).map (fun x => if (mask.getD (x.2 / 8) 0).getLsbD (x.2 % 8) then x.1 else maskCode cfg)

/-- Element codes packed by 02:R21. -/
def packCodes (w : Nat) : List W32 → List W8
  | [] => []
  | a :: t =>
    if w = 32 then word32Bytes a ++ packCodes w t
    else if w = 16 then natBytes 2 a.toNat ++ packCodes w t
    else if w = 8 then a.setWidth 8 :: packCodes w t
    else match t with
      | [] => [(a &&& 0xF).setWidth 8]
      | b :: t' => ((a &&& 0xF) ||| ((b &&& 0xF) <<< 4)).setWidth 8 :: packCodes w t'

/-! ### Events -/

/-- Read a block for the array: the bytes, and whether a granule was poisoned. -/
def arrayRead (s : State) (c : CoreRef) (a n : Nat) : List W8 × Bool × State :=
  let s1 := nearTouch s c a n
  (nearRead s1 c a n, (s1.core c).near.poisoned a n, s1)

def updMx (s : State) (c : CoreRef) (f : Matrix → Matrix) : State := s.upd c (fun k => { k with mx := f k.mx })

/-- A block read into the shadow plane: block 0 begins its part afresh. -/
def addBlock (l : List (List W8)) (b : Nat) (bs : List W8) : List (List W8) := if b = 0 then [bs] else l ++ [bs]

/-- Post an event of the array. -/
def addEvt (m : Matrix) (due : Nat) (op : MOp) : Matrix := { m with evts := m.evts ++ [⟨due, op⟩] }

/-- The order of events within a cycle (12:R241): control first, then reads and entries, the end of a load behind its last block's
read (12:R243), port scaling and accumulation, and drains last. -/
def mopRank : MOp → Nat
  | .swap => 0 | .cfg _ => 0 | .clr _ _ _ => 0 | .taintClr => 0 | .taintSet => 0 | .statClr _ => 0
  | .setCol _ _ => 0 | .setRow _ _ => 0
  | .enter _ _ _ _ _ _ => 1
  | .tile _ _ => 2 | .side _ _ => 2 | .nib _ _ => 2 | .feed _ _ _ _ _ _ => 2 | .epiCol _ => 2 | .epiRow _ => 2
  | .xld _ => 2 | .maskRd _ _ _ => 2
  | .loaded _ _ => 3 | .exp _ => 3
  | .drain _ _ _ _ _ _ _ => 4 | .transRd _ _ _ _ _ _ _ => 4
  | .maccWr _ _ _ _ => 5 | .maccRd _ _ _ _ _ => 6 | .transWr _ _ _ _ _ _ _ => 5

/-- A drain stops: its later rows are dropped, and with them their claims. -/
def dropDrain (m : Matrix) (id : Nat) : Matrix :=
  { m with
    evts := m.evts.filter (fun e => match e.op with
      | .drain i _ _ _ _ _ _ => i ≠ id
      | .maskRd i _ _ => i ≠ id
      | .transWr i _ _ _ _ _ _ => i ≠ id
      | .maccRd i _ _ _ _ => i ≠ id
      | .maccWr i _ _ _ => i ≠ id
      | _ => true)
    drainBuf := m.drainBuf.filter (fun b => b.id ≠ id) }

/-- The trap of a drain at the next boundary (12:R255, R257): a result of the M slot with its flags or its poison. -/
def drainTrap (s : State) (c : CoreRef) (fl : W8) (fmt : W32) (poison : Option W64) : State :=
  let s1 := s.upd c (fun k => { k with main := { k.main with pends := k.main.pends ++
    [{ serial := s.serial, slot := 3, due := k.clk.arch + 1, flags := fl, ten := fmtTen fmt, poison := poison }] } })
  freshSerial s1

/-- Write a drained row, with poison where it is tainted (12:R243). -/
def drainPut (s : State) (c : CoreRef) (a : Nat) (bs : List W8) (taint : Bool) : State :=
  let s1 := nearStore s c a bs
  if taint then s1.upd c (fun k => { k with near := k.near.taintBytes a bs.length }) else s1

/-- The flags of a drained row: raised, or a trap where one of them is enabled. -/
def drainFlags (s : State) (c : CoreRef) (fl : W8) : State :=
  s.upd c (fun k => { k with main := raiseFlags k.main fl 0 })

/-- A mask row read for row j of a drain; a mask that is not there keeps every column. -/
def maskOf (m : Matrix) (id j : Nat) : MBuf :=
  (m.drainBuf.find? (fun b => b.id = id && b.j = j)).getD { id := id, j := j, bs := List.replicate 8 0xFF }

/-- One row of a drain at its cycle. -/
def runDrain (s : State) (c : CoreRef) (id r addr : Nat) (cfg : W8) (keep : Bool) (fmt : W32) (mask : Option Nat) : State :=
  let m := (s.core c).mx
  let out0 := epiRowOut m cfg fmt r
  let out := match mask with | some j => masked cfg (maskOf m id j).bs out0 | none => out0
  let tm := match mask with | some j => (maskOf m id j).taintLo | none => false
  let fl := allFlags out
  if trappingFlags fl (fmtTen fmt) ≠ 0 then drainTrap (updMx s c (fun m => dropDrain m id)) c fl fmt none
  else
    let taint := m.rtaint.getLsbD r || m.etaint || tm
    let s1 := drainFlags (drainPut s c addr (packCodes (drainBits cfg) (out.map (·.v))) taint) c fl
    updMx s1 c (fun m =>
      let m1 := { m with drainBuf := m.drainBuf.filter (fun b => !(b.id = id && some b.j = mask)) }
      if keep then m1 else clearAcc (fmtAcc fmt = 1) m1 r)

/-- The rows of a transposed drain are read together: column j of them is output row j, kept with the flags of each element. -/
def runTransRd (s : State) (c : CoreRef) (id ar n : Nat) (cfg : W8) (keep : Bool) (fmt : W32) : State :=
  let m := (s.core c).mx
  let outs := (rowsFrom ar n).map (epiRowOut m cfg fmt)
  let taint := (rowsFrom ar n).any (fun r => m.rtaint.getLsbD r) || m.etaint
  let bufs := (List.range 64).map (fun j =>
    let col := outs.map (fun o => o.getD j ⟨0, 0⟩)
    ({ id := id, j := j + 256, bs := packCodes 32 (col.map (·.v)) ++ col.map (·.f), taintLo := taint } : MBuf))
  updMx s c (fun m =>
    let m1 := { m with drainBuf := m.drainBuf ++ bufs }
    if keep then m1 else (rowsFrom ar n).foldl (clearAcc (fmtAcc fmt = 1)) m1)

/-- An output row of a transposed drain is written; a masked element raises nothing (13:R269). -/
def runTransWr (s : State) (c : CoreRef) (id j addr len : Nat) (cfg : W8) (isMasked : Bool) (fmt : W32) : State :=
  let m := (s.core c).mx
  match m.drainBuf.find? (fun b => b.id = id && b.j = j + 256) with
  | none => s
  | some b =>
    let n := b.bs.length / 5
    let col := List.zipWith (fun w f => (⟨w, f⟩ : FR)) (unpackWords (b.bs.take (4 * n))) (b.bs.drop (4 * n))
    let out := if isMasked then masked cfg (maskOf m id j).bs col else col
    let fl := allFlags out
    if trappingFlags fl (fmtTen fmt) ≠ 0 then drainTrap (updMx s c (fun m => dropDrain m id)) c fl fmt none
    else
      let taint := b.taintLo || (isMasked && (maskOf m id j).taintLo)
      let s1 := drainFlags (drainPut s c addr ((packCodes (drainBits cfg) (out.map (·.v))).take len) taint) c fl
      updMx s1 c (fun m => { m with drainBuf := m.drainBuf.filter (fun x => !(x.id = id && x.j = j + 256)) })
where
  /-- 32-bit words of bytes. -/
  unpackWords : List W8 → List W32
    | a :: b :: c :: d :: t => (d ++ c ++ b ++ a) :: unpackWords t
    | _ => []

/-- Block j of a MACC is read and added to its two accumulator rows (12:R257). -/
def runMaccRd (s : State) (c : CoreRef) (id j ar addr : Nat) (fmt : W32) : State :=
  let r := arrayRead s c addr 512
  if r.2.1 then
    let g := ((granules 16 addr 512).find? (fun g => (r.2.2.core c).near.poison.contains g)).getD 0
    drainTrap (updMx r.2.2 c (fun m => dropDrain m id)) c 0 fmt (some (BitVec.ofNat 64 (16 * g)))
  else
    let m := (r.2.2.core c).mx
    let r0 := (ar + 2 * j) % 256
    let r1 := (ar + 2 * j + 1) % 256
    let old := (List.range 128).map (fun i => leW32 (byteSlice r.1 (4 * i) 4))
    let rs := List.zipWith (fun a b => fadd .f32 .rne false (fdec .f32 a) (fdec .f32 b)) old (accRow m r0 ++ accRow m r1)
    updMx r.2.2 c (fun m => { m with drainBuf := m.drainBuf ++ [{
      id := id, j := j, bs := (rs.map (·.v)).flatMap word32Bytes, flags := allFlags rs
      taintLo := m.rtaint.getLsbD r0, taintHi := m.rtaint.getLsbD r1 }] })

/-- Block j of a MACC is written. -/
def runMaccWr (s : State) (c : CoreRef) (id j addr : Nat) (fmt : W32) : State :=
  match (s.core c).mx.drainBuf.find? (fun b => b.id = id && b.j = j) with
  | none => s
  | some b =>
    if trappingFlags b.flags (fmtTen fmt) ≠ 0 then drainTrap (updMx s c (fun m => dropDrain m id)) c b.flags fmt none
    else
      let s1 := drainPut s c addr (b.bs.take 256) b.taintLo
      let s2 := drainPut s1 c (addr + 256) (b.bs.drop 256) b.taintHi
      updMx (drainFlags s2 c b.flags) c (fun m => { m with drainBuf := m.drainBuf.filter (fun x => !(x.id = id && x.j = j)) })

/-- A row enters the array under the active plane (12:R239): its duty is counted (12:R246). A buffer code is applied as MEXP would
apply it, so to a block-scaled type only (13:R268). -/
def runEnter (s : State) (c : CoreRef) (bytes : List W8) (poisoned : Bool) (ar : Nat) (z : Bool) (fmt : W32)
    (ex : Option Nat) : State :=
  s.upd c (fun k =>
    let m := k.mx
    let ps := rowSums fmt m.act bytes
    let x := match ex with | some i => m.xbuf.getD i (0, false) | none => (0, false)
    let scaled := blockScaled (fmtMta fmt)
    let row : MRow :=
      { e := k.clk.arch, psum := ps.1, flags := ps.2, ar := ar % 256, z := z, i32 := fmtAcc fmt = 1
        scaled := scaled, exp := if scaled then ex.map (fun _ => x.1) else none, taint := poisoned || m.act.taint || x.2 }
    { k with mx := { m with rows := m.rows ++ [row] }, ph := { k.ph with mCount := k.ph.mCount + 1 } })

/-- A word list from bytes. -/
def wordsAt (bs : List W8) (o n : Nat) : List W32 := (List.range n).map (fun i => leW32 (byteSlice bs (o + 4 * i) 4))

/-- One event of the array takes place. -/
def runMOp (s : State) (c : CoreRef) (op : MOp) : State :=
  let now := (s.core c).clk.arch
  match op with
  | .swap => updMx s c (fun m => { m with act := m.shd, shd := m.act })
  | .loaded t n => updMx s c (fun m => { m with
      shd := { m.shd with typ := t, spn := n, valid := true, taint := m.loadTaint, nibs := if n = 0 then m.shd.nibs else [] } })
  | .cfg v => updMx s c (fun m => { m with epicfg := v })
  | .clr ar n i => updMx s c (fun m => (rowsFrom ar n).foldl (clearAcc i) m)
  | .taintClr => updMx s c (fun m => { m with
      act := { m.act with taint := false }, shd := { m.shd with taint := false }, rtaint := 0, etaint := false
      xbuf := m.xbuf.map (fun x => (x.1, false)) })
  | .taintSet => updMx s c (fun m => { m with rtaint := BitVec.allOnes 256 })
  | .statClr b => updMx s c (fun m => { m with mflags := m.mflags &&& ~~~ b })
  | .setCol bs p => updMx s c (fun m => { m with colscale := wordsAt bs 0 64, bias := wordsAt bs 256 64, etaint := p })
  | .setRow bs p => updMx s c (fun m => { m with rowscale := wordsAt bs 0 256, etaint := p })
  | .enter bs p ar z f ex => runEnter s c bs p ar z f ex
  | .tile b a =>
    let r := arrayRead s c a 512
    updMx r.2.2 c (fun m => { m with
      shd := { m.shd with tile := addBlock m.shd.tile b r.1 }, loadTaint := if b = 0 then r.2.1 else m.loadTaint || r.2.1 })
  | .side b a =>
    let r := arrayRead s c a 512
    updMx r.2.2 c (fun m => { m with
      shd := { m.shd with side := addBlock m.shd.side b r.1 }, loadTaint := m.loadTaint || r.2.1 })
  | .nib b a =>
    let r := arrayRead s c a 512
    updMx r.2.2 c (fun m => { m with
      shd := { m.shd with nibs := addBlock m.shd.nibs b r.1, taint := m.shd.taint || r.2.1 } })
  | .feed a n ar z f ex =>
    let r := arrayRead s c a n
    updMx r.2.2 c (fun m => addEvt m (now + 1) (.enter r.1 r.2.1 ar z f ex))
  | .epiCol a =>
    let r := arrayRead s c a 512
    updMx r.2.2 c (fun m => addEvt m (now + 1) (.setCol r.1 r.2.1))
  | .epiRow a =>
    let r := arrayRead s c a 1024
    updMx r.2.2 c (fun m => addEvt m (now + 1) (.setRow r.1 r.2.1))
  | .xld a =>
    let r := arrayRead s c a 512
    let near := (r.2.2.core c).near
    updMx r.2.2 c (fun m => { m with
      xbuf := (List.range 256).map (fun i => (r.1.getD i 0, near.poison.contains ((a + i) / 16))) })
  | .maskRd id j a =>
    let r := arrayRead s c a 8
    updMx r.2.2 c (fun m => { m with drainBuf := m.drainBuf ++ [{ id := id, j := j, bs := r.1, taintLo := r.2.1 }] })
  | .exp code => updMx s c (fun m => { m with rows := m.rows.map (fun (r : MRow) =>
      if r.e + 66 = now && r.scaled && r.exp = none then { r with exp := some code } else r) })
  | .drain id r a cfg keep f mask => runDrain s c id r a cfg keep f mask
  | .transRd id ar n cfg keep _ f => runTransRd s c id ar n cfg keep f
  | .transWr id j a n cfg mk f => runTransWr s c id j a n cfg mk f
  | .maccRd id j ar a f => runMaccRd s c id j ar a f
  | .maccWr id j a f => runMaccWr s c id j a f

/-- Rows at the partial-sum port take their exponents, with the flags of that rounding; then the rows one cycle further on
are accumulated (12:R239). -/
def portAndAccumulate (s : State) (c : CoreRef) : State :=
  let now := (s.core c).clk.arch
  updMx s c (fun m =>
    let port := m.rows.filter (fun r => r.e + 66 = now && r.exp.isSome)
    let fl := port.foldl (fun a r => a ||| (portScale (r.exp.getD 127) r.psum).2) 0
    let m1 := { m with
      mflags := m.mflags ||| arrayFlags fl
      rows := m.rows.map (fun (r : MRow) => if r.e + 66 = now && r.exp.isSome then { r with psum := (portScale (r.exp.getD 127) r.psum).1 } else r) }
    let done := m1.rows.filter (fun r => r.e + 67 ≤ now)
    done.foldl accumulate { m1 with rows := m1.rows.filter (fun r => !(r.e + 67 ≤ now)) })

/-- The events of a rank range that are due, in order of rank. -/
def dueEvts (k : Core) (lo hi : Nat) : List MOp :=
  let l := (k.mx.evts.filter (fun e => e.due ≤ k.clk.arch)).map (·.op)
  ((List.range (hi + 1 - lo)).map (fun i => l.filter (fun o => mopRank o = lo + i))).flatten

/-- Run the events of one rank range. A drain that has stopped in this cycle runs no more of its events. -/
def runEvts (s : State) (c : CoreRef) (lo hi : Nat) : State :=
  let ops := dueEvts (s.core c) lo hi
  ops.foldl (fun s o =>
    let m := (s.core c).mx
    if m.evts.any (fun e => e.op = o && e.due ≤ (s.core c).clk.arch) then
      runMOp (updMx s c (fun m => { m with evts := m.evts.filter (fun e => !(e.op = o && e.due ≤ (s.core c).clk.arch)) })) c o
    else s) s

/-- ARRAY_ROW_ACCUMULATE (12:R239, R241): everything of a cycle up to its accumulations. The array of a core in a trap is
frozen (12:R263). -/
def execArrayRowAccumulate (s : State) : Host.Outcome State Fault Refusal :=
  let c := s.ev.core
  .next (if (s.core c).tp.active then s else portAndAccumulate (runEvts s c 0 3) c)

/-- DRAIN_ROW_WRITE (12:R255, R257): the drain and MACC rows of a cycle. -/
def execDrainRowWrite (s : State) : Host.Outcome State Fault Refusal :=
  let c := s.ev.core
  .next (if (s.core c).tp.active then s else runEvts s c 4 6)

/-- A load of the shadow plane is in progress. -/
def loadBusy (m : Matrix) : Bool :=
  m.evts.any (fun e => match e.op with | .tile _ _ => true | .side _ _ => true | .nib _ _ => true | _ => false)

/-- The status word. -/
def arrayStatus (m : Matrix) : W64 :=
  BitVec.ofNat 64 (flagAt m.shd.valid 55 + m.shd.spn.toNat * 2 ^ 53 + m.shd.typ.toNat * 2 ^ 49 + flagAt m.act.valid 48
    + m.act.spn.toNat * 2 ^ 46 + m.act.typ.toNat * 2 ^ 42 + flagAt (loadBusy m) 41 + flagAt m.etaint 36
    + flagAt m.shd.taint 35 + flagAt m.act.taint 34 + flagAt (m.rtaint ≠ 0) 33 + m.mflags.toNat)

end Sys2Proof.Machine
end

