-- ==== Sys2Proof/Machine/PhaseTable.lean ====
section
/-!
DEFINITION. Phase-table buffers (15:R298 to R304): reading and checking the records of an image and the tables they point to,
the power they charge (15:R316), and PHLOAD.
-/

namespace Sys2Proof.Machine

/-! ### Reading and checking (15:R299 to R303, 16:R325, R326) -/

/-- Bytes by virtual address, none on a fault or poison; nothing is read for a length of 0. -/
def tableRead (s : State) (p va n : Nat) : Option (List W8) :=
  if n = 0 then some [] else match vread s p va n with
    | .bytes l => some l
    | _ => none

/-- Whether a list repeats an element. -/
def repeats : List Nat → Bool
  | [] => false
  | x :: t => t.contains x || repeats t

/-- What a table gives: the statuses it fails with, and its contents. -/
structure TabOf (α : Type) where
  errs : List Nat
  val : α

/-- Status n where the condition holds. -/
def errIf (b : Bool) (n : Nat) : List Nat := if b then [n] else []

/-- Read a table of n bytes at a pointer, and check and convert it; an absent one has the value d. -/
def readTable {α : Type} (s : State) (p ptr n : Nat) (d : α) (f : List W8 → TabOf α) : TabOf α :=
  if ptr = 0 then ⟨[], d⟩
  else match tableRead s p ptr n with
    | none => ⟨[3], d⟩
    | some bs => f bs

/-- Entry addresses: multiples of 4 below CODELEN (15:R301, 18:R363). -/
def entryTable (n codelen : Nat) (bs : List W8) : TabOf (List Nat) :=
  let l := (List.range n).map (fun g => fieldAt bs (8 * g) 8)
  ⟨errIf (l.any (fun e => e % 4 ≠ 0 || (e ≠ 0 && codelen ≤ e))) 4, l⟩

/-- Grants: M and V up to 16 (15:R301). -/
def grantTable (n : Nat) (bs : List W8) : TabOf (List (Nat × Nat)) :=
  let l := (List.range n).map (fun g => fieldAt bs (2 * g) 2)
  ⟨errIf (l.any (fun w => 2 ^ 10 ≤ w || 16 < w % 32 || 16 < w / 32 % 32)) 4, l.map (fun w => (w % 32, w / 32 % 32))⟩

/-- The lateral schedule: whether it has entries (15:R301). -/
def lateralTable (s : State) (p ptr : Nat) : TabOf Bool :=
  readTable s p ptr 8 false (fun bs =>
    let n := fieldAt bs 0 8
    if 2 ^ 24 < n then ⟨[4], false⟩
    else match tableRead s p (ptr + 8) (8 * n) with
      | none => ⟨[3], true⟩
      | some es =>
        let l := (List.range n).map (fun i => fieldAt es (8 * i) 8)
        ⟨errIf (l.any (fun e => 2 ^ 30 ≤ e || 4 < e / 2 ^ 27 % 8)) 4 ++ errIf (repeats l) 6, n ≠ 0⟩)

/-- A timetable entry is malformed (16:R326). -/
def badEntry (det : Bool) (e : List W8) : Bool :=
  let len := entLen e
  2 ^ 20 ≤ fieldAt e 0 4 || 2 ^ 23 ≤ fieldAt e 4 4 || entSrc e % 16 ≠ 0 || 2 ^ 17 ≤ fieldAt e 8 4 || len % 16 ≠ 0 || len < 16
    || 65536 < len || 2 ^ 22 ≤ fieldAt e 12 4 || 2 ^ 23 ≤ fieldAt e 16 4 || entDoff e % (if entMode e = 3 then 32 else 16) ≠ 0
    || 4 ≤ fieldAt e 22 1 || fieldAt e 23 9 ≠ 0 || (det && entMode e = 1)

/-- One position's run of timetable entries, from its directory entry (16:R325). -/
def fabricRun (s : State) (p : Nat) (det : Bool) (d : List W8) : TabOf (List (List W8) × Nat) :=
  let run := fieldAt d 0 6
  let cnt := fieldAt d 6 2
  if run % 32 ≠ 0 ∨ 1024 < cnt ∨ fieldAt d 13 3 ≠ 0 then ⟨[4], ([], 0)⟩
  else match tableRead s p run (32 * cnt) with
    | none => ⟨[3], ([], 0)⟩
    | some bs =>
      let es := (List.range cnt).map (fun i => byteSlice bs (32 * i) 32)
      ⟨errIf (es.any (badEntry det)) 4 ++ errIf (es.any (fun e => !(getPart s p).ports.getLsbD (entPort e))) 7,
        (es, fieldAt d 8 5)⟩

/-- The directory of timetable runs, by gang position. -/
def fabricTable (s : State) (p ptr n : Nat) (det : Bool) : TabOf (List (List (List W8) × Nat)) :=
  readTable s p ptr (16 * n) [] (fun bs =>
    let l := (List.range n).map (fun g => fabricRun s p det (byteSlice bs (16 * g) 16))
    ⟨l.flatMap (·.errs), l.map (·.val)⟩)

/-- One position's run of raster entries (15:R301). -/
def rasterRunOf (s : State) (p d : Nat) : TabOf (List W64) :=
  let len := d / 2 ^ 48 % 2 ^ 11
  if 2 ^ 59 ≤ d ∨ 1024 < len then ⟨[4], []⟩
  else match tableRead s p (d % 2 ^ 48) (8 * len) with
    | none => ⟨[3], []⟩
    | some bs => ⟨[], (List.range len).map (fun i => leW64 (byteSlice bs (8 * i) 8))⟩

def rasterTable (s : State) (p ptr n : Nat) : TabOf (List (List W64)) :=
  readTable s p ptr (8 * n) [] (fun bs =>
    let l := (List.range n).map (fun g => rasterRunOf s p (fieldAt bs (8 * g) 8))
    ⟨l.flatMap (·.errs), l.map (·.val)⟩)

/-- Longest LENGTH at a clock step (15:R300). -/
def lengthLimit (step : Nat) : Nat := 60000 * ninths step

/-- A record's own fields are malformed (15:R299, R303). -/
def badRecord (img : List W8) (buf : Bool) (count i : Nat) : Bool :=
  let fl := fieldAt img 1 1
  let succ := (List.range 4).map (fun j => fieldAt img (16 + 2 * j) 2)
  fieldAt img 0 1 ≠ i || 64 ≤ fl || fl / 16 = 0 || fl / 16 = 3 || 4 < fieldAt img 2 1 || fieldAt img 12 4 ≠ 0
    || fieldAt img 4 4 = 0 || fieldAt img 8 4 = 0
    || (!bitOf fl 0 && succ.any (fun v => 512 ≤ v || (bitOf v 8 = buf && count ≤ v % 256)))
    || [24, 32, 40, 48, 56].any (fun o => 2 ^ 48 ≤ fieldAt img o 8)

/-- Check one record of an image for a gang of n cores, and take in its tables. -/
def loadRecord (s : State) (p n codelen : Nat) (buf : Bool) (count i : Nat) (img : List W8) : TabOf PhRec :=
  let fl := fieldAt img 1 1
  let ptr (o : Nat) : Nat := if 2 ^ 48 ≤ fieldAt img o 8 then 0 else fieldAt img o 8
  let en := readTable s p (ptr 24) (8 * n) (List.replicate n 0) (entryTable n codelen)
  let gr := readTable s p (ptr 32) (2 * n) (List.replicate n (0, 0)) (grantTable n)
  let la := lateralTable s p (ptr 40)
  let fa := fabricTable s p (ptr 48) n (bitOf fl 3)
  let ra := rasterTable s p (ptr 56) n
  let step := fieldAt img 2 1
  let length := fieldAt img 4 4
  let solo := bitOf fl 1
  let sel := fieldAt img 3 1
  let hasFab := fa.val.any (fun x => x.1 ≠ [])
  { errs := errIf (badRecord img buf count i) 4 ++ en.errs ++ gr.errs ++ la.errs ++ fa.errs ++ ra.errs
      ++ errIf (solo && (la.val || hasFab)) 8 ++ errIf (fl / 16 % 4 = 1 && !solo) 9 ++ errIf (decide (lengthLimit step < length)) 10
    val := { img := img, phnum := i, fin := bitOf fl 0, solo := solo, repl := bitOf fl 2, det := bitOf fl 3, prof := fl / 16 % 4
             stepmax := step, sel0 := sel % 16, sel1 := sel / 16, length := length, slack := fieldAt img 8 4
             succ := (List.range 4).map (fun j => (fieldAt img (16 + 2 * j) 1, bitOf (fieldAt img (17 + 2 * j) 1) 0))
             entry := en.val, grant := gr.val, lateral := la.val, fab := fa.val, raster := ra.val } }

/-- Check an image of `count` records for a gang of n cores: with the limits over all its records. -/
def loadImage (s : State) (p n codelen : Nat) (buf : Bool) (count : Nat) (bs : List W8) : TabOf (List PhRec) :=
  let l := (List.range count).map (fun i => loadRecord s p n codelen buf count i (byteSlice bs (64 * i) 64))
  let recs := l.map (·.val)
  let total (f : PhRec → Nat) : Nat := recs.foldl (fun a r => a + f r) 0
  { errs := l.flatMap (·.errs)
      ++ errIf ((List.range n).any (fun g => decide (1024 < total (fun r => (r.fab.getD g ([], 0)).1.length)))) 4
      ++ errIf ((List.range n).any (fun g => decide (1024 < total (fun r => (r.raster.getD g []).length)))) 11
    val := recs }

/-- The same for the image at a virtual address, a multiple of 64. -/
def loadTable (s : State) (p n codelen : Nat) (buf : Bool) (va count : Nat) : TabOf (List PhRec) :=
  if va % 64 ≠ 0 then ⟨[1], []⟩
  else match tableRead s p va (64 * count) with
    | none => ⟨[3], []⟩
    | some bs => loadImage s p n codelen buf count bs

/-! ### What a load meets in memory (11:R233) -/

/-- Address and length of what a record of an image points to, for a gang of n cores. -/
def recordReads (s : State) (p n : Nat) (img : List W8) : List (Nat × Nat) :=
  let ptr (o : Nat) : Nat := fieldAt img o 8 % 2 ^ 48
  let here (o len : Nat) : List (Nat × Nat) := if ptr o = 0 then [] else [(ptr o, len)]
  let beyond (o len : Nat) (f : List W8 → List (Nat × Nat)) : List (Nat × Nat) :=
    if ptr o = 0 then [] else match tableRead s p (ptr o) len with
      | some bs => f bs
      | none => []
  here 24 (8 * n) ++ here 32 (2 * n)
    ++ here 40 8 ++ beyond 40 8 (fun bs => [(ptr 40 + 8, 8 * min (fieldAt bs 0 8) (2 ^ 24))])
    ++ here 48 (16 * n) ++ beyond 48 (16 * n) (fun bs => (List.range n).map (fun g => (fieldAt bs (16 * g) 6, 32 * fieldAt bs (16 * g + 6) 2)))
    ++ here 56 (8 * n) ++ beyond 56 (8 * n) (fun bs => (List.range n).map (fun g =>
      (fieldAt bs (8 * g) 8 % 2 ^ 48, 8 * (fieldAt bs (8 * g) 8 / 2 ^ 48 % 2 ^ 11))))

/-- Meet the errors of several ranges. -/
def touchAll (s : State) (p : Nat) (l : List (Nat × Nat)) : State :=
  l.foldl (fun s x => if x.2 = 0 then s else vtouch s p x.1 x.2) s

/-- The load of `count` records at a virtual address meets the errors of the image and of what it points to. -/
def tableTouch (s : State) (p n va count : Nat) : State :=
  if s.syscerr = [] ∧ s.sysuerr = [] then s
  else
    let s1 := touchAll s p [(va, 64 * count)]
    match tableRead s1 p va (64 * count) with
    | none => s1
    | some bs => touchAll s1 p ((List.range count).flatMap (fun i => recordReads s1 p n (byteSlice bs (64 * i) 64)))

/-! ### Power (15:R316, 04:R88) -/

/-- A record's charge, in eighths of a watt. -/
def charge (r : PhRec) : Nat := r.grant.foldl (fun a g => a + 12 + 6 * g.1 + g.2) 0

/-- The largest charge of a buffer. -/
def bufCharge (l : List PhRec) : Nat := l.foldl (fun a r => max a (charge r)) 0

/-- What the running gangs of a partition hold reserved, but for one. -/
def otherResv (s : State) (p : Nat) (but : Option Nat) : Nat :=
  ((s.gangs.zip (List.range s.gangs.length)).filter (fun x => x.1.live && x.1.part = p && some x.2 ≠ but)).foldl (fun a x => a + x.1.resv) 0

/-- The allotment of a partition, in eighths of a watt. -/
def powerOf (s : State) (p : Nat) : Nat := 8 * (getPart s p).power

/-- The first failing check of 15:R303 among those met: 0 where there is none. -/
def firstStatus (l : List Nat) : Nat := l.foldl (fun a x => if a = 0 then x else min a x) 0

/-! ### PHLOAD (15:R302 to R304) -/

/-- The gang that a handle names: on a vector-matrix core the core's own, by 0. -/
def gangByHandle (s : State) (c : CoreRef) (h : Nat) : Option Nat :=
  if c.cc then
    ((List.range s.gangs.length).find? (fun i => let g := getGang s i; g.live && g.part = partOf s c && g.taskid % 65536 = h))
  else if h = 0 then (s.core c).ph.gang else none

/-- The gang waits for a PHLOAD to make the selected successor valid (15:R311). -/
def gangWaits (g : Gang) : Bool := g.nextRec.isSome && g.nextAt.isNone && !g.saving

/-- A buffer is busy (15:R304). -/
def bufBusy (g : Gang) (b : Bool) : Bool :=
  if gangWaits g && g.nextRec.map (·.1) = some b then false
  else g.cur.map (·.1) = some b || ((g.cur.isSome || g.restored) && g.nextRec.map (·.1) = some b)

/-- Statuses 1 and 2 of a PHLOAD. -/
def phloadEarly (s : State) (c : CoreRef) (a b : W64) : Nat :=
  if (b.extractLsb' 9 7) ≠ 0 ∨ (b.extractLsb' 32 32) ≠ 0 ∨ a.toNat % 64 ≠ 0 then 1
  else match gangByHandle s c (b.extractLsb' 16 16).toNat with
    | none => 1
    | some i =>
      let g := getGang s i
      if g.bufA.isNone then 1 else if bufBusy g (b.getLsbD 0) then 2 else 0

def execPhload (d : BitVec 5) (a b : BitVec 6) (g : BitVec 3) (n : BitVec 1) (s : State) : Host.Outcome State Fault Refusal :=
  .next (
    if guardOn s g n ∧ !isCC s ∧ inPhase s then issueFail s 0x01 0
    else guarded s g n [a, b] (fun s' => startStall s' { kind := .phload, a := srcS s a, b := srcS s b, dst := dstS s d.toNat
                                                         k := phloadEarly s s.cur.core (srcS s a) (srcS s b) }))

/-- A gang whose successor has become valid starts at the later of the two times of 15:R311. -/
def endWait (s : State) (g : Gang) : Gang :=
  match g.nextRec with
  | none => g
  | some (b, i) =>
    if gangWaits g ∧ i < ((if b then g.bufB else g.bufA).getD []).length then
      { g with nextAt := some (max g.nextMin (alignedTick s (s.now + 1) 6)) }
    else g

/-- Put a buffer in place: the gang's reservation becomes the larger charge of its buffers. -/
def putBuffer (s : State) (i : Nat) (b : Bool) (l : List PhRec) : State :=
  updGang s i (fun g =>
    let g := if b then { g with bufB := some l } else { g with bufA := some l }
    endWait s { g with resv := max (bufCharge (g.bufA.getD [])) (bufCharge (g.bufB.getD [])) })

/-- Load and admit: the status, and the state after it. -/
def phloadRun (s0 : State) (c : CoreRef) (st : Stall) : Nat × State :=
  let e := if st.k ≠ 0 then st.k else phloadEarly s0 c st.a st.b
  if e ≠ 0 then (e, s0)
  else match gangByHandle s0 c (st.b.extractLsb' 16 16).toNat with
    | none => (1, s0)
    | some i =>
      let g := getGang s0 i
      let p := partOf s0 c
      let b := st.b.getLsbD 0
      let count := (st.b.extractLsb' 1 8).toNat + 1
      let s := tableTouch s0 p g.cores.length st.a.toNat count
      let t := loadTable s p g.cores.length (s.core ⟨false, g.cores.headD 0⟩).codelen b st.a.toNat count
      let mine := max (bufCharge t.val) (bufCharge ((if b then g.bufA else g.bufB).getD []))
      let excess := decide (powerOf s p < bufCharge t.val ∨ powerOf s p < otherResv s p (some i) + mine)
      let e := firstStatus (t.errs ++ errIf excess 5)
      if e ≠ 0 then (e, s) else (0, putBuffer s i b t.val)

/-- The result of a PHLOAD whose stall a phase start has ended, in the order of its issue (03:R62). -/
def landKept (s : State) (c : CoreRef) (st : Stall) (v : W64) : State :=
  let s1 := s.upd c (fun k => { k with loads := k.loads.tail })
  if st.dst = .none then s1
  else
    let k := s1.core c
    let p : Pend := { serial := st.serial, slot := 0, due := if k.tp.active then 1 else k.clk.arch + 1, dst := st.dst, val := .w v
                      latch := some 0, ten := fmtTen k.main.fmt }
    if k.tp.active then s1.upd c (fun k => { k with tp := { k.tp with shadow := k.tp.shadow ++ [p] } })
    else s1.upd c (fun k => { k with main := { k.main with pends := k.main.pends ++ [p] } })

/-- PHLOAD_DONE (15:R302, R303): ev.j is 1 for the urgent context, and 2 for a load whose stall a phase start has ended. Those
go first, and the main context's before one that its handler issued: PHLOADs of a core are done in the order of issue (15:R304). -/
def execPhloadDone (s : State) : Host.Outcome State Fault Refusal :=
  let c := s.ev.core
  let u : Bool := s.ev.j = 1
  .next (
    if s.ev.j = 2 then
      match (s.core c).loads with
      | [] => s
      | st :: _ => let r := phloadRun s c st; landKept r.2 c st (BitVec.ofNat 64 r.1)
    else if (s.core c).loads ≠ [] ∨ u ∧ (stallOf s c false .phload).isSome then s
    else match stallOf s c u .phload with
      | none => s
      | some st => let r := phloadRun s c st; finishStall r.2 c u st (BitVec.ofNat 64 r.1))

end Sys2Proof.Machine
end

