-- ==== Sys2Proof/Machine/Phase.lean ====
section
/-!
DEFINITION. Phases in motion (15): sign-off messages and Clove's reduction, the start of a phase on every core of a gang, slack
bounds, Mace's windows, and the limits of the chip (15:R318, R319). An event that concerns a gang names it by ev.i.
-/

namespace Sys2Proof.Machine

/-! ### The running record -/

def bufOf (g : Gang) (b : Bool) : List PhRec := (if b then g.bufB else g.bufA).getD []

/-- The record of the running phase. -/
def runRec (g : Gang) : Option PhRec :=
  match g.cur with
  | none => none
  | some (b, i) => (bufOf g b)[i]?

/-- Reference ticks of LENGTH at the phase's step (15:R297). -/
def lengthTicks (g : Gang) (r : PhRec) : Nat := (9 * r.length + ninths g.step - 1) / ninths g.step

def vmRef (n : Nat) : CoreRef := ⟨false, n⟩

/-- A gang lies on both dies. -/
def spans (cores : List Nat) : Bool := cores.any (fun n => n / 64 ≠ cores.headD 0 / 64)

/-- Ticks from a leaf to the gang's root: die root, package root (15:R309). DESIGN CHOICE (entry 14): a port on the other die than the
root of a one-die gang takes the 16 ticks of a die root too; the rule names no other path. -/
def rootTicks (g : Gang) : Nat := if g.ens || spans g.cores then 40 else 16

/-- The chip number under which Config.pathClass knows the domain root. -/
def domainRoot : Nat := 512

/-- Send a sign-off message: to the root on this package, or to the domain root, by whose reduction the message leaves the package too
(15:R309, entry 14). -/
def sendSig (s : State) (gi : Nat) (m : SigMsg) : State :=
  let g := getGang s gi
  let m := { m with step := s.stepReq, cool := s.cool, due := m.due + rootTicks g + (if g.ens then pathTicks s.chip domainRoot else 0) }
  let s1 := updGang s gi (fun g => { g with msgs := g.msgs ++ [m] })
  if g.ens then { s1 with outbox := s1.outbox ++ [.signoff m] } else s1

/-- A participant has still to send its message. -/
def owes (g : Gang) (who idx : Nat) : Bool := g.awaited.contains (who, idx) && !g.msgs.any (fun m => m.who = who && m.idx = idx)

/-! ### Signing off (15:R305 to R307, 16:R330) -/

/-- Every condition of a core's sign-off holds (15:R306). -/
def condsMet (s : State) (c : CoreRef) : Bool := (s.core c).ph.sigConds.all (fun x => x.2 ≤ counterValue s c x.1)

/-- The core's message may be sent: LENGTH is reached, its conditions hold, and its M operations have made their last claim,
accumulation and write (12:R262); the message that a handler or a core fault forces waits for LENGTH alone. -/
def sigReady (s : State) (c : CoreRef) : Bool :=
  let k := s.core c
  k.ph.sigPend && k.ph.length ≤ k.ph.phc &&
    (k.ph.sigReplay || k.ph.sigFail || (condsMet s c && k.mx.evts = [] && k.mx.rows = []))

/-- SIGNOFF_MESSAGE (15:R306, R307): a core without an entry address sends no P. -/
def execSignoffMessage (s : State) : Host.Outcome State Fault Refusal :=
  let c := s.ev.core
  let k := s.core c
  .next (match k.ph.gang with
    | none => s
    | some gi =>
      if !sigReady s c then s
      else
        let noEntry : Bool := match runRec (getGang s gi) with
          | some r => r.entry.getD k.ph.gpos 0 = 0
          | none => true
        let s1 := s.upd c (fun k => { k with ph := { k.ph with sigPend := false } })
        sendSig s1 gi { who := 0, idx := c.num, p := if noEntry then none else some k.ph.sigP, step := 0, cool := 0
                        err := (k.ph.sigErr &&& k.eng.err) ≠ 0 || k.ph.sigFail, replay := k.ph.sigReplay, due := s.now })

/-- Flits that the running record stamps on a port. -/
def portFlits (r : PhRec) (p : Nat) : Nat :=
  r.fab.foldl (fun a x => a + (x.1.filter (fun e => entPort e = p)).foldl (fun b e => b + entFlits e) 0) 0

def portLeft (g : Gang) (p : Nat) : Nat := ((g.left.find? (fun x => x.1 = p)).map (·.2)).getD 0

/-- PORT_SIGNOFF (16:R330): port ev.j signs off a phase of gang ev.i. What flits do in a tick is seen in the next, and the end of the
timetable in its own (22:R424). A failure that comes later is for the port's next message (16:R323). -/
def execPortSignoff (s : State) : Host.Outcome State Fault Refusal :=
  let g := getGang s s.ev.i
  .next (match runRec g with
    | none => s
    | some r =>
      if owes g 1 s.ev.j ∧ g.s + lengthTicks g r ≤ s.now ∧ portFlits r s.ev.j ≤ portLeft g s.ev.j then
        updGang (sendSig s s.ev.i { who := 1, idx := s.ev.j, p := none, step := 0, cool := 0, err := g.perr.contains s.ev.j
                                    replay := false, due := s.now }) s.ev.i (fun g => { g with perr := g.perr.filter (· ≠ s.ev.j) })
      else s)

/-- RECEIVE_SIGNOFF (16:R330): the receive bank controller of core ev.core. -/
def execReceiveSignoff (s : State) : Host.Outcome State Fault Refusal :=
  let c := s.ev.core
  let k := s.core c
  .next (match k.ph.gang with
    | none => s
    | some gi =>
      let g := getGang s gi
      match runRec g with
      | none => s
      | some r =>
        if owes g 2 c.num ∧ g.s + lengthTicks g r ≤ s.now ∧ (fabRun s c).2 ≤ k.eng.inbound then
          sendSig s gi { who := 2, idx := c.num, p := none, step := 0, cool := 0, err := k.eng.rxErr, replay := false, due := s.now }
        else s)

/-! ### Clove (15:R309 to R311) -/

/-- The bit that a select code takes from the reductions (15:R299). -/
def selBit (sel : Nat) (pand por : W8) : Nat :=
  if sel < 8 then (if pand.getLsbD sel then 1 else 0) else (if por.getLsbD (sel - 8) then 1 else 0)

/-- The trap cause of the failing sign-off of a gang's core. -/
def failCause (s : State) (g : Gang) : Nat :=
  match g.cores.find? (fun n => (s.core (vmRef n)).ph.sigFail || (s.core (vmRef n)).ph.sigReplay) with
  | some n => (s.core (vmRef n)).ph.sigCause.toNat
  | none => 0

/-- Choose the record that runs next: it starts when 15:R310 says, or waits until it is valid (15:R311). -/
def chooseRec (s : State) (gi : Nat) (r : Bool × Nat) (step stretch replays : Nat) : State :=
  updGang s gi (fun g =>
    let t := s.now + g.d + 1024 * stretch
    { g with
      arrived := true, agreed := step, replays := replays, nextRec := some r, nextMin := t
      nextAt := if r.2 < (bufOf g r.1).length then some t else none })

/-- The reduction at the last arrival, and what it selects (15:R309, R310). An ensemble with a chip that an over-current has stopped
ends with status 7 (15:R319), one whose chip has lost its alignment with 2 (15:R296). -/
def reduceSig (s : State) (gi : Nat) : State :=
  let g := getGang s gi
  match runRec g, g.cur with
  | some r, some here =>
    let ps := g.msgs.filterMap (·.p)
    let pand := ps.foldl (fun a p => a &&& p) 0xFF
    let por := g.msgs.foldl (fun a m => a ||| m.por) (ps.foldl (fun a p => a ||| p) 0)
    let step := g.msgs.foldl (fun a m => max a m.step) 0
    let stretch := g.msgs.foldl (fun a m => max a m.cool) 0
    let err := g.msgs.any (·.err)
    let rep := g.msgs.any (·.replay)
    let s1 := updGang s gi (fun g => { g with arrived := true, msgs := [] })
    if g.msgs.any (·.thermal) then endTask s1 gi 7 0
    else if g.ens ∧ s.alignLost then endTask s1 gi 2 (failCause s g)
    else if err ∨ (rep ∧ (!r.repl ∨ 3 ≤ g.replays)) then endTask s1 gi 2 (failCause s g)
    else if rep then chooseRec s1 gi here step stretch (g.replays + 1)
    else if r.fin then endTask s1 gi 0 0
    else
      let j := 2 * selBit r.sel1 pand por + selBit r.sel0 pand por
      let n := r.succ.getD j (0, false)
      chooseRec s1 gi (n.2, n.1) step stretch 0
  | _, _ => s

/-- What the other chips of an ensemble sign off with, as an input gives it: bytes 0 to 7 are whether any sends P, the AND and the OR of
their P, STEP, COOL, ERR, REPLAY and whether an over-current has stopped one. -/
def othersMsg (s : State) (l : List W8) : SigMsg :=
  let f (n : Nat) : Nat := fieldAt l n 1
  { who := 3, idx := 0, p := if f 0 = 0 then none else some (BitVec.ofNat 8 (f 1)), step := f 3, cool := f 4, err := f 5 ≠ 0
    replay := f 6 ≠ 0, due := s.now, por := if f 0 = 0 then 0 else BitVec.ofNat 8 (f 2), thermal := f 7 ≠ 0 }

/-- A message has arrived; the last one forms the reduction. -/
def sigArrived (s : State) (gi : Nat) (m : SigMsg) : State :=
  let s1 := updGang s gi (fun g => { g with awaited := g.awaited.filter (· ≠ (m.who, m.idx)) })
  if (getGang s1 gi).awaited = [] then reduceSig s1 gi else s1

/-- CLOVE_ARRIVAL (15:R309): message ev.j of gang ev.i reaches the root; as an input with bytes, the last message of an ensemble's other
chips does. -/
def execCloveArrival (s : State) : Host.Outcome State Fault Refusal :=
  let gi := s.ev.i
  let g := getGang s gi
  .next (
    if s.ev.bytes ≠ [] then
      if g.live ∧ g.awaited.contains (3, 0) then
        let m := othersMsg s s.ev.bytes
        sigArrived (updGang s gi (fun g => { g with msgs := g.msgs ++ [m] })) gi m
      else s
    else match g.msgs[s.ev.j]? with
      | none => s
      | some m => if s.now < m.due ∨ !g.awaited.contains (m.who, m.idx) then s else sigArrived s gi m)

/-! ### A phase start (15:R312, 19:R396) -/

/-- What a PHLOAD stalled in a context becomes when a phase start takes the core: it goes on without the stall. -/
def keepLoad (x : Ctx) (drop : Bool) : List Stall :=
  match x.stall with
  | some st => if st.kind = .phload then [if drop then { st with dst := .none } else st] else []
  | none => []

/-- An active urgent context is ended as by ERET.resume and the main context stopped before it issues, its shadow and frozen
redirections discarded (19:R396); a stalled TLWAIT or REALIGN counts as not issued; latch lines, loop levels and P are
emptied. -/
def stopSlack (k : Core) : Core :=
  let a := k.tp.active
  let d := k.clk.arch - k.tp.t
  { k with
    loads := k.loads ++ keepLoad k.main false ++ (if a then keepLoad k.urg true else [])
    main := { k.main with
      pc := if a then k.tr.tpc else k.main.pc, redirs := if a then [] else k.main.redirs, loops := [], stall := none
      latch := List.replicate 6 [], latchBase := k.clk.arch }
    urg := if a then { k.urg with pends := [], stall := none } else k.urg
    mx := if a then k.mx.shift d else k.mx
    run := if a && k.tp.halted then .halted else k.run
    tp := if a then { preempt := k.tp.preempt } else { k.tp with frozenPh := false }
    ph := { k.ph with p := 0 } }

/-- A core cycle begins at this tick, unless one has. -/
def beginCycle (k : Core) (step : Nat) : Core :=
  let c := k.clk
  if c.due then { k with clk := { c with step := step, acc := 0 } }
  else { k with clk := { c with step := step, acc := 0, cyc := c.cyc + 1, arch := c.arch + 1, due := true, arr := 2 }
                near := { k.near with used := 0 } }

/-- The start of a phase on the core at gang position g. -/
def startCore (k0 : Core) (r : PhRec) (b : Bool) (g step : Nat) : Core :=
  let k := stopSlack (beginCycle k0 step)
  let e := r.entry.getD g 0
  let gr := r.grant.getD g (0, 0)
  let here := decide (e ≠ 0)
  { k with
    main := if here then { k.main with redirs := [], pc := BitVec.ofNat 64 e, next := k.clk.arch } else k.main
    run := if here && k.run ≠ .faulted then .running else k.run
    eng := { k.eng with inbound := 0, rxErr := false }
    ph := { k.ph with
      phnum := BitVec.ofNat 8 r.phnum, buf := b, inph := here, solo := r.solo, repl := r.repl, detf := r.det, prof := r.prof
      phc := 0, length := r.length, absent := !here, signed := !here, sigPend := !here, sigP := 0, sigConds := [], sigErr := 0
      sigReplay := false, sigFail := false, sigCause := 0, txwalked := false, mCount := 0, vCount := 0, grantM := gr.1, grantV := gr.2 } }

/-- Who signs off a phase: every core, every port that an entry names, every receive controller with bytes to come, and in an ensemble
the other chips. -/
def participants (g : Gang) (r : PhRec) : List (Nat × Nat) :=
  g.cores.map (fun n => (0, n))
    ++ ((List.range 36).filter (fun p => portFlits r p ≠ 0)).map (fun p => (1, p))
    ++ ((g.cores.zip r.fab).filter (fun x => x.2.2 ≠ 0)).map (fun x => (2, x.1))
    ++ (if g.ens then [(3, 0)] else [])

/-- Change every core of a gang. -/
def updCores (s : State) (cores : List Nat) (f : Nat → Core → Core) : State :=
  (cores.zip (List.range cores.length)).foldl (fun s x => s.upd (vmRef x.1) (f x.2)) s

/-- Link slots that a gang holds beyond the phase that ends, counted from the new start. -/
def carryLinks (l : List (Nat × Nat × Nat)) (gi phc : Nat) : List (Nat × Nat × Nat) :=
  l.filterMap (fun x => if x.1 = gi then (if phc ≤ x.2.1 then some (gi, x.2.1 - phc, x.2.2) else none) else some x)

/-- Start the selected record on every core of a gang. -/
def startPhase (s : State) (gi : Nat) (b : Bool) (i : Nat) (r : PhRec) : State :=
  let g := getGang s gi
  let step := min g.agreed r.stepmax
  let phc := (s.core (vmRef (g.cores.headD 0))).ph.phc
  let s1 := updCores s g.cores (fun j k => startCore k r b j step)
  updGang { s1 with links := carryLinks s1.links gi phc } gi (fun g => { g with
    cur := some (b, i), s := s.now, step := step, msgs := [], awaited := participants g r, left := []
    nextRec := none, nextAt := none, arrived := false, slackPosted := false, restored := false, lastPh := r.phnum, lastBuf := b })

/-- A pending save withholds the phase: every core stops as a phase start stops slack code (19:R398). -/
def withhold (s : State) (gi : Nat) : State :=
  let g := getGang s gi
  let s1 := updCores s g.cores (fun _ k =>
    let k := stopSlack k
    { k with main := { k.main with redirs := [] }, run := if k.run = .faulted then .faulted else .stopped })
  updGang s1 gi (fun g => { g with saving := true, nextAt := none })

/-- PHASE_START (15:R312): at the tick that Clove, or the end of a wait, gave. -/
def execPhaseStart (s : State) : Host.Outcome State Fault Refusal :=
  let gi := s.ev.i
  let g := getGang s gi
  .next (match g.nextRec, g.nextAt with
    | some (b, i), some t =>
      if s.now < t ∨ !g.live ∨ !g.running ∨ g.ending.isSome then s
      else if g.save.isSome ∧ !g.ens then withhold s gi
      else match (bufOf g b)[i]? with
        | some r => startPhase s gi b i r
        | none => s
    | _, _ => s)

/-- MISSED_SIGNOFF (15:R305): a core that reaches phase cycle LENGTH without its SIGNOFF traps before the bundle due there. -/
def execMissedSignoff (s : State) : Host.Outcome State Fault Refusal :=
  let c := s.ev.core
  let k := s.core c
  .next (
    if k.ph.inph ∧ !k.ph.signed ∧ k.ph.length ≤ k.ph.phc ∧ !k.tp.active ∧ k.run = .running then
      takeTrap (s.upd c (fun k => { k with clk := { k.clk with due := false } })) c 0x01 0 15 false []
    else s)

/-! ### Slack windows (15:R313) -/

/-- The root has not formed A, or the gang waits for its successor or for a save. -/
def late (g : Gang) : Bool := g.live && g.ending.isNone && (!g.arrived || gangWaits g || g.saving)

/-- The SLACK record: ITEM the phase number, COUNT the start. -/
def slackRecord (s : State) (g : Gang) (status detail : Nat) : State :=
  postRecord s g.part (mkRecord 8 status g.part 0 (recSource s (vmRef (g.cores.headD 0))) g.taskid g.lastPh (g.s - s.dccBase) detail)

/-- SLACK_OVERRUN: past the bound, a record; the gang keeps waiting. -/
def execSlackOverrun (s : State) : Host.Outcome State Fault Refusal :=
  let g := getGang s s.ev.i
  .next (match runRec g with
    | none => s
    | some r =>
      if !late g ∨ g.slackPosted ∨ s.now < g.s + lengthTicks g r + r.slack then s
      else if !evRoom s g.part 1 then evSetFull s g.part
      else updGang (slackRecord s g 0 1) s.ev.i (fun g => { g with slackPosted := true }))

/-- SLACK_HARD_LIMIT: past 1,000 times the bound, the task fails with status 5. -/
def execSlackHardLimit (s : State) : Host.Outcome State Fault Refusal :=
  let g := getGang s s.ev.i
  .next (match runRec g with
    | none => s
    | some r =>
      if !late g ∨ s.now < g.s + lengthTicks g r + 1000 * r.slack then s
      else if !evRoom s g.part 1 then evSetFull s g.part
      else endTask (slackRecord s g 5 2) s.ev.i 5 0)

/-! ### Mace (15:R315) -/

/-- MACE_WINDOW: a core's counts begin again at every 1,024th cycle. -/
def execMaceWindow (s : State) : Host.Outcome State Fault Refusal :=
  .next (s.upd s.ev.core (fun k =>
    if k.ph.phc % 1024 = 0 ∧ k.clk.due then { k with ph := { k.ph with mCount := 0, vCount := 0 } } else k))

/-! ### The chip (15:R296, R313, R318, R319, 18:R376) -/

/-- ALIGNMENT_LOST (15:R296). -/
def execAlignmentLost (s : State) : Host.Outcome State Fault Refusal := .next { s with alignLost := true }

/-- THERMAL_LIMIT_REACHED (15:R318): the controller will ask for step ev.i and a stretch of ev.j. -/
def execThermalLimitReached (s : State) : Host.Outcome State Fault Refusal :=
  .next { s with stepReq := min s.ev.i 4, cool := min s.ev.j 255 }

/-- The running phase of a gang fails for an over-current: at once on this package, and at its boundary in an ensemble, whose root hears of
it in place of this chip's messages (15:R319). -/
def thermalFail (s : State) (gi : Nat) : State :=
  let g := getGang s gi
  if !g.live || g.cur.isNone then s
  else if g.ens then
    sendSig (updGang s gi (fun g => { g with awaited := (4, 0) :: g.awaited.filter (fun x => x.1 = 3) })) gi
      { who := 4, idx := 0, p := none, step := 0, cool := 0, err := true, replay := false, due := s.now, thermal := true }
  else endTask s gi 7 0

/-- THERMAL_STOP (15:R319, 18:R376): core clocks stop, running phases fail with status 7, and every core's index reads 255. -/
def execThermalStop (s : State) : Host.Outcome State Fault Refusal :=
  let s1 := (List.range s.gangs.length).foldl thermalFail s
  .next { s1 with parts := s1.parts.map (fun p => if p.formed then { p with thermal := true } else p)
                  vms := s1.vms.map (fun k => { k with thermal := 255 }) }

/-- THERMAL_INDEX_UPDATE (18:R376): the controller sets the index of core ev.core. -/
def execThermalIndexUpdate (s : State) : Host.Outcome State Fault Refusal :=
  .next (s.upd s.ev.core (fun k =>
    let stopped : Bool := match k.part with | some p => (getPart s p).thermal | none => false
    { k with thermal := if stopped then 255 else BitVec.ofNat 8 (min s.ev.i 255) }))

/-- HBM_REFRESH (15:R313): bank ev.i is in refresh for ev.j ticks. -/
def execHbmRefresh (s : State) : Host.Outcome State Fault Refusal :=
  .next { s with refresh := s.refresh.filter (fun x => s.now < x.2 && x.1 ≠ s.ev.i) ++ [(s.ev.i, s.now + s.ev.j)] }

end Sys2Proof.Machine
end

