-- ==== Sys2Proof/Machine/CtxArea.lean ====
section
/-!
DEFINITION. The context area of a saved gang (19:R399): its header and the block of one gang position, as written and as read
back, and writing bytes by virtual address.
-/

namespace Sys2Proof.Machine

/-! ### Writing by virtual address -/

/-- Every page of a range may be written. -/
def vwritable (s : State) (p va n : Nat) : Bool :=
  (pageParts va n).all (fun x => match xlateWalk s p x.1 false true with
    | .ok _ _ => true
    | .fault _ => false)

/-- Write bytes whose pages translate. -/
def vput (s : State) (p va : Nat) (bs : List W8) : State :=
  (pageParts va bs.length).foldl (fun s x => match xlateWalk s p x.1 false true with
    | .ok pa _ => (sysWrite s pa (byteSlice bs (x.1 - va) x.2)).2
    | .fault _ => s) s

/-- Zero n bytes of system memory; the watch slots on them fire. -/
def zeroSys (s : State) (pa n : Nat) : State :=
  let hit (g : Nat) : Bool := decide (pa ≤ 64 * g ∧ 64 * g < pa + n)
  let s1 := { s with
    sys := s.sys.filter (fun x => !decide (pa ≤ x.1 ∧ x.1 < pa + n)), syspoison := s.syspoison.filter (fun g => !hit g)
    syscerr := s.syscerr.filter (fun g => !hit g), sysuerr := s.sysuerr.filter (fun g => !hit g) }
  let gs := (s.ccs.flatMap (fun k => k.ctl.watch.filterMap (fun w => w.map (·.1)))).eraseDups
  (gs.filter hit).foldl watchHit s1

/-- Zero n bytes at a virtual address. -/
def vzero (s : State) (p va n : Nat) : State :=
  (pageParts va n).foldl (fun s x => match xlateWalk s p x.1 false true with
    | .ok pa _ => zeroSys s pa x.2
    | .fault _ => s) s

/-- Poison the granule of system memory at a virtual address. -/
def vpoison (s : State) (p va : Nat) : State :=
  match xlateWalk s p va false true with
  | .ok pa _ => sysPoison s (pa / 64)
  | .fault _ => s

/-! ### A block (19:R399) -/

/-- Bytes of a block: 512 KiB, or 8,704 KiB with the vault. -/
def blockSize (vaults : Bool) : Nat := if vaults then 8704 * 1024 else 512 * 1024

/-- Where block g begins. -/
def blockAt (vaults : Bool) (g : Nat) : Nat := 0x10000 + g * blockSize vaults

def w64s (l : List W64) : List W8 := l.flatMap (fun v => natBytes 8 v.toNat)

/-- The code of a latch's source, as QBIND a[7:0] gives it. -/
def sourceCode (q : Option QSrc) : Nat :=
  match q with
  | none => 0xFF
  | some (.chan c) => c
  | some (.rq i) => 0x20 + i
  | some .evq => 0x40

def lanes512 (l : Lanes) : List W8 := (mkLanes (lane l)).flatMap word32Bytes

def planeBytes (p : Plane) (base : Nat) : List (Nat × List W8) :=
  [(base, p.tile.flatten), (base + 0x10000, p.side.flatten), (base + 0x10800, p.nibs.flatten),
   (base + 0x18800, natBytes 1 p.typ.toNat ++ natBytes 1 p.spn.toNat ++ natBytes 1 (if p.valid then 1 else 0)
     ++ natBytes 1 (if p.taint then 1 else 0))]

/-- An armed threshold in its 16 bytes. -/
def armedBytes (a : Armed) : List W8 := natBytes 8 a.b ++ natBytes 4 (a.tag.toNat + a.ctr * 2 ^ 24 + 2 ^ 31) ++ natBytes 4 0

/-- A receive slot in its 16 bytes. -/
def slotBytes (r : RxSlot) : List W8 :=
  natBytes 2 r.id ++ natBytes 4 r.expected ++ natBytes 4 r.counted
    ++ natBytes 1 (flagAt r.ready 0 + flagAt r.armed 1 + flagAt r.pois 2 + flagAt r.excess 3) ++ natBytes 5 0

/-- What is written of one core: offsets in its block, and bytes. The rest of the block is 0. -/
def saveBlock (k : Core) (vaults : Bool) : List (Nat × List W8) :=
  let x := k.main
  let e := k.eng
  let m := k.mx
  [(0, w64s (x.s ++ k.k ++ x.m ++ x.n ++ k.mp)),
   (0x2C0, natBytes 8 x.fmt.toNat ++ natBytes 1 x.clmask.toNat ++ natBytes 1 (x.sel1 ++ x.sel0).toNat ++ natBytes 1 (x.g ||| 1).toNat
     ++ natBytes 5 0 ++ natBytes 8 x.fflags.toNat ++ natBytes 8 x.istat.toNat ++ natBytes 8 k.tr.tvec.toNat ++ natBytes 8 k.tr.tscr.toNat),
   (0x300, (x.xh ++ x.yh).flatMap (fun v => natBytes 16 v.toNat)),
   (0x400, x.ks.flatMap (fun v => natBytes 16 v.1.toNat ++ natBytes 16 v.2.toNat)),
   (0x480, (e.tl.take 8).flatMap (fun t => natBytes 8 t.val ++ natBytes 8 (t.next + 1))),
   (0x500, natBytes 8 e.err.toNat ++ x.q.flatMap (fun q => natBytes 1 (sourceCode q)) ++ natBytes 2 (e.tl7.getD 0xFFFF)),
   (0x540, e.armed.flatMap armedBytes)]
  ++ (List.range 4).map (fun w =>
    let y := e.wins.getD w {}
    (0x640 + 128 * w, byteSlice y.descr 0 64 ++ natBytes 8 y.head ++ natBytes 1 (flagAt y.opn 0 + flagAt (e.err.getLsbD w) 1)))
  ++ [(0x840, e.rx.flatMap slotBytes), (0xC40, e.rqs.flatMap (fun q => natBytes 1 q.length))]
  ++ (List.range 4).map (fun i => (0x1000 + 512 * i, w64s (e.rqs.getD i [])))
  ++ [(0x1800, (m.rowscale ++ m.colscale ++ m.bias).flatMap word32Bytes ++ natBytes 8 m.epicfg.toNat
        ++ natBytes 8 (arrayStatus m).toNat ++ natBytes 32 m.rtaint.toNat),
      (0x2000, (x.x ++ x.y).flatMap lanes512), (0x10000, m.acc.flatMap (fun r => r.flatMap word32Bytes))]
  ++ planeBytes m.act 0x20000 ++ planeBytes m.shd 0x40000
  ++ (if vaults then [(0x80000, memRead k.near.mem 0 0x800000)] else [])

/-- Offsets of the 64-byte granules of a block that a poisoned vault granule poisons. -/
def savePoison (k : Core) (vaults : Bool) : List Nat :=
  if vaults then (k.near.poison.map (fun g => 0x80000 + 64 * (g / 4))).eraseDups else []

/-! ### Reading a block back -/

/-- A field of n bytes at an offset of the block. -/
abbrev Rd := Nat → Nat → List W8

def rdNat (r : Rd) (o n : Nat) : Nat := leNat (r o n)

def rd64 (r : Rd) (o n : Nat) : List W64 := (List.range n).map (fun i => leW64 (r (o + 8 * i) 8))

def rd32 (r : Rd) (o n : Nat) : List W32 := (List.range n).map (fun i => leW32 (r (o + 4 * i) 4))

def rd128 (r : Rd) (o n : Nat) : List W128 := (List.range n).map (fun i => BitVec.ofNat 128 (rdNat r (o + 16 * i) 16))

def rdPlane (r : Rd) (base : Nat) : Plane :=
  let t := rdNat r (base + 0x18800) 1
  let n := rdNat r (base + 0x18801) 1
  let blocks (o k : Nat) : List (List W8) := (List.range k).map (fun b => r (base + o + 512 * b) 512)
  { tile := blocks 0 (tileBlocks t), side := blocks 0x10000 (sideBlocks t), nibs := if n % 4 = 0 then [] else blocks 0x10800 (4 * cellK t)
    typ := BitVec.ofNat 4 t, spn := BitVec.ofNat 2 n, valid := rdNat r (base + 0x18802) 1 % 2 = 1, taint := rdNat r (base + 0x18803) 1 % 2 = 1 }

def rdArmed (r : Rd) (o : Nat) : Option Armed :=
  let w := rdNat r (o + 8) 4
  if bitOf w 31 then some { ctr := w / 2 ^ 24 % 16, b := rdNat r o 8, tag := BitVec.ofNat 24 w } else none

def rdSlot (r : Rd) (o : Nat) : RxSlot :=
  let f := rdNat r (o + 10) 1
  { id := rdNat r o 2, expected := rdNat r (o + 2) 4, counted := rdNat r (o + 6) 4, ready := bitOf f 0, armed := bitOf f 1
    pois := bitOf f 2, excess := bitOf f 3, overPosted := bitOf f 3 }

def rdWin (r : Rd) (o : Nat) : Win :=
  let d := r o 64
  let h := rdNat r (o + 64) 8
  if rdNat r (o + 72) 1 % 2 = 1 then
    match parseWin d with
    | some y => { y with opn := true, head := h }
    | none => {}
  else { descr := d, head := h }

/-- The engines of a restored core. -/
def rdEngines (r : Rd) (e : Engines) : Engines :=
  { e with
    tl := (List.range 8).map (fun i => { val := rdNat r (0x480 + 16 * i) 8, next := rdNat r (0x488 + 16 * i) 8 - 1 })
      ++ List.replicate 8 {}
    err := BitVec.ofNat 16 (rdNat r 0x500 2)
    tl7 := (let g := rdNat r 0x50C 2; if 4096 ≤ g then none else some g)
    armed := (List.range 16).filterMap (fun i => rdArmed r (0x540 + 16 * i))
    wins := (List.range 4).map (fun w => rdWin r (0x640 + 128 * w))
    rx := (List.range 64).map (fun i => rdSlot r (0x840 + 16 * i))
    rqs := (List.range 4).map (fun i => rd64 r (0x1000 + 512 * i) (min 64 (rdNat r (0xC40 + i) 1))) }

/-- The array of a restored core; its microprogram store is its own. -/
def rdMatrix (r : Rd) (m : Matrix) : Matrix :=
  { m with
    rowscale := rd32 r 0x1800 256, colscale := rd32 r 0x1C00 64, bias := rd32 r 0x1D00 64
    epicfg := BitVec.ofNat 8 (rdNat r 0x1E00 1), mflags := BitVec.ofNat 5 (rdNat r 0x1E08 1)
    etaint := bitOf (rdNat r 0x1E08 8) 36, rtaint := BitVec.ofNat 256 (rdNat r 0x1E10 32)
    acc := (List.range 256).map (fun i => rd32 r (0x10000 + 256 * i) 64)
    act := rdPlane r 0x20000, shd := rdPlane r 0x40000 }

/-- The main context of a restored core, its latches unbound. -/
def rdCtx (r : Rd) (x : Ctx) : Ctx :=
  let sel := rdNat r 0x2C9 1
  { x with
    s := rd64 r 0 32, m := rd64 r 0x180 16, n := rd64 r 0x200 16
    fmt := fmtOf (BitVec.ofNat 32 (rdNat r 0x2C0 4)), clmask := BitVec.ofNat 8 (rdNat r 0x2C8 1)
    sel0 := BitVec.ofNat 3 sel, sel1 := BitVec.ofNat 3 (sel / 8), g := BitVec.ofNat 8 (rdNat r 0x2CA 1) ||| 1
    fflags := BitVec.ofNat 8 (rdNat r 0x2D0 1), istat := BitVec.ofNat 2 (rdNat r 0x2D8 1)
    xh := rd128 r 0x300 8, yh := rd128 r 0x380 8
    ks := (List.range 4).map (fun i => ((rd128 r (0x400 + 32 * i) 2).getD 0 0, (rd128 r (0x400 + 32 * i) 2).getD 1 0))
    x := (List.range 32).map (fun i => rd32 r (0x2000 + 512 * i) 128)
    y := (List.range 32).map (fun i => rd32 r (0x6000 + 512 * i) 128) }

/-- Everything of a block but the bindings and the vault. -/
def rdCore (r : Rd) (k : Core) : Core :=
  { k with
    main := rdCtx r k.main, k := rd64 r 0x100 16, mp := rd64 r 0x280 8
    tr := { k.tr with tvec := leW64 (r 0x2E0 8), tscr := leW64 (r 0x2E8 8) }
    eng := rdEngines r k.eng, mx := rdMatrix r k.mx }

/-- A memory from its bytes. -/
def memOf (bs : List W8) : List Host.Cell := (bs.zip (List.range bs.length)).filterMap (fun x => if x.1 = unlisted then none else some (x.2, x.1))

/-! ### The header (19:R399) -/

/-- The header of a saved gang, VALID set. -/
def saveHeader (s : State) (g : Gang) (vaults : Bool) (b : Bool) (i : Nat) (seed args code codelen : Nat) : List W8 :=
  natBytes 1 1 ++ natBytes 1 (flagAt vaults 0 + 2) ++ natBytes 1 (g.cores.length - 1) ++ natBytes 1 (if b then 1 else 0) ++ natBytes 1 i
    ++ natBytes 1 g.agreed ++ natBytes 1 (flagAt g.bufA.isSome 0 + flagAt g.bufB.isSome 1)
    ++ natBytes 1 ((g.bufA.getD []).length - 1) ++ natBytes 1 ((g.bufB.getD []).length - 1) ++ natBytes 7 0
    ++ natBytes 4 g.taskid ++ natBytes 4 g.index ++ natBytes 8 seed ++ natBytes 8 args ++ natBytes 8 code ++ natBytes 4 codelen
    ++ natBytes 4 0 ++ natBytes 8 (dcc s)

/-- Bytes of an area for n positions. -/
def areaSize (vaults : Bool) (n : Nat) : Nat := blockAt vaults n

end Sys2Proof.Machine
end

