-- ==== Sys2Proof/Machine/Launch.lean ====
section
/-!
DEFINITION. Launches and the placing of gangs (18:R363 to R378): LAUNCH, the indirect count, admission, the start of a task, and
the two limits on waiting. An event that concerns a launch names its place in the list of launches by ev.i, one that concerns
a gang the gang.
-/

namespace Sys2Proof.Machine

/-! ### The task record (18:R363, R367) -/

/-- A bit of FLAGS. -/
def recFlag (r : List W8) (i : Nat) : Bool := bitOf (fieldAt r 1 1) i

/-- The smallest D that a gang of n cores allows (18:R367). -/
def minGap (ens : Bool) (n : Nat) : Nat := if ens then 2456 else if n ≤ 64 then 64 else 128

/-- Status 1 of a record's contents. -/
def badTask (r : List W8) : Bool :=
  let f := fieldAt r 1 1
  let len := fieldAt r 8 4
  fieldAt r 0 1 ≠ 1 || 64 ≤ f || f % 4 = 0 || f % 4 = 3 || 4 ≤ fieldAt r 2 1 || 128 ≤ fieldAt r 3 1
    || (!bitOf f 3 && fieldAt r 4 4 = 0) || (bitOf f 4 && !bitOf f 3)
    || len % 4 ≠ 0 || len < 4 || 2 ^ 20 < len || fieldAt r 12 4 % 4 ≠ 0 || len ≤ fieldAt r 12 4
    || fieldAt r 16 8 % 64 ≠ 0 || fieldAt r 33 1 ≠ 0 || 2 ^ 10 ≤ fieldAt r 34 2 || 16 ≤ fieldAt r 36 4 || fieldAt r 48 8 % 4 ≠ 0
    || fieldAt r 72 4 < minGap (bitOf f 5) (fieldAt r 3 1 % 128 + 1) || (bitOf f 5 && fieldAt r 80 2 < 2)
    || (List.range 46).any (fun i => r.getD (82 + i) 0 ≠ 0)

/-! ### A launch's own values: from its record, or from the header of its area (19:R400) -/

def Launch.gsize (l : Launch) : Nat := (if l.area.isSome then fieldAt l.hdr 2 1 else fieldAt l.rcd 3 1) % 128 + 1

def Launch.flag (l : Launch) (i : Nat) : Bool := l.area.isNone && recFlag l.rcd i

def Launch.seed (l : Launch) : Nat := if l.area.isSome then fieldAt l.hdr 0x18 8 else fieldAt l.rcd 64 8

def Launch.args (l : Launch) : Nat := if l.area.isSome then fieldAt l.hdr 0x20 8 else fieldAt l.rcd 56 8

def Launch.code (l : Launch) : Nat := if l.area.isSome then fieldAt l.hdr 0x28 8 else fieldAt l.rcd 16 8

def Launch.codelen (l : Launch) : Nat := if l.area.isSome then fieldAt l.hdr 0x30 4 else fieldAt l.rcd 8 4

/-- The index of the task to place next. -/
def Launch.index (l : Launch) : Nat := if l.area.isSome then fieldAt l.hdr 0x14 4 else l.nextIx

/-- The task has phases. -/
def Launch.phased (l : Launch) : Bool := l.area.isSome || fieldAt l.rcd 24 8 ≠ 0

def Launch.vaults (l : Launch) : Bool := l.area.isSome && fieldAt l.hdr 1 1 % 2 = 1

def getLaunch (s : State) (id : Nat) : Option Launch := s.launches.find? (fun l => l.id = id)

def updLaunch (s : State) (id : Nat) (f : Launch → Launch) : State :=
  { s with launches := s.launches.map (fun l => if l.id = id then f l else l) }

/-! ### What a partition has -/

/-- Its vector-matrix cores, in ascending order. -/
def partCores (s : State) (p : Nat) : List Nat := (List.range s.vms.length).filter (fun n => (s.core (vmRef n)).part = some p)

/-- Its phase-table stores: die and number. -/
def partStores (s : State) (p : Nat) : List (Nat × Nat) :=
  ((List.range 32).filter (fun i => (getPart s p).stores.getLsbD i)).map (fun i => (i / 16, i % 16))

/-- Those of a die that no gang holds. -/
def freeStores (s : State) (p die : Nat) : List (Nat × Nat) :=
  (partStores s p).filter (fun x => x.1 = die && s.gangs.all (fun g => !g.live || g.part ≠ p || !g.stores.contains x))

def freeCores (s : State) (p : Nat) : List Nat := (partCores s p).filter (fun n => (s.core (vmRef n)).ph.gang.isNone)

/-! ### Identifiers (18:R369) -/

/-- The identifier i after a; the sequence goes from 0xFFFFFFFF to 1. -/
def tidAt (a i : Nat) : Nat := (a - 1 + i) % (2 ^ 32 - 1) + 1

/-- Low halves of the identifiers of tasks lo to hi − 1 of a launch. -/
def lowTids (a lo hi : Nat) : List Nat := (List.range (hi - lo)).map (fun i => tidAt a (lo + i) % 65536)

/-- Low halves of the identifiers of queued and running tasks of a partition, but for the queued tasks of one launch. -/
def activeLows (s : State) (p : Nat) (but : Option Nat) : List Nat :=
  (s.launches.filter (fun l => l.part = p && l.queued && some l.id ≠ but)).flatMap (fun l =>
      match l.g with
      | none => [l.task0 % 65536]
      | some n => lowTids l.task0 l.nextIx n)
    ++ (s.gangs.filter (fun g => g.live && g.part = p)).map (fun g => g.taskid % 65536)

/-- Some of n identifiers from a on would share its low half with another task. -/
def tidClash (s : State) (p a n : Nat) (but : Option Nat) : Bool :=
  65536 < n || (let l := lowTids a 0 n
    repeats l || l.any (fun x => (activeLows s p but).contains x))

/-! ### LAUNCH (18:R366, R367) -/

def execLaunch (d : BitVec 5) (a b : BitVec 6) (g : BitVec 3) (n : BitVec 1) (s : State) : Host.Outcome State Fault Refusal :=
  .next (guarded s g n [a, b] (fun s' => startStall s' { kind := .launch, a := srcS s a, b := srcS s b, dst := dstS s d.toNat
                                                         k := if (cx s).fmt.getLsbD 19 then 1 else 0 }))

/-- Statuses 3, 4 and 5, for a launch that checks n identifiers. -/
def placeStatus (s : State) (p gsize : Nat) (phased ens : Bool) (n : Nat) : Nat :=
  let two (die : Nat) : Bool := decide (2 ≤ (partStores s p).countP (fun x => x.1 = die))
  if (partCores s p).length < gsize ∨ (phased ∧ !two 0 ∧ !two 1) ∨ (ens ∧ !s.domain) then 3
  else if tidClash s p (getPart s p).nextTask n none then 4
  else if 256 ≤ s.launches.countP (fun l => l.part = p && l.queued) then 5
  else 0

/-- An accepted launch: its entry, `n` identifiers, and its number on the counter that it names. -/
def acceptLaunch (s : State) (c : CoreRef) (ctr : Option Nat) (n : Nat) (l : Launch) : Nat × State :=
  let a := (getPart s l.part).nextTask
  let s1 := updPart s l.part (fun p => { p with nextTask := tidAt a n })
  let r : Option (Nat × Nat) × State := match ctr with
    | none => (none, s1)
    | some i => let t := takeNumber s1 c i; (some (i, t.1), t.2)
  (a, { r.2 with launches := r.2.launches ++ [{ l with id := r.2.launchId, task0 := a, num := r.1 }], launchId := r.2.launchId + 1 })

/-- The counter that NUM and c name. -/
def launchCtr (b : W64) : Option Nat := if b.getLsbD 4 then some (b.extractLsb' 0 4).toNat else none

/-- The checks of a LAUNCH and its effect: status, identifier. -/
def launchRun (s : State) (c : CoreRef) (st : Stall) : Nat × Nat × State :=
  let p := partOf s c
  if st.b.extractLsb' 5 59 ≠ 0 ∨ st.a.toNat % 64 ≠ 0 then (1, 0, s)
  else
    let s := vtouch s p st.a.toNat 128
    match vread s p st.a.toNat 128 with
    | .bytes r =>
      if badTask r then (1, 0, s)
      else
        let ind := recFlag r 3
        let n := if ind then 1 else fieldAt r 4 4
        let e := placeStatus s p (fieldAt r 3 1 % 128 + 1) (fieldAt r 24 8 ≠ 0) (recFlag r 5) n
        if e ≠ 0 then (e, 0, s)
        else
          let l : Launch := { id := 0, part := p, rcd := r, prio := fieldAt r 2 1 % 4, det := recFlag r 2 || st.k = 1, num := none
                              task0 := 0, g := if ind then none else some n, left := if ind then 0 else n }
          let x := acceptLaunch s c (launchCtr st.b) (if ind then 65536 else n) l
          (0, x.1, x.2)
    | _ => (2, 0, s)

/-- The result of LAUNCH and RESTCTX. -/
def launchResult (status tid : Nat) : W64 := BitVec.ofNat 64 (status * 2 ^ 56 + tid)

/-- LAUNCH_DONE (18:R366): once every earlier access of the control core has been performed. ev.j is 1 for the urgent
context. -/
def execLaunchDone (s : State) : Host.Outcome State Fault Refusal :=
  let c := s.ev.core
  let u : Bool := s.ev.j = 1
  .next (match stallOf s c u .launch with
    | none => s
    | some st =>
      if !coreDrained (s.core c) c then s
      else let r := launchRun s c st; finishStall r.2.2 c u st (launchResult r.1 r.2.1))

/-! ### TASK records (18:R372) -/

/-- Records that a launch's completion would post. -/
def launchFires (s : State) (l : Launch) : Nat :=
  if l.left ≤ 1 then match l.num with
    | some (i, n) => tlFires s ⟨true, l.part⟩ i n
    | none => 0
  else 0

/-- One task of a launch is reported; with the last one the launch completes. It waits for room (14:R286); the Bool says that it
has been reported. -/
def reportTask (s : State) (l : Launch) (status tid item detail : Nat) : Bool × State :=
  let p := l.part
  if !evRoom s p (1 + launchFires s l) then (false, evSetFull s p)
  else
    let n := l.num.getD (0, 0)
    let s1 := postRecord s p (mkRecord 4 status p n.1 (recSource s ⟨true, p⟩) tid item n.2 detail)
    if 1 < l.left then (true, updLaunch s1 l.id (fun l => { l with left := l.left - 1 }))
    else
      let s2 := { s1 with launches := s1.launches.filter (fun x => x.id ≠ l.id) }
      (true, match l.num with
        | some (i, n) => tlComplete s2 ⟨true, p⟩ i n
        | none => s2)

/-- The queue of a partition: by priority, then in order of launching (18:R373). -/
def queueOf (s : State) (p : Nat) : List Launch :=
  [0, 1, 2, 3].flatMap (fun q => s.launches.filter (fun l => l.part = p && l.queued && l.prio = q))

/-- The count of an indirect launch may be read now (18:R368). -/
def countReady (s : State) (l : Launch) : Bool :=
  l.queued && l.g.isNone &&
    (if l.flag 4 then fieldAt l.rcd 40 8 ≤ counterValue s ⟨true, l.part⟩ (fieldAt l.rcd 36 4 % 16)
     else ((queueOf s l.part).find? (fun x => x.prio = l.prio)).map (·.id) = some l.id)

/-- A launch that produces no task. -/
def emptyLaunch (s : State) (l : Launch) (status detail : Nat) : State :=
  (reportTask s { l with left := 1 } status l.task0 0xFFFFFFFF detail).2

/-- INDIRECT_COUNT_READ (18:R368, R369). -/
def execIndirectCountRead (s : State) : Host.Outcome State Fault Refusal :=
  .next (match s.launches[s.ev.i]? with
    | none => s
    | some l =>
      if !countReady s l then s
      else
        let s := vtouch s l.part (fieldAt l.rcd 48 8) 4
        match vread s l.part (fieldAt l.rcd 48 8) 4 with
        | .fault _ _ => emptyLaunch s l 2 0
        | .poison _ => emptyLaunch s l 1 0
        | .bytes bs =>
          let n := leNat bs
          if n = 0 then emptyLaunch s l 0 0
          else if tidClash s l.part l.task0 n (some l.id) then emptyLaunch s l 2 (4 * 2 ^ 16)
          else updLaunch s l.id (fun l => { l with g := some n, left := n }))

/-! ### Where a task may go (18:R373 to R377, 10:R197) -/

/-- Insert a core by thermal index and number. -/
def insRank (s : State) (n : Nat) : List Nat → List Nat
  | [] => [n]
  | x :: t =>
    let a := (s.core (vmRef n)).thermal.toNat
    let b := (s.core (vmRef x)).thermal.toNat
    if a < b ∨ (a = b ∧ n < x) then n :: x :: t else x :: insRank s n t

/-- Free cores in ascending order of their indices. -/
def ranked (s : State) (p : Nat) : List Nat := (freeCores s p).foldl (fun l n => insRank s n l) []

/-- Gang positions are in ascending core order. -/
def sortNat (l : List Nat) : List Nat := l.foldl (fun a n => insNat n a) []

/-- The candidate sets of throughput mode. -/
def candidates (s : State) (p g : Nat) : List (List Nat) :=
  let r := ranked s p
  let die (d : Nat) : List Nat := r.filter (fun n => n / 64 = d)
  let top (l : List Nat) : Nat := (l.map (fun n => (s.core (vmRef n)).thermal.toNat)).foldl max 0
  let a := (die 0).take g
  let b := (die 1).take g
  let sets := (if a.length = g then [a] else []) ++ (if b.length = g then [b] else [])
  if sets = [] then (if g ≤ r.length then [sortNat (r.take g)] else [])
  else (if sets.length = 2 ∧ top b < top a then [b, a] else sets).map sortNat

/-- The placement that deterministic mode draws for a task. -/
def drawn (s : State) (p g seed i : Nat) : List Nat :=
  let cs := partCores s p
  let q := (streamF (BitVec.ofNat 128 seed) (BitVec.ofNat 128 i)).toNat % 2 ^ 64 % (cs.length / g)
  (cs.drop (q * g)).take g

/-- Rows and columns that the cores of a gang span on a die. -/
def spanOf (cores : List Nat) (die : Nat) : Option (Nat × Nat × Nat × Nat) :=
  match cores.filter (fun n => n / 64 = die) with
  | [] => none
  | c :: t => some ((c :: t).foldl (fun r n => (min r.1 (meshRow n), max r.2.1 (meshRow n), min r.2.2.1 (meshCol n), max r.2.2.2 (meshCol n)))
      (meshRow c, meshRow c, meshCol c, meshCol c))

/-- No router of a die lies in the rectangles of both gangs. -/
def apart (a b : List Nat) (die : Nat) : Bool :=
  match spanOf a die, spanOf b die with
  | some x, some y => decide (x.2.1 < y.1 ∨ y.2.1 < x.1 ∨ x.2.2.2 < y.2.2.1 ∨ y.2.2.2 < x.2.2.1)
  | _, _ => true

def lateralRecs (l : List PhRec) : Bool := l.any (·.lateral)

def lateralFits (s : State) (cores : List Nat) : Bool :=
  s.gangs.all (fun g => !g.live || !(lateralRecs (g.bufA.getD []) || lateralRecs (g.bufB.getD []))
    || (apart cores g.cores 0 && apart cores g.cores 1))

/-! ### What admission loads (18:R370, 19:R400) -/

/-- A failure of admission: status, and DETAIL[23:16]. -/
abbrev AdmErr := Option (Nat × Nat)

/-- Status of a read through the tables: 2 a fault, 1 poison, 0 none. -/
def readStatus (s : State) (p va n : Nat) : Nat :=
  (pageParts va n).foldl (fun e x => if e ≠ 0 then e else
    match xlateWalk s p x.1 true false with
    | .fault _ => 2
    | .ok pa _ => if (s.syspoison ++ s.sysuerr).any (fun g => pa < 64 * (g + 1) && 64 * g < pa + x.2) then 1 else 0) 0

/-- Bytes through the tables, whatever their poison; what does not translate reads 0. -/
def vbytes (s : State) (p va n : Nat) : List W8 :=
  (pageParts va n).flatMap (fun x => match xlateWalk s p x.1 true false with
    | .ok pa _ => sysRead s pa x.2
    | .fault _ => List.replicate x.2 0)

/-- A buffer of a saved gang. -/
def savedBuf (s : State) (l : Launch) (a : Nat) (buf : Bool) : List Nat × AdmErr × Option (List PhRec) :=
  if !bitOf (fieldAt l.hdr 6 1) (if buf then 1 else 0) then ([], none, none)
  else
    let n := fieldAt l.hdr (if buf then 8 else 7) 1 + 1
    let va := a + (if buf then 0x5000 else 0x1000)
    let e := readStatus s l.part va (64 * n)
    if e ≠ 0 then ([], some (e, 0), none)
    else
      let t := loadImage s l.part l.gsize l.codelen buf n (vbytes s l.part va (64 * n))
      (t.errs, none, some t.val)

/-- Both buffers of the task to place: statuses of 15:R303, a failure to read, the records. -/
def admBuffers (s : State) (l : Launch) : List Nat × AdmErr × Option (List PhRec) × Option (List PhRec) :=
  match l.area with
  | some a =>
    let x := savedBuf s l a false
    let y := savedBuf s l a true
    (x.1 ++ y.1, (match x.2.1 with | some e => some e | none => y.2.1), x.2.2, y.2.2)
  | none =>
    if !l.phased then ([], none, none, none)
    else
      let t := loadTable s l.part l.gsize l.codelen false (fieldAt l.rcd 24 8) (fieldAt l.rcd 32 1 + 1)
      (t.errs, none, some t.val, none)

/-- The first failure among the code image and, for a saved gang, the blocks. A poisoned granule of a vault image does not fail
the task: it makes the vault's granules poisoned again. -/
def admReads (s : State) (l : Launch) : AdmErr :=
  let code := readStatus s l.part l.code l.codelen
  if code ≠ 0 then some (code, 0)
  else match l.area with
    | none => none
    | some a =>
      let e := (List.range l.gsize).foldl (fun e g => if e ≠ 0 then e else
        let va := a + blockAt l.vaults g
        let e1 := readStatus s l.part va 0x80000
        if e1 ≠ 0 ∨ !l.vaults then e1 else if readStatus s l.part (va + 0x80000) 0x800000 = 2 then 2 else 0) 0
      if e = 0 then none else some (e, 0)

/-- What admission reads in memory meets its errors (11:R233). -/
def admTouch (s : State) (l : Launch) : State :=
  let s1 := match l.area with
    | some a =>
      let bufs := [false, true].filter (fun b => bitOf (fieldAt l.hdr 6 1) (if b then 1 else 0))
      let s1 := bufs.foldl (fun s b => tableTouch s l.part l.gsize (a + (if b then 0x5000 else 0x1000)) (fieldAt l.hdr (if b then 8 else 7) 1 + 1)) s
      touchAll s1 l.part ((List.range l.gsize).map (fun g => (a + blockAt l.vaults g, if l.vaults then 0x880000 else 0x80000)))
    | none => if l.phased then tableTouch s l.part l.gsize (fieldAt l.rcd 24 8) (fieldAt l.rcd 32 1 + 1) else s
  touchAll s1 l.part [(l.code, l.codelen)]

/-! ### Forming a gang (18:R365, R370) -/

/-- A core as a task finds it. Its vault, its microprogram store, its memberships and its micro-TLBs persist. -/
def taskCore (k : Core) (ph : CorePh) (code : List W8) : Core :=
  { k with
    main := {}, urg := {}, k := List.replicate 16 0, mp := List.replicate 8 0, tr := {}, tp := {}, clk := {}, ph := ph, run := .stopped
    near := { k.near with claims := [], accs := [] }
    eng := { utlb := k.eng.utlb, members := k.eng.members }
    mx := { ucode := k.mx.ucode, udir := k.mx.udir }
    istore := memOf code, codelen := code.length, lastClaim := 0, loads := [] }

/-- The launch block of a core. -/
def launchBlock (l : Launch) (tid gpos : Nat) : List W8 :=
  natBytes 4 tid ++ natBytes 4 l.index ++ natBytes 4 (l.g.getD 1) ++ natBytes 1 gpos ++ natBytes 1 (l.gsize - 1) ++ natBytes 2 0
    ++ natBytes 8 l.args ++ natBytes 8 l.seed ++ natBytes 32 0

/-- Bind the latches of a restored core where QBIND would. -/
def rebind (s : State) (c : CoreRef) (codes : List W8) : State :=
  (codes.zip (List.range 4)).foldl (fun s x =>
    match bindSource false x.1 with
    | some (some q) =>
      if mayBind { s with cur := { s.cur with core := c } } q ∧ !boundElsewhere { s with cur := { s.cur with core := c } } q then
        s.upd c (fun k => { k with main := { k.main with q := k.main.q.set x.2 (some q) } })
      else s
    | _ => s) s

/-- Write a saved block to a core. -/
def restoreCore (s : State) (l : Launch) (a g : Nat) (c : CoreRef) : State :=
  let va := a + blockAt l.vaults g
  let r : Rd := fun o n => vbytes s l.part (va + o) n
  let s1 := s.upd c (fun k => rdCore r { k with eng := { k.eng with members := [] } })
  let pois := ((List.range 0x20000).filter (fun i => readStatus s l.part (va + 0x80000 + 64 * i) 64 = 1)).flatMap (fun i =>
    [4 * i, 4 * i + 1, 4 * i + 2, 4 * i + 3])
  let s2 := if !l.vaults then s1 else s1.upd c (fun k => { k with near := { k.near with
    mem := memOf (vbytes s l.part (va + 0x80000) 0x800000), poison := pois, cerr := [], uerr := [] } })
  syncTl7 (rebind s2 c (r 0x508 4)) c

/-- One core of a gang: reset, restored where it was saved, and its launch block last. -/
def prepCore (s : State) (l : Launch) (tid gi gpos : Nat) (code : List W8) (c : CoreRef) : State :=
  let w := if l.area.isSome then 0 else fieldAt l.rcd 34 2
  let ph : CorePh := { prof := if l.area.isSome then 2 else fieldAt l.rcd 1 1 % 4, gpos := gpos, gsize := l.gsize - 1, gang := some gi
                       grantM := w % 32, grantV := w / 32 % 32 }
  let s1 := s.upd c (fun k => taskCore k ph code)
  let s2 := match l.area with
    | some a => restoreCore s1 l a gpos c
    | none => s1
  engWrite s2 c 0x7FFFC0 (launchBlock l tid gpos)

/-- Form the gang of the next task of a launch. -/
def formGang (s : State) (l : Launch) (cores : List Nat) (bufs : Option (List PhRec) × Option (List PhRec)) : State :=
  let gi := s.gangs.length
  let tid := tidAt l.task0 l.nextIx
  let die := cores.headD 0 / 64
  let code := vbytes s l.part l.code l.codelen
  let g : Gang := {
    part := l.part, taskid := tid, index := l.index, launch := l.id, cores := cores
    stores := if l.phased then (freeStores s l.part die).take 2 else []
    bufA := bufs.1, bufB := bufs.2, resv := max (bufCharge (bufs.1.getD [])) (bufCharge (bufs.2.getD []))
    d := if l.flag 5 then 2 * classTicks (Config.ensembleClass (fieldAt l.rcd 76 4)) + 256 else if spans cores then 128 else 64
    startT := s.now, ens := l.flag 5, ensid := if l.flag 5 then fieldAt l.rcd 76 4 else 0 }
  let s1 := { s with gangs := s.gangs ++ [g]
                     outbox := s.outbox ++ (if g.ens then [.admitted g.part g.ensid g.index (l.g.getD 1) (dcc s)] else [])
                     replies := s.replies.filter (fun r => !(r.1 = s.chip && cores.contains r.2.1)) }
  (cores.zip (List.range cores.length)).foldl (fun s x => prepCore s l tid gi x.2 code (vmRef x.1)) s1

/-! ### Admission (18:R370, R375, R377) -/

/-- What a placement decision comes to for one task. -/
inductive Decision where
  | wait
  | fail (status byte : Nat)
  | place (cores : List Nat)
deriving DecidableEq, Repr

/-- A candidate set that is free and meets 18:R373. -/
def candOk (s : State) (l : Launch) (lat : Bool) (cores : List Nat) : Bool :=
  cores.all (fun n => (freeCores s l.part).contains n) && (!l.phased || decide (2 ≤ (freeStores s l.part (cores.headD 0 / 64)).length))
    && (!lat || lateralFits s cores)

/-- The decision for the next task of a launch. -/
def decideTask (s : State) (l : Launch) : Decision :=
  let b := admBuffers s l
  let lat := lateralRecs (b.2.2.1.getD []) || lateralRecs (b.2.2.2.getD [])
  let sets := if l.det then [drawn s l.part l.gsize l.seed l.index] else candidates s l.part l.gsize
  match sets.find? (candOk s l lat) with
  | none => .wait
  | some cores =>
    let need := max (bufCharge (b.2.2.1.getD [])) (bufCharge (b.2.2.2.getD []))
    let e := firstStatus (b.1 ++ errIf (powerOf s l.part < need) 5)
    match b.2.1 with
    | some x => .fail x.1 x.2
    | none =>
      if (e = 0 ∨ 5 < e) ∧ powerOf s l.part < otherResv s l.part none + need then .wait
      else if e ≠ 0 then .fail 2 e
      else match admReads s l with
        | some x => .fail x.1 x.2
        | none => .place cores

/-- The next task of a launch has been placed or has failed: its entry is released with its last task. -/
def taskPlaced (s : State) (id : Nat) : State :=
  updLaunch s id (fun l => { l with
    nextIx := l.nextIx + 1, queued := decide (l.nextIx + 1 < l.g.getD 0), waitSince := none, noBackfill := false })

/-- The task's decision carried out. -/
def carryOut (s : State) (l : Launch) : Decision → State
  | .wait => s
  | .fail status byte =>
    let r := reportTask (admTouch s l) l status (tidAt l.task0 l.nextIx) l.index (byte * 2 ^ 16)
    if r.1 then taskPlaced r.2 l.id else r.2
  | .place cores =>
    let b := admBuffers s l
    taskPlaced (formGang (admTouch s l) l cores (b.2.2.1, b.2.2.2)) l.id

/-- Backfill: the first later task in throughput mode that may be placed. A launch whose count has still to be read holds no task (entry 58)
and is passed over, as one in deterministic mode is. -/
def backfill (s : State) : List Launch → State
  | [] => s
  | l :: t =>
    if l.g.isNone ∨ l.det then backfill s t
    else match decideTask s l with
      | .wait => backfill s t
      | d => carryOut s l d

/-- A DISSOLVE of a partition is under way: its tasks are aborted and none is admitted (20:R404). -/
def dissolving (s : State) (p : Nat) : Bool := s.svc.busy && s.svc.code.toNat = 2 && s.svc.part.toNat = p && s.svc.done.isNone

/-- TASK_ADMISSION (18:R370, R373): one placement decision of partition ev.i. -/
def execTaskAdmission (s : State) : Host.Outcome State Fault Refusal :=
  .next (match (if dissolving s s.ev.i then [] else queueOf s s.ev.i) with
    | [] => s
    | l :: t =>
      if l.g.isNone then (if l.det ∨ l.noBackfill then s else backfill s t)
      else match decideTask s l with
        | .wait =>
          let s1 := updLaunch s l.id (fun l => { l with waitSince := some (l.waitSince.getD s.now) })
          if l.det ∨ l.noBackfill then s1 else backfill s1 t
        | d => carryOut s l d)

/-- BACKFILL_CUTOFF (18:R375): the head task has waited 64 microseconds. -/
def execBackfillCutoff (s : State) : Host.Outcome State Fault Refusal :=
  .next (match s.launches[s.ev.i]? with
    | none => s
    | some l => match l.waitSince with
      | none => s
      | some t => if t + 172800 ≤ s.now then updLaunch s l.id (fun l => { l with noBackfill := true }) else s)

/-! ### The start of a task (18:R370, R371, R378) -/

/-- The clock of a core of a gang counts from T (06:R127). -/
def beginClock (k : Core) : Core :=
  { k with clk := { k.clk with cyc := 0, arch := 0, acc := 0, due := true, arr := 2 }, ph := { k.ph with phc := 0 }
           near := { k.near with used := 0 } }

/-- A core begins the free-running code of its task. -/
def beginTask (k : Core) (entry : Nat) : Core :=
  let k := beginClock k
  { k with run := .running, main := { k.main with pc := BitVec.ofNat 64 entry, next := 0 } }

/-- The admissions of partner launches of a gang of an ensemble: group count and tick (18:R378). -/
def partnersOf (s : State) (g : Gang) : List (Nat × Nat) :=
  (s.notices.filter (fun x => x.1 = g.part && x.2.1 = g.ensid && x.2.2.1 = g.index)).map (fun x => x.2.2.2)

/-- The start T of a gang of an ensemble, once every partner's admission is known: the latest admission plus D (18:R378). -/
def ensembleStart (s : State) (g : Gang) (l : Launch) : Option Nat :=
  let ps := partnersOf s g
  if ps.length + 1 < fieldAt l.rcd 80 2 ∨ ps.any (fun x => x.1 ≠ l.g.getD 1) then none
  else some ((ps.map (·.2)).foldl max g.startT + g.d)

/-- A gang of an ensemble fails before it starts: group counts differ, or an admission is missing 1,000 × PHDELAY after the first; the
root has heard of every admission in time D later. -/
def ensembleFails (s : State) (g : Gang) (l : Launch) : Bool :=
  let ps := partnersOf s g
  let first := (ps.map (·.2)).foldl min g.startT
  let limit := first + 1000 * fieldAt l.rcd 72 4
  ps.any (fun x => x.1 ≠ l.g.getD 1)
    || decide (limit + g.d ≤ s.now) && decide ((ps.filter (fun x => decide (x.2 ≤ limit))).length + 1 < fieldAt l.rcd 80 2)

/-- TASK_START: gang ev.i starts at this tick T. As an input with bytes it tells that a partner launch of an ensemble has been admitted: the
partition in ev.i, ENSID in ev.j, the task's index and G in the bytes, the DCC of the admission in ev.v. -/
def execTaskStart (s : State) : Host.Outcome State Fault Refusal :=
  let gi := s.ev.i
  let g := getGang s gi
  .next (
    if s.ev.bytes ≠ [] then
      { s with notices := s.notices ++ [(s.ev.i, s.ev.j, fieldAt s.ev.bytes 0 4, fieldAt s.ev.bytes 4 4, s.ev.v.toNat + s.dccBase)] }
    else match getLaunch s g.launch with
    | none => s
    | some l =>
      let early : Bool := g.ens && (match ensembleStart s g l with
        | some t => decide (s.now < t)
        | none => true)
      if !g.live ∨ g.running ∨ g.ending.isSome ∨ early then s
      else
        let s := { s with notices := s.notices.filter (fun x => !(g.ens && x.1 = g.part && x.2.1 = g.ensid && x.2.2.1 = g.index)) }
        match l.area with
        | some _ =>
          let r : Bool × Nat := (bitOf (fieldAt l.hdr 3 1) 0, fieldAt l.hdr 4 1)
          updGang (updCores s g.cores (fun _ k => beginClock k)) gi (fun g => { g with
            running := true, startT := s.now, nextRec := some r, nextMin := s.now + g.d, agreed := fieldAt l.hdr 5 1, restored := true
            nextAt := if r.2 < (bufOf g r.1).length then some (s.now + g.d) else none })
        | none =>
          let s1 := updCores s g.cores (fun _ k => beginTask k (fieldAt l.rcd 12 4))
          let t := s.now + max (fieldAt l.rcd 72 4) g.d
          updGang s1 gi (fun g => { g with
            running := true, startT := s.now, nextMin := t
            nextRec := if l.phased then some (false, 0) else none, nextAt := if l.phased then some t else none }))

/-- ENSEMBLE_PARTNER_TIMEOUT (18:R378): no partner within 1,000 × PHDELAY of the first admission, or group counts that differ. -/
def execEnsemblePartnerTimeout (s : State) : Host.Outcome State Fault Refusal :=
  let g := getGang s s.ev.i
  .next (match getLaunch s g.launch with
    | none => s
    | some l => if g.live ∧ g.ens ∧ !g.running ∧ g.ending.isNone ∧ ensembleFails s g l then endTask s s.ev.i 2 0 else s)

end Sys2Proof.Machine
end

