-- ==== Sys2Proof/Machine/TaskEnd.lean ====
section
/-!
DEFINITION. The end of a task (18:R372, 11:R224, 14:R293, 19:R401): its cores stop, its work is settled, its windows are closed,
and its record is posted; and the save of a gang (19:R398 to R400): SAVECTX, the save point, and RESTCTX.
-/

namespace Sys2Proof.Machine

/-! ### Stopping the cores -/

/-- A task without phases has ended: every core has halted and its last result has landed. -/
def allHalted (s : State) (g : Gang) : Bool :=
  g.running && g.bufA.isNone && g.cores.all (fun n =>
    let k := s.core (vmRef n)
    k.run = .halted && k.main.pends = [] && !k.tp.active && k.tp.shadow = [])

/-- The end of a save (19:R398). -/
def savedEnd (g : Gang) : Bool := g.ending = some (6, 0xFF)

/-- The task fails or is aborted: with which status its unstarted work fails. -/
def failStatus (g : Gang) : Option Nat :=
  match g.ending with
  | some (st, _) => if st = 0 ∨ savedEnd g then none else some (if st = 7 then 7 else 6)
  | none => none

/-- A core of an ending task stops at a bundle boundary, an urgent context of it ended; the main context's results land as they fall due,
those in the shadow as if it resumed now (19:R401). Its bindings and reservations lapse. -/
def endCore (k : Core) : Core :=
  let held := if k.tp.active then k.tp.shadow.map (fun p => { p with due := k.clk.arch + p.due }) else k.tp.shadow
  { k with
    run := .stopped
    main := { k.main with pends := k.main.pends ++ held, redirs := [], stall := none, q := List.replicate 4 none }
    urg := { k.urg with pends := [], redirs := [], stall := none, q := List.replicate 4 none }
    tp := {}, loads := []
    ph := { k.ph with inph := false, sigPend := false, absent := true }
    eng := { k.eng with tl7 := none, txs := k.eng.txs.map (fun x => { x with resv := [] }) } }

/-- Under a thermal stop the core clocks do not run: what they would still do is lost. -/
def dropClocked (k : Core) : Core := { k with main := { k.main with pends := [] }, near := { k.near with accs := [] }, mx := { k.mx with evts := [], rows := [] } }

/-! ### Settling the work (19:R401) -/

def failWinOps (st w : Nat) (l : List WinOp) : List WinOp :=
  l.map (fun o => if o.out.isSome then o else { o with out := some (st, winDetail 0 w 0), ready := true })

/-- Window operations that have not started fail. -/
def settleWin (st w : Nat) (x : Win) : Win :=
  { x with ops := match x.ops with
      | [] => []
      | o :: t => if x.started then o :: failWinOps st w t else failWinOps st w (o :: t) }

/-- A transfer operation that has not started fails; so do a walk with flits not sent, and a reservation that waits. -/
def settleTxOp (st ctr : Nat) (o : TxOp) : TxOp :=
  if o.out.isSome then o
  else match o.kind with
    | .qresv ch _ => { o with out := some (st, ch), ready := true }
    | .qpush ch _ => if o.started then o else { o with out := some (st, ch), ready := true }
    | .walk => if o.started ∧ o.walk = [] ∧ o.flits = 0 then o else { o with out := some (st, txDetail 0 ctr 0), walk := [], ready := true }
    | _ => if o.started then o else { o with out := some (st, txDetail 0 ctr 0), ready := true }

def settleTx (st ctr : Nat) (x : Tx) : Tx := { x with ops := x.ops.map (settleTxOp st ctr) }

/-- Reservations that still wait fail at any end (14:R293). -/
def settleResv (x : Tx) : Tx :=
  { x with ops := x.ops.map (fun o => match o.kind, o.out with
      | .qresv ch _, none => { o with out := some (6, ch), ready := true }
      | _, _ => o) }

/-- Receive tiles that are armed and not ready fail their RXARMs. -/
def settleRx (st : Nat) (e : Engines) : Engines :=
  { e with
    rxFails := e.rxFails ++ (e.rx.filter (fun r => r.armed && !r.ready && r.num ≠ 0)).map (fun r => (r.num, st, txDetail 0 6 0))
    rx := e.rx.map (fun r => if r.armed && !r.ready then {} else r) }

/-- The work of a core of a failing task. -/
def settleCore (st : Nat) (k : Core) : Core :=
  let e := k.eng
  { k with eng := settleRx st { e with
      wins := (e.wins.zip (List.range 4)).map (fun x => settleWin st x.2 x.1)
      txs := (e.txs.zip (List.range 16)).map (fun x => settleTx st (x.2 + 4) x.1) } }

/-- The work of a control core whose partition is re-formed (18:R362): what has not started fails with status 6. -/
def settleCc (k : Core) : Core :=
  let e := k.eng
  { k with eng := { e with txs := (e.txs.zip (List.range 16)).map (fun x => settleTx 6 x.2 (settleResv x.1)) } }

/-- Timetabled flits that have not left are not sent. -/
def dropFlits (s : State) (cores : List Nat) : State :=
  { s with ports := s.ports.map (fun p => { p with timed := p.timed.filter (fun f => f.srcCc || !cores.contains f.srcCore) }) }

/-- Resolve the contexts of a core that a translation fault has stopped, as by WRES.fail or TXRES.fail, without a further
record (18:R372). -/
def resolveCore (s : State) (c : CoreRef) : State :=
  let s1 := [0, 1, 2, 3].foldl (fun s w => if (getWin (s.core c) w).fault.isSome then failStopped s c w 255 else s) s
  (List.range (if c.cc then 16 else 2)).foldl (fun s i => match (getTx (s.core c) i).fault with
    | none => s
    | some f => updTxOp (updTx s c i (fun x => { x with fault := none })) c i f.num (fun o =>
        { o with wait := none, todo := [], out := some (255, txDetail 12 (txCtr c i) 0) })) s1

/-- A context of the core is stopped by a translation fault. -/
def anyStopped (k : Core) : Bool := k.eng.wins.any (·.fault.isSome) || k.eng.txs.any (·.fault.isSome)

/-- Resolve every stopped context of a gang; its record then carries status 2. -/
def resolveAll (s : State) (gi : Nat) : State :=
  let g := getGang s gi
  if g.cores.any (fun n => anyStopped (s.core (vmRef n))) then
    updGang (g.cores.foldl (fun s n => resolveCore s (vmRef n)) s) gi (fun g => { g with resolved := true })
  else s

/-- A save asked for by a control core ends with a status. -/
def answerSave (s : State) (gi st : Nat) : State :=
  match (getGang s gi).save with
  | some (_, _, some cc) => match stallOf s ⟨true, cc⟩ false .savectx with
    | some x => if x.k = gi then finishStall s ⟨true, cc⟩ false x (BitVec.ofNat 64 st) else s
    | none => s
  | _ => s

/-- The first stage of an end. -/
def beginEnd (s : State) (gi : Nat) : State :=
  let g := getGang s gi
  let s1 := updCores s g.cores (fun _ k =>
    let k := endCore k
    let k := { k with eng := { k.eng with txs := k.eng.txs.map settleResv } }
    let k := match failStatus g with
      | some st => settleCore st k
      | none => k
    if (g.ending.getD (0, 0)).1 = 7 then dropClocked k else k)
  let s2 := if (failStatus g).isSome then dropFlits s1 g.cores else s1
  updGang (answerSave s2 gi 4) gi (fun g => { g with stage := 1, save := none, saving := false, nextAt := none })

/-! ### Closing the windows, and the record -/

/-- Every operation of a core's counters is complete, and its array is at rest. -/
def engQuiet (k : Core) : Bool :=
  (k.eng.tl.take 7).all (fun t => t.val = t.next) && k.mx.evts = [] && k.mx.rows = []

/-- Every access of a gang's cores has taken effect; with `gangQuiet`, every result has landed too. -/
def accsDone (s : State) (cores : List Nat) : Bool :=
  (allCores s).all (fun t => (s.core t).near.accs.all (fun x => x.src.cc || !cores.contains x.src.num))

def gangQuiet (s : State) (g : Gang) : Bool :=
  g.cores.all (fun n => engQuiet (s.core (vmRef n)) && (s.core (vmRef n)).main.pends = []) && accsDone s g.cores

/-- The close of every open window that a task's end makes. -/
def closeWins (s : State) (gi : Nat) : State :=
  let g := getGang s gi
  let s1 := if savedEnd g then s else updCores s g.cores (fun _ k => { k with eng := { k.eng with
    wins := k.eng.wins.map (fun x => if x.opn then { x with ops := x.ops ++ [{ num := 0, kind := .close }] } else x) } })
  updGang s1 gi (fun g => { g with stage := 2 })

/-- Its cores, stores and reservation are released. -/
def releaseGang (s : State) (gi : Nat) : State :=
  let s1 := updCores s (getGang s gi).cores (fun _ k => { k with run := .idle, ph := {} })
  updGang { s1 with links := s1.links.filter (fun x => x.1 ≠ gi) } gi (fun g => { g with
    live := false, stores := [], bufA := none, bufB := none, resv := 0 })

/-- The task's record, once there is room, and its release. -/
def finishTask (s : State) (gi : Nat) : State :=
  let g := getGang s gi
  let e := g.ending.getD (0, 0)
  let st := if g.resolved then 2 else if e.1 = 0 then g.worst else e.1
  match getLaunch s g.launch with
  | none => releaseGang s gi
  | some l =>
    let r := reportTask s l st g.taskid g.index (g.lastPh + flagAt g.lastBuf 8 + e.2 * 2 ^ 16)
    if r.1 then releaseGang r.2 gi else r.2

/-- TASK_END (18:R372): the next thing that the end of gang ev.i allows. -/
def execTaskEnd (s : State) : Host.Outcome State Fault Refusal :=
  let gi := s.ev.i
  let g := getGang s gi
  .next (
    if !g.live then s
    else if g.ending.isNone then (if allHalted s g then beginEnd (endTask s gi 0 0) gi else s)
    else if g.stage = 0 then beginEnd s gi
    else
      let s1 := resolveAll s gi
      let g1 := getGang s1 gi
      if g.stage = 1 then (if gangQuiet s1 g1 then closeWins s1 gi else s1)
      else if g1.cores.all (fun n => (s1.core (vmRef n)).eng.wins.all (fun x => x.ops = [])) then finishTask s1 gi
      else s1)

/-! ### SAVECTX (19:R398, R399) -/

/-- The checks of a SAVECTX, and the gang it names. -/
def saveCheck (s : State) (c : CoreRef) (a b : W64) : Nat × Nat :=
  if (b.extractLsb' 1 15) ≠ 0 ∨ (b.extractLsb' 32 32) ≠ 0 ∨ a.toNat % 4096 ≠ 0 then (1, 0)
  else match gangByHandle s c (b.extractLsb' 16 16).toNat with
    | none => (1, 0)
    | some gi =>
      let g := getGang s gi
      if g.bufA.isNone ∨ g.ending.isSome ∨ !g.live then (4, gi)
      else if g.ens then (5, gi)
      else if g.save.isSome then (2, gi)
      else (0, gi)

def execSavectx (d : BitVec 5) (a b : BitVec 6) (g : BitVec 3) (n : BitVec 1) (s : State) : Host.Outcome State Fault Refusal :=
  let c := s.cur.core
  let r := saveCheck s c (srcS s a) (srcS s b)
  let ask (s' : State) (cc : Option Nat) : State :=
    updGang s' r.2 (fun x => { x with save := some ((srcS s a).toNat, (srcS s b).getLsbD 0, cc) })
  .next (
    if guardOn s g n ∧ !isCC s ∧ inPhase s then issueFail s 0x01 0
    else guarded s g n [a, b] (fun s' =>
      if r.1 ≠ 0 then putS s' 1 d (BitVec.ofNat 64 r.1)
      else if c.cc then
        startStall (ask s' (some c.num)) { kind := .savectx, a := srcS s a, b := srcS s b, dst := dstS s d.toNat, k := r.2 }
      else putS (ask s' none) 1 d 0))

/-- Every engine operation of the gang is complete and every register result has landed. -/
def saveReady (s : State) (g : Gang) : Bool :=
  g.saving && gangQuiet s g && g.cores.all (fun n =>
    let k := s.core (vmRef n)
    k.main.pends = [] && k.tp.shadow = [] && k.loads = [])

/-- The save fails: the area's VALID is 0, where its header can be written, and the withheld phase starts at the next multiple of 64. -/
def saveFailed (s : State) (gi a : Nat) : State :=
  let p := (getGang s gi).part
  let s1 := if vwritable s p a 64 then vput s p (a + 1) (natBytes 1 (fieldAt (vbytes s p a 64) 1 1 % 2)) else s
  updGang (answerSave s1 gi 3) gi (fun g => { g with save := none, saving := false, nextAt := some (alignedTick s (s.now + 1) 6) })

/-- The area's contents: pieces with their offsets, the header without VALID first. -/
def saveImage (s : State) (g : Gang) (v : Bool) (hdr : List W8) : List (Nat × List W8) :=
  [(0, hdr.set 1 (BitVec.ofNat 8 (flagAt v 0))),
   (0x1000, (g.bufA.getD []).flatMap (·.img)), (0x5000, (g.bufB.getD []).flatMap (·.img))]
  ++ (g.cores.zip (List.range g.cores.length)).flatMap (fun x =>
    (saveBlock (s.core (vmRef x.1)) v).map (fun y => (blockAt v x.2 + y.1, y.2)))

/-- SAVE_POINT (19:R398): the gang's area is written, VALID last, and its task ends. -/
def execSavePoint (s : State) : Host.Outcome State Fault Refusal :=
  let gi := s.ev.i
  let g := getGang s gi
  .next (match g.save, getLaunch s g.launch, g.nextRec with
    | some (a, v, _), some l, some r =>
      if !saveReady s g ∨ g.ending.isSome then s
      else
        let p := g.part
        let n := areaSize v g.cores.length
        if !vwritable s p a n then saveFailed s gi a
        else
          let hdr := saveHeader s g v r.1 r.2 l.seed l.args l.code l.codelen
          let s1 := (saveImage s g v hdr).foldl (fun s x => vput s p (a + x.1) x.2) (vzero s p a n)
          let s2 := (g.cores.zip (List.range g.cores.length)).foldl (fun s1 x =>
            (savePoison (s.core (vmRef x.1)) v).foldl (fun s1 o => vpoison s1 p (a + blockAt v x.2 + o)) s1) s1
          let s3 := answerSave (vput s2 p a hdr) gi 0
          let w := (bufOf g r.1).getD r.2 { phnum := r.2 }
          endTask (updGang s3 gi (fun g => { g with lastPh := w.phnum, lastBuf := r.1, save := none, saving := false })) gi 6 0xFF
    | _, _, _ => s)

/-! ### RESTCTX (19:R400) -/

def execRestctx (d : BitVec 5) (a b : BitVec 6) (g : BitVec 3) (n : BitVec 1) (s : State) : Host.Outcome State Fault Refusal :=
  .next (
    if guardOn s g n ∧ !isCC s then issueFail s 0x06 0
    else guarded s g n [a, b] (fun s' => startStall s' { kind := .restctx, a := srcS s a, b := srcS s b, dst := dstS s d.toNat
                                                         k := if (cx s).fmt.getLsbD 19 then 1 else 0 }))

/-- The checks of a RESTCTX and its effect: status, identifier. -/
def restRun (s : State) (c : CoreRef) (st : Stall) : Nat × Nat × State :=
  let p := partOf s c
  if st.b.extractLsb' 8 56 ≠ 0 ∨ st.a.toNat % 4096 ≠ 0 then (1, 0, s)
  else
    let s := vtouch s p st.a.toNat 64
    match vread s p st.a.toNat 64 with
    | .bytes h =>
      if fieldAt h 0 1 ≠ 1 ∨ !bitOf (fieldAt h 1 1) 1 then (1, 0, s)
      else
        let e := placeStatus s p (fieldAt h 2 1 % 128 + 1) true false 1
        if e ≠ 0 then (e, 0, s)
        else
          let l : Launch := { id := 0, part := p, rcd := [], prio := (st.b.extractLsb' 5 2).toNat, det := st.b.getLsbD 7 || st.k = 1
                              num := none, task0 := 0, g := some 1, left := 1, area := some st.a.toNat, hdr := h }
          let x := acceptLaunch s c (launchCtr st.b) 1 l
          (0, x.1, x.2)
    | _ => (2, 0, s)

/-- RESTCTX_DONE: as LAUNCH_DONE. -/
def execRestctxDone (s : State) : Host.Outcome State Fault Refusal :=
  let c := s.ev.core
  let u : Bool := s.ev.j = 1
  .next (match stallOf s c u .restctx with
    | none => s
    | some st =>
      if !coreDrained (s.core c) c then s
      else let r := restRun s c st; finishStall r.2.2 c u st (launchResult r.1 r.2.1))

end Sys2Proof.Machine
end

