-- ==== Sys2Proof/Machine/Service.lean ====
section
/-!
DEFINITION. Service (20:R403 to R405, R407, R408, R412): the mailbox and its commands, resets, and the answers to SPDM requests
(20:R409). A command runs between a write of CMD and its SERVICE_COMMAND_COMPLETE.
-/

namespace Sys2Proof.Machine

/-! ### The mailbox (20:R403) -/

/-- The mailbox is running a command that has not finished. -/
def running (s : State) (code : Nat) : Bool := s.svc.busy && s.svc.code.toNat = code && s.svc.done.isNone

/-- A command has finished with a RESULT. -/
def finishCmd (s : State) (r : Nat) : State := { s with svc := { s.svc with done := some (BitVec.ofNat 8 r) } }

/-- Run a step of the command with a code. -/
def command (s : State) (code : Nat) (f : State → State) : Host.Outcome State Fault Refusal :=
  .next (if running s code then f s else s)

/-- PART of the running command. -/
def cmdPart (s : State) : Nat := s.svc.part.toNat

def cmdArg (s : State) (hi lo : Nat) : Nat := bitsOf s.svc.arg0.toNat hi lo

/-- n bytes of local physical memory, none where they do not exist or are poisoned; and the state that has met their errors (11:R233). -/
def physRead (s : State) (a n : Nat) : Option (List W8) × State :=
  if 2 ^ 39 < a + n then (none, s)
  else
    let s1 := sysTouch s a n
    (if sysPoisoned s1 a n then none else some (sysRead s1 a n), s1)

/-- SERVICE_COMMAND_COMPLETE (20:R403): STATUS is written, and vector 0 raised. -/
def execServiceCommandComplete (s : State) : Host.Outcome State Fault Refusal :=
  .next (match s.svc.done with
    | none => s
    | some r => { s with svc := { s.svc with busy := false, result := r, done := none }, outbox := s.outbox ++ [.vec0 s.now] })

/-! ### Starting a control core (20:R404, 05:R94, 18:R364) -/

/-- Every register is reset, the instruction cache is empty, reservations lapse (14:R293), and issue begins at DISPATCH. What its
engines have under way goes on. Its core cycles count from here, the first being this one (06:R127). -/
def startCc (k : Core) (entry : W64) : Core :=
  { k with
    clk := { k.clk with cyc := 0, acc := 0, arch := k.clk.arch + 1, due := true }
    main := { pc := entry, next := k.clk.arch + 1 }, urg := {}, k := List.replicate 16 0, mp := List.replicate 8 0, tr := {}, tp := {}
    ph := {}, run := .running, loads := []
    ctl := { k.ctl with icache := [], badLines := [], mcode := [] }
    eng := { k.eng with txs := k.eng.txs.map (fun x => { x with resv := [] }) } }

/-- The control core of a partition. -/
def ccRef (p : Nat) : CoreRef := ⟨true, p⟩

/-! ### Partitions (20:R405, 18:R362) -/

/-- The directory that holds the five standard routines (13:R272). -/
def stdDir : List (Nat × Nat × Nat) := (List.range 5).map (fun i => (i, 0, 0))

/-- A core as a new owner receives it: a zeroed vault and the standard routines (10:R193, 13:R264). -/
def allotCore (k : Core) (p : Option Nat) : Core :=
  { part := p, near := { ecc := k.near.ecc, spared := k.near.spared }, mx := { udir := stdDir }, thermal := k.thermal, spared := k.spared
    clk := k.clk }

/-- Fields of a partition descriptor. -/
def descPart (d : List W8) : Part :=
  { formed := true, cores := BitVec.ofNat 128 (fieldAt d 0 16), ptroot := fieldAt d 16 8, ovfl := fieldAt d 24 8
    stores := BitVec.ofNat 32 (fieldAt d 32 4), power := fieldAt d 36 2, ports := BitVec.ofNat 36 (fieldAt d 40 8)
    salt := BitVec.ofNat 64 (fieldAt d 48 8), dispatch := BitVec.ofNat 64 (fieldAt d 56 8)
    chans := List.replicate 16 { opn := true, prod := true, cons := true } }

/-- A descriptor breaks a limit. -/
def badDesc (d : List W8) : Bool :=
  fieldAt d 0 16 = 0 || fieldAt d 16 8 % 2 ^ 13 ≠ 0 || fieldAt d 24 8 % 2 ^ 20 ≠ 0 || fieldAt d 36 2 = 0 || 1600 < fieldAt d 36 2
    || fieldAt d 38 2 ≠ 0 || 2 ^ 36 ≤ fieldAt d 40 8 || fieldAt d 56 8 % 4 ≠ 0 || 2 ^ 48 ≤ fieldAt d 56 8

/-- The result of a FORM. -/
def formCheck (s : State) (p : Nat) (d : Option (List W8)) : Nat :=
  if 8 ≤ p then 1
  else if (getPart s p).formed then 4
  else match d with
    | none => 1
    | some d =>
      if badDesc d then 1
      else
        let q := descPart d
        let others := s.parts.filter (·.formed)
        if !s.svc.ucodeOk ∨ others.any (fun o => o.cores &&& q.cores ≠ 0 || o.stores &&& q.stores ≠ 0 || o.ports &&& q.ports ≠ 0) then 2
        else if 1600 < others.foldl (fun a o => a + o.power) q.power then 3
        else 0

/-- A partition formed from its descriptor. -/
def formPart (s : State) (p : Nat) (q : Part) : State :=
  let s1 := updPart s p (fun _ => q)
  let s2 := (List.range s1.vms.length).foldl (fun s n =>
    if q.cores.getLsbD n then s.upd (vmRef n) (fun k => allotCore k (some p)) else s) s1
  s2.upd (ccRef p) (fun k => startCc { near := { k.near with claims := [], accs := [] }, clk := k.clk, spared := k.spared } q.dispatch)

/-- FORM (20:R405). -/
def execForm (s : State) : Host.Outcome State Fault Refusal :=
  command s 1 (fun s =>
    let x := if 8 ≤ cmdPart s ∨ (getPart s (cmdPart s)).formed then (none, s) else physRead s s.svc.arg0.toNat 64
    let r := formCheck x.2 (cmdPart s) x.1
    finishCmd (if r = 0 then formPart x.2 (cmdPart s) (descPart (x.1.getD [])) else x.2) r)

/-- A reservation that waits when its channel closes fails (14:R291). -/
def failWaiting (ch : Nat) (x : Tx) : Tx :=
  match x.ops with
  | [] => x
  | o :: t => match o.kind with
    | .qresv c _ => if c = ch ∧ o.started ∧ o.out = none then { x with ops := { o with out := some (6, ch) } :: t } else x
    | _ => x

/-- A core's bindings of a source go; a channel's reservations lapse, or fail where they wait. -/
def unbindCore (k : Core) (q : QSrc) : Core :=
  let f (x : Ctx) : Ctx := { x with q := x.q.map (fun y => if y = some q then none else y) }
  { k with main := f k.main, urg := f k.urg
           eng := match q with
             | .chan ch => { k.eng with txs := k.eng.txs.map (fun x => failWaiting ch { x with resv := x.resv.filter (fun r => r.1 ≠ ch) }) }
             | _ => k.eng }

/-- Close one side of a channel (14:R292). -/
def closeSide (s : State) (p ch : Nat) : State :=
  let s1 := updChan s p ch (fun _ => { opn := false })
  (allCores s1).foldl (fun s c =>
    if partOf s c = p && (c.cc || (s.core c).part = some p) then s.upd c (fun k => unbindCore k (.chan ch)) else s) s1

/-- Close a channel, and the one that it is joined to. -/
def closeChan (s : State) (p ch : Nat) : State :=
  match (getChan s p ch).peer with
  | some x => closeSide (closeSide s p ch) x.1 x.2
  | none => closeSide s p ch

/-- A task that has not been placed, when its partition is re-formed: one record with status 6. -/
def abortQueued (s : State) (l : Launch) : State :=
  match l.g with
  | none => (reportTask s { l with left := 1 } 6 l.task0 0xFFFFFFFF 0).2
  | some _ =>
    let r := reportTask s l 6 (tidAt l.task0 l.nextIx) l.index 0
    if r.1 then taskPlaced r.2 l.id else r.2

/-- The resources of a partition return to the host. -/
def returnPart (s : State) (p : Nat) : State :=
  let s1 := (List.range 16).foldl (fun s ch => closeChan s p ch) s
  let s2 := s1.upd (ccRef p) (fun k => { near := k.near, clk := k.clk, spared := k.spared })
  { s2 with
    vms := s2.vms.map (fun k => if k.part = some p then { allotCore k none with near := { k.near with claims := [], accs := [] } } else k)
    parts := s2.parts.set p {}
    groups := s2.groups.filter (fun g => g.2.part ≠ some p)
    tlbs := s2.tlbs.filter (fun e => e.part ≠ p), walks := s2.walks.filter (fun w => w.part ≠ p)
    svc := { s2.svc with allot := s2.svc.allot.map (fun b => if b.toNat = 128 + p then b &&& 0x7F else b) } }

/-- The control core's own operations, accesses and records are done, or its event queue takes no more (entry 58). -/
def ccQuiet (s : State) (p : Nat) : Bool :=
  let c := ccRef p
  let k := s.core c
  let q := getPart s p
  k.eng.tl.all (fun t => t.val = t.next) && coreDrained k c && (allCores s).all (fun t => (s.core t).near.accs.all (fun x => x.src ≠ c))
    && q.evWait = [] && q.evNew = []

/-- The control core of a partition that is re-formed stops at a bundle boundary, and its work is settled as that of an aborted task. -/
def stopCc (s : State) (p : Nat) : State :=
  let c := ccRef p
  resolveCore (s.upd c (fun k => settleCc { k with
    run := .stopped, main := { k.main with stall := none, redirs := [] }, urg := { k.urg with stall := none, redirs := [] } })) c

/-- DISSOLVE (20:R404, 18:R362): its tasks are aborted, each step with what can be reported; then its control core stops, and its
resources return once that core's work has been settled. -/
def execDissolve (s : State) : Host.Outcome State Fault Refusal :=
  command s 2 (fun s =>
    let p := cmdPart s
    if 8 ≤ p ∨ !(getPart s p).formed then finishCmd s 1
    else
      let mine := (List.range s.gangs.length).filter (fun i => (getGang s i).live && (getGang s i).part = p)
      if mine ≠ [] then mine.foldl (fun s i => endTask s i 6 0) s
      else match s.launches.find? (fun l => l.part = p) with
        | some l => abortQueued s l
        | none =>
          let s1 := stopCc s p
          if ccQuiet s1 p ∨ !evRoom s1 p 1 then finishCmd (returnPart s1 p) 0 else s1)

/-! ### Channels, groups, control cores (20:R404) -/

/-- The two sides that ARG0 names: producer and consumer, partition and channel. -/
def chanArgs (s : State) : (Nat × Nat) × (Nat × Nat) := ((cmdArg s 6 4, cmdArg s 3 0), (cmdArg s 14 12, cmdArg s 11 8))

/-- OPENCH: both channels are closed and then joined. -/
def execOpench (s : State) : Host.Outcome State Fault Refusal :=
  command s 3 (fun s =>
    let x := (chanArgs s).1
    let y := (chanArgs s).2
    if !(getPart s x.1).formed ∨ !(getPart s y.1).formed ∨ x = y then finishCmd s 1
    else
      let s1 := closeChan (closeChan s x.1 x.2) y.1 y.2
      let s2 := updChan s1 x.1 x.2 (fun _ => { opn := true, prod := true, peer := some y })
      finishCmd (updChan s2 y.1 y.2 (fun _ => { opn := true, cons := true, peer := some x })) 0)

/-- CLOSECH. -/
def execClosech (s : State) : Host.Outcome State Fault Refusal :=
  command s 4 (fun s =>
    let x := (chanArgs s).1
    let y := (chanArgs s).2
    if (getChan s x.1 x.2).opn ∧ (getChan s x.1 x.2).peer = some y ∧ (getChan s x.1 x.2).prod then finishCmd (closeChan s x.1 x.2) 0
    else finishCmd s 1)

/-- Entry i of a member list: chip and core. -/
def listEntry (bs : List W8) (i : Nat) : Nat := fieldAt bs (4 * i) 4

/-- GROUP (16:R340): a new group, with its member list; a member on this chip starts with nothing applied. -/
def execGroup (s : State) : Host.Outcome State Fault Refusal :=
  command s 5 (fun s =>
    let p := cmdPart s
    let g := cmdArg s 11 0
    let a := s.svc.arg1.toNat
    if 8 ≤ p ∨ !(getPart s p).formed then finishCmd s 1
    else match physRead s a 1 with
      | (none, s) => finishCmd s 1
      | (some c, s) =>
        let n := leNat c
        match physRead s (a + 1) (4 * n) with
        | (none, s) => finishCmd s 1
        | (some bs, s) =>
          let es := (List.range n).map (fun i => listEntry bs i)
          let here := (es.filter (fun e => e % 512 = s.chip)).map (fun e => e / 512 % 128)
          if n = 0 ∨ 64 < n ∨ es.any (fun e => decide (2 ^ 16 ≤ e)) ∨ repeats es
              ∨ here.any (fun m => decide ((s.core (vmRef m)).part ≠ some p)) then finishCmd s 1
          else if (match (getGroup s g).part with | some q => decide (q ≠ p) | none => false) then finishCmd s 2
          else
            let drop (k : Core) : Core := { k with eng := { k.eng with members := k.eng.members.filter (fun m => m.grp ≠ g) } }
            let s1 := { s with vms := s.vms.map drop }
            let s2 := here.foldl (fun s m => s.upd (vmRef m) (fun k => { k with eng := { k.eng with
              members := k.eng.members ++ [{ grp := g, applied := 0, gen := 0 }] } })) s1
            finishCmd (updGroup s2 g (fun _ => { part := some p, members := es.map (fun e => (e % 512, e / 512 % 128)) })) 0)

/-- RESTART: of a control core that is halted, faulted or stopped by a thermal stop. -/
def execRestart (s : State) : Host.Outcome State Fault Refusal :=
  command s 6 (fun s =>
    let p := cmdPart s
    let q := getPart s p
    if 8 ≤ p ∨ !q.formed then finishCmd s 1
    else
      let k := s.core (ccRef p)
      if k.run = .running ∧ !q.thermal then finishCmd s 4
      else finishCmd (updPart (s.upd (ccRef p) (fun k => startCc k q.dispatch)) p (fun q => { q with thermal := false })) 0)

/-- DOMAIN: the chip's number, and its DCC to 0 (01:R15, 15:R296). -/
def execDomain (s : State) : Host.Outcome State Fault Refusal :=
  command s 7 (fun s => finishCmd { s with chip := cmdArg s 8 0, dccBase := s.now, domain := true, alignLost := false } 0)

/-- SPARECC: a die's spare in place of a control core whose partition is not formed. DESIGN CHOICE (entry 104): where ARG0[0] names the
other die than the core's number does, the spare of that die is used and the core keeps the die of its number; the rules (01:R16, 20:R404)
do not say whether the dies must agree. -/
def execSparecc (s : State) : Host.Outcome State Fault Refusal :=
  command s 8 (fun s =>
    let p := cmdPart s
    let d := cmdArg s 0 0
    if 8 ≤ p then finishCmd s 1
    else if (getPart s p).formed then finishCmd s 4
    else if s.svc.spareCc.getD d 0 = 0 then finishCmd s 2
    else
      let s1 := s.upd (ccRef p) (fun _ => { spared := true })
      finishCmd { s1 with svc := { s1.svc with spareCc := s1.svc.spareCc.set d (s1.svc.spareCc.getD d 0 - 1), ccSpared := insNat p s1.svc.ccSpared } } 0)

/-! ### Firmware (20:R408) -/

/-- FWSTAGE: the image at ARG0 of length ARG1, whose version is ev.i. -/
def execFwstage (s : State) : Host.Outcome State Fault Refusal :=
  command s 9 (fun s =>
    match physRead s s.svc.arg0.toNat s.svc.arg1.toNat with
    | (none, s) => finishCmd s 1
    | (some bs, s) =>
      if !Config.verifies bs ∨ s.ev.i < s.svc.rollback then finishCmd s 1
      else
        let v := if s.svc.running then { s.svc with slotA := s.ev.i } else { s.svc with slotB := s.ev.i }
        finishCmd { s with svc := { v with staged := some (!v.running), fresh := some (!v.running) } } 0)

/-- FWACT: the staged slot becomes the running firmware. -/
def execFwact (s : State) : Host.Outcome State Fault Refusal :=
  command s 10 (fun s => match s.svc.staged with
    | some b => finishCmd { s with svc := { s.svc with running := b, staged := none } } 0
    | none => finishCmd s 1)

/-! ### Resets (20:R407, R412, R414) -/

/-- What the outside finds for a slot: 0 sound, 1 the flash read fails, 2 the signature is rejected. -/
def slotFind (s : State) (slot : Nat) : Nat := (s.ev.bytes.getD slot 0).toNat % 4

/-- Step and ECODE of the failure of a slot, none where it boots. -/
def slotFails (s : State) (slot : Nat) : Option (Nat × Nat) :=
  let v := if slot = 0 then s.svc.slotA else s.svc.slotB
  match slotFind s slot with
  | 1 => some (1, 3)
  | 2 => some (2, 1)
  | 3 => some (2, 1)
  | _ => if v < s.svc.rollback then some (2, 2) else none

/-- BOOTST as the steps of a reset write it: FSTEP and ECODE, the slot, whether step 3 trains in full, the ports that fail. -/
def bootWord (step code : Nat) (slotB full ready : Bool) (ports : Nat) : W64 :=
  BitVec.ofNat 64 (ports % 2 ^ 36 * 2 ^ 28 + code * 256 + step * 16 + flagAt full 3 + flagAt slotB 2 + flagAt ready 0)

/-- The machine after the parts that every reset clears: the cores, partitions, gangs, tables and mailbox. Kept: time, the retirement
table, firmware, what is outside, and the chip's repairs. -/
def resetCommon (s : State) (cold : Bool) : State :=
  let v := s.svc
  { vms := s.vms.map (fun k => { near := { ecc := k.near.ecc, spared := k.near.spared }, spared := k.spared })
    ccs := s.ccs.map (fun k => { spared := k.spared })
    now := s.now, oracle := s.oracle, serial := s.serial, ev := s.ev, inputs := s.inputs, outbox := s.outbox
    dccBase := if cold then s.now else s.dccBase
    chip := if cold then 0 else s.chip, domain := !cold && s.domain
    sys := s.sys.filter (fun x => !cold || 2 ^ 39 ≤ x.1)
    syspoison := s.syspoison.filter (fun g => !cold || 2 ^ 33 ≤ g)
    syscerr := s.syscerr.filter (fun g => !cold || 2 ^ 33 ≤ g), sysuerr := s.sysuerr.filter (fun g => !cold || 2 ^ 33 ≤ g)
    stepReq := s.stepReq, cool := s.cool, refresh := s.refresh, ports := s.ports.map (fun p => { up := p.up, spareUsed := p.spareUsed })
    svc := {
      retired := v.retired, slotA := v.slotA, slotB := v.slotB, running := v.running, staged := v.staged, fresh := v.fresh
      rollback := v.rollback, patrol := if cold then s.now else v.patrol, found := if cold then [] else v.found
      hot := if cold then [] else v.hot
      blob := v.blob, ecc := v.ecc, spares := v.spares, spareCc := v.spareCc, ccSpared := v.ccSpared
      elog := if cold then List.replicate 256 (List.replicate 32 0) else v.elog, elogw := if cold then 0 else v.elogw
      elogr := if cold then 0 else v.elogr, elogOvf := !cold && v.elogOvf } }

/-- Steps 3 to 6, once a slot has booted. ev.bytes[2] says that a stored blob is rejected, ev.bytes[3] that the microprogram image
is; ev.v has a bit for each port left out of service, and byte 4 + p of ev.bytes is 1 more than the lane that training replaced by port
p's spare. What stands staged in slot B stays so where slot A boots; the counter rises where a cold reset boots the slot staged last
(20:R408). -/
def bringUp (s : State) (cold slotB : Bool) : State :=
  let full := cold || !s.svc.blob || s.ev.bytes.getD 2 0 ≠ 0
  let bad := s.ev.bytes.getD 3 0 ≠ 0
  let ports := s.ev.v.toNat % 2 ^ 36
  let version := if slotB then s.svc.slotB else s.svc.slotA
  let lane (p : Nat) : Nat := (s.ev.bytes.getD (4 + p) 0).toNat
  let s1 := (List.range 36).foldl (fun s p =>
    if bitOf ports p then logError s 8 0x80 p 0 0
    else if lane p ≠ 0 ∧ !(getPort s p).spareUsed then logError s 7 0x80 (p + (lane p - 1) % 8 * 256) 0 0 else s) s
  let raise : Bool := cold && decide (s.svc.fresh = some slotB)
  { s1 with
    ports := (List.range 36).map (fun p => { up := !bitOf ports p, spareUsed := (getPort s p).spareUsed || lane p ≠ 0 })
    svc := { s1.svc with
      running := slotB, staged := if slotB then none else s.svc.staged.filter (fun b => b), blob := true, ucodeOk := !bad
      fresh := if raise then none else s.svc.fresh
      rollback := if raise then max s.svc.rollback version else s.svc.rollback
      bootst := bootWord (if bad then 5 else 0) (if bad then 4 else 0) slotB full true ports } }

/-- A reset runs the steps of bring-up; where neither slot boots, only PF0 enumerates. -/
def resetWith (s : State) (cold : Bool) : State :=
  let s1 := resetCommon s cold
  match slotFails s 0, slotFails s 1 with
  | none, _ => bringUp s1 cold false
  | some _, none => bringUp s1 cold true
  | some _, some e => { s1 with svc := { s1.svc with bootst := bootWord e.1 e.2 false false false 0 } }

def execColdReset (s : State) : Host.Outcome State Fault Refusal := .next (resetWith s true)

def execWarmReset (s : State) : Host.Outcome State Fault Refusal := .next (resetWith s false)

/-! ### SPDM (20:R409) -/

/-- The answer to a request: which request it answers, and bytes that the spec leaves open. -/
def spdmAnswer (s : State) (request : Nat) (body : List W8) : State :=
  { s with oracle := s.oracle + 1
           outbox := s.outbox ++ [.spdm (natBytes 1 request ++ body ++ (List.range 64).map (fun i => Config.freeByte s.oracle i))] }

def execGetVersion (s : State) : Host.Outcome State Fault Refusal := .next (spdmAnswer s 0 (natBytes 1 0x12))

def execGetCapabilities (s : State) : Host.Outcome State Fault Refusal := .next (spdmAnswer s 1 [])

/-- The algorithms offered, ECDSA P-521 and SHA-512 only, as the masks that SPDM gives them (20:R409; PRESUMED, entry 10). -/
def spdmOffers : List W8 := natBytes 4 0x100 ++ natBytes 4 0x4

def execNegotiateAlgorithms (s : State) : Host.Outcome State Fault Refusal := .next (spdmAnswer s 2 spdmOffers)

def execGetDigests (s : State) : Host.Outcome State Fault Refusal := .next (spdmAnswer s 3 [])

def execGetCertificate (s : State) : Host.Outcome State Fault Refusal := .next (spdmAnswer s 4 [])

def execChallenge (s : State) : Host.Outcome State Fault Refusal := .next (spdmAnswer s 5 [])

/-- The four indices measured: boot ROM, first stage, service firmware, standard microprogram image. -/
def execGetMeasurements (s : State) : Host.Outcome State Fault Refusal := .next (spdmAnswer s 6 ((List.range 4).flatMap (fun i => natBytes 1 (i + 1))))

end Sys2Proof.Machine
end

