-- ==== Sys2Proof/Machine/HostLink.lean ====
section
/-!
DEFINITION. The host link (20:R402, R403, R406, R412 to R415, 17:R361): register writes, accesses to partition memory, completion
interrupts; and in-service repair (20:R410).
-/

namespace Sys2Proof.Machine

/-! ### Register writes (00:R3, 20:R403, R413 to R415) -/

/-- The codes of 20:R404. -/
def isCommand (n : Nat) : Bool := 1 ≤ n && n ≤ 10

/-- A write of CMD: it starts a command once the mailbox accepts commands (20:R407), unless one is running. -/
def writeCmd (s : State) (v : W64) : State :=
  let c := s.svc
  if !c.bootst.getLsbD 0 then s
  else if c.busy then { s with svc := { c with ovr := true } }
  else
    let code := v.setWidth 8
    { s with svc := { c with
        argc := v.extractLsb' 16 48, part := v.extractLsb' 8 8, code := code, busy := true
        done := if isCommand code.toNat then none else some 1 } }

/-- REGISTER_WRITE: the host writes v at offset ev.i of PF0's BAR0. Read-only registers ignore it. -/
def execRegisterWrite (s : State) : Host.Outcome State Fault Refusal :=
  let v := s.ev.v
  let c := s.svc
  .next (match s.ev.i with
    | 0x00 => writeCmd s v
    | 0x08 => { s with svc := { c with arg0 := v } }
    | 0x10 => { s with svc := { c with arg1 := v } }
    | 0x18 => if v.getLsbD 16 then { s with svc := { c with ovr := false } } else s
    | 0x3008 => { s with svc := { c with elogr := v.setWidth 16 } }
    | 0x3010 => if v.getLsbD 0 then { s with svc := { c with elogOvf := false } } else s
    | _ => s)

/-- IRQWIN_WRITE (20:R413): register ev.i, clamped to 1 to 1,000. -/
def execIrqwinWrite (s : State) : Host.Outcome State Fault Refusal :=
  let w := max 1 (min 1000 (s.ev.v.extractLsb' 0 10).toNat)
  .next { s with svc := { s.svc with irqwin := s.svc.irqwin.set s.ev.i (BitVec.ofNat 10 w) } }

/-- ALLOT_WRITE (20:R414): byte ev.i. A region of a formed partition does not move. -/
def execAllotWrite (s : State) : Host.Outcome State Fault Refusal :=
  let old := s.svc.allot.getD s.ev.i 0
  let new := s.ev.v.setWidth 8 &&& 0x87
  let held : Bool := old.getLsbD 7 && (getPart s (old.toNat % 8)).formed
  .next (if held ∧ new ≠ old then s else { s with svc := { s.svc with allot := s.svc.allot.set s.ev.i new } })

/-! ### Host accesses (20:R402, 17:R361) -/

/-- A SYSMEM record of a host access. -/
def hostRecord (s : State) (p status detail : Nat) : State :=
  postRecord s p (mkRecord 9 status p 0 (recSource s (ccRef p)) 0 0 0 detail)

/-- The first page of a range that does not translate: its code and address. -/
def hostFault (s : State) (p va n : Nat) (w : Bool) : Option (Nat × Nat) :=
  (pageParts va n).findSome? (fun x => match xlateWalk s p x.1 (!w) w with
    | .fault code => some (code, x.1)
    | .ok _ _ => none)

/-- A partition's BAR0 shows addresses below 2^40. -/
def inBar (s : State) (p va n : Nat) : Bool := (getPart s p).formed && va + n ≤ 2 ^ 40

/-- HOST_WRITE: ev.bytes at address ev.v of partition ev.i. A write that faults is discarded and recorded. -/
def execHostWrite (s : State) : Host.Outcome State Fault Refusal :=
  let p := s.ev.i
  let va := s.ev.v.toNat
  let n := s.ev.bytes.length
  .next (
    if !inBar s p va n then s
    else match hostFault s p va n true with
      | some (code, a) => hostRecord s p 2 (winDetail code 0 a)
      | none => vput s p va s.ev.bytes)

/-- The first poisoned granule of a range, by address. -/
def hostPoison (s : State) (p va n : Nat) : Option Nat :=
  (granules 64 va n).findSome? (fun k => match xlateWalk s p (64 * k) true false with
    | .ok pa _ => if sysPoisoned s pa 64 then some (64 * k) else none
    | .fault _ => none)

/-- HOST_READ: ev.j bytes at address ev.v of partition ev.i. -/
def execHostRead (s : State) : Host.Outcome State Fault Refusal :=
  let p := s.ev.i
  let va := s.ev.v.toNat
  let n := s.ev.j
  let ones := List.replicate n (0xFF : W8)
  let answer (s : State) (bs : List W8) (bad : Bool) : State := { s with outbox := s.outbox ++ [.readDone bs bad] }
  .next (
    if !inBar s p va n then s
    else match hostFault s p va n false with
      | some (code, a) => answer (hostRecord s p 2 (winDetail code 0 a)) ones false
      | none =>
        let s1 := vtouch s p va n
        match hostPoison s1 p va n with
        | some a => answer (hostRecord s1 p 1 a) ones true
        | none => answer s1 (vbytes s1 p va n) false)

/-! ### Completion interrupts (20:R406) -/

/-- Send the message of a vector, or hold it while it is masked. -/
def sendMsix (s : State) (i : Nat) : State :=
  if s.svc.masked.getD i false then { s with svc := { s.svc with pba := s.svc.pba.set i true } }
  else { s with outbox := s.outbox ++ [.msix (i / 8 + 1) (i % 8) s.now] }

/-- Reference ticks of a vector's window: 2,700 to the microsecond. -/
def windowTicks (s : State) (i : Nat) : Nat := (s.svc.irqwin.getD i 1).toNat * 2700

/-- Send, clear PEND and start the timer. -/
def fireMsix (s : State) (i : Nat) : State :=
  let s1 := sendMsix s i
  { s1 with svc := { s1.svc with pend := s1.svc.pend.set i false, timer := s1.svc.timer.set i (some (s.now + windowTicks s i)) } }

def execHostirq (a : BitVec 6) (g : BitVec 3) (n : BitVec 1) (s : State) : Host.Outcome State Fault Refusal :=
  .next (guarded s g n [a] (fun s' => startStall s' { kind := .hostirq, a := srcS s a }))

/-- HOSTIRQ_RELEASE: every earlier access of the control core has been performed. ev.j is 1 for the urgent context. -/
def execHostirqRelease (s : State) : Host.Outcome State Fault Refusal :=
  let c := s.ev.core
  let u : Bool := s.ev.j = 1
  .next (match stallOf s c u .hostirq with
    | none => s
    | some st =>
      if !coreDrained (s.core c) c then s
      else
        let i := 8 * c.num + (st.a.extractLsb' 0 3).toNat
        let s1 := endStall { s with svc := { s.svc with pend := s.svc.pend.set i true } } c u
        if (s1.svc.timer.getD i none).isNone then fireMsix s1 i else s1)

/-- IRQ_WINDOW_EXPIRY: the timer of vector ev.i mod 8 of VF ev.i / 8 + 1. -/
def execIrqWindowExpiry (s : State) : Host.Outcome State Fault Refusal :=
  let i := s.ev.i
  .next (match s.svc.timer.getD i none with
    | none => s
    | some t =>
      if s.now < t then s
      else if s.svc.pend.getD i false then fireMsix s i
      else { s with svc := { s.svc with timer := s.svc.timer.set i none } })

/-- MSIX_UNMASK: vector ev.i is unmasked and sends what it holds; with ev.j = 1 it is masked. -/
def execMsixUnmask (s : State) : Host.Outcome State Fault Refusal :=
  let i := s.ev.i
  .next (
    if s.ev.j = 1 then { s with svc := { s.svc with masked := s.svc.masked.set i true } }
    else
      let s1 := { s with svc := { s.svc with masked := s.svc.masked.set i false, pba := s.svc.pba.set i false } }
      if s.svc.pba.getD i false then sendMsix s1 i else s1)

/-! ### Repair (20:R410) -/

def execRepair (d : BitVec 5) (a b : BitVec 6) (g : BitVec 3) (n : BitVec 1) (s : State) : Host.Outcome State Fault Refusal :=
  .next (stallS s .repair d a b g n)

/-- Reserved bits of a repair's a. -/
def repairReserved (a : Nat) : Bool :=
  bitsOf a 7 4 ≠ 0 || (match a % 16 with
    | 0 => bitsOf a 63 15 ≠ 0
    | 1 => bitOf a 15 || bitsOf a 63 22 ≠ 0
    | 2 => bitsOf a 15 14 ≠ 0 || bitsOf a 63 19 ≠ 0
    | _ => bitsOf a 63 8 ≠ 0)

/-- The region of a local page belongs to a partition. -/
def regionOf (s : State) (p pa : Nat) : Bool := (s.svc.allot.getD (pa / 2 ^ 28) 0).toNat = 128 + p

/-- The status that the state gives a repair: 0 where it may be done. -/
def repairCheck (s : State) (p a b : Nat) : Nat :=
  if repairReserved a ∨ 4 < a % 16 then 1
  else
    let n := bitsOf a 14 8
    let k := s.core (vmRef n)
    match a % 16 with
    | 0 => if k.part ≠ some p then 2 else if k.ph.gang.isSome then 3 else if s.svc.spares.getD (n / 64) 0 = 0 then 4 else 0
    | 1 => if k.part ≠ some p then 2 else if k.ph.gang.isSome then 3 else if 4 ≤ k.near.spared.length then 4 else 0
    | 2 =>
      let q := bitsOf a 13 8
      if 36 ≤ q ∨ 4 < bitsOf a 18 16 then 1
      else if !(getPart s p).ports.getLsbD q then 2 else if (getPort s q).spareUsed then 4 else 0
    | m =>
      if b % 2 ^ 18 ≠ 0 ∨ 2 ^ 39 ≤ b then 1
      else if !regionOf s p b then 2
      else if m = 3 then (if s.svc.retired.contains (b / 2 ^ 18) then 0 else 1)
      else if s.svc.retired.contains (b / 2 ^ 18) then 1
      else if 4096 ≤ s.svc.retired.length then 4 else 0

/-- A spare takes a core's number: a zeroed vault, the standard routines. -/
def spareCore (s : State) (p n : Nat) : State :=
  let s1 := s.upd (vmRef n) (fun k => { allotCore k (some p) with near := {}, spared := true })
  { s1 with svc := { s1.svc with spares := s1.svc.spares.set (n / 64) (s1.svc.spares.getD (n / 64) 0 - 1) } }

/-- A bank's contents move to a spare bank: corrected, poison kept. -/
def spareBank (s : State) (n bank : Nat) : State :=
  s.upd (vmRef n) (fun k =>
    let m := k.near
    let here (g : Nat) : Bool := bankOf g = bank
    { k with near := { m with
        spared := m.spared ++ [bank], cerr := m.cerr.filter (fun g => !here g), uerr := m.uerr.filter (fun g => !here g)
        poison := (m.uerr.filter here).foldl (fun l g => insNat g l) m.poison } })

/-- The spare lane of a port is swapped in: its flits are replayed after 4,096 ticks. -/
def swapLane (s : State) (q lane : Nat) : State :=
  logError (updPort (replayFrom s q 0 4096) q (fun x => { x with spareUsed := true, failures := 0, retrain := s.now + 4096 }))
    7 (portPartByte s q) (q + lane * 256) 0 0

/-- The effect of a repair. -/
def repairDo (s : State) (p a b : Nat) : State :=
  let n := bitsOf a 14 8
  match a % 16 with
  | 0 => spareCore s p n
  | 1 => spareBank s n (bitsOf a 21 16)
  | 2 => swapLane s (bitsOf a 13 8) (bitsOf a 18 16)
  | 3 => { s with svc := { s.svc with retired := s.svc.retired.filter (· ≠ b / 2 ^ 18) } }
  | _ => { s with svc := { s.svc with retired := s.svc.retired ++ [b / 2 ^ 18] } }

/-- REPAIR_DONE: the repair ends; ev.i = 1 says that it failed. Kind 4 waits as TLBINV does. ev.j is 1 for the urgent
context. -/
def execRepairDone (s : State) : Host.Outcome State Fault Refusal :=
  let c := s.ev.core
  let u : Bool := s.ev.j = 1
  .next (match stallOf s c u .repair with
    | none => s
    | some st =>
      let p := partOf s c
      let e := repairCheck s p st.a.toNat st.b.toNat
      if e ≠ 0 then finishStall s c u st (BitVec.ofNat 64 e)
      else if st.a.toNat % 16 = 4 ∧ (!coreDrained (s.core c) c ∨ farBusy s p) then s
      else if s.ev.i = 1 then finishStall s c u st 5
      else finishStall (repairDo s p st.a.toNat st.b.toNat) c u st 0)

end Sys2Proof.Machine
end

