-- ==== Sys2Proof/Machine/MatrixOps.lean ====
section
/-!
DEFINITION. The M-slot instructions (12:R247 to R260). An operation is planned against the busy windows, the records of the
planes and EPICFG as they will stand (12:R238, R244 to R246, R251 to R255); the plan gives its events and its failed checks.
A routine of the microprogram store (MCALL) plans its steps with the same functions.
-/

namespace Sys2Proof.Machine

/-- Type, sparsity and validity of a plane. -/
structure PRec where
  typ : Nat
  spn : Nat
  valid : Bool
deriving DecidableEq, Repr

/-- Operations being planned: the step cycle, what the array will hold, the events planned, and the checks that failed. -/
structure MPlan where
  t : Nat
  fmt : W32
  opc : Nat
  act : PRec
  shd : PRec
  /-- the record of the shadow plane that stands until the load in progress ends (12:R249) -/
  shdOld : PRec
  busyLoad : Nat
  useShd : Nat
  useAct : Nat
  busyFeed : Nat
  busyDrain : Nat
  lastEnter : Nat
  epi : W8
  cfgs : List (Nat × W8)
  evts : List MEvt := []
  fails : List (W8 × W64) := []
  nextId : Nat
deriving DecidableEq, Repr

def Plane.rec' (p : Plane) : PRec := ⟨p.typ.toNat, p.spn.toNat, p.valid⟩

/-- The records of the planes after these events. -/
def recsAfter (m : Matrix) (l : List MEvt) : PRec × PRec :=
  l.foldl (fun (r : PRec × PRec) e => match e.op with
    | .loaded t n => (r.1, ⟨t.toNat, n.toNat, true⟩)
    | .swap => (r.2, r.1)
    | _ => r) (m.act.rec', m.shd.rec')

/-- The records of the planes once every load and swap already issued has taken place (12:R252). -/
def issuedRecs (m : Matrix) : PRec × PRec := recsAfter m m.evts

/-- The use windows of the planes once every swap already issued has taken place are those that MSWAP left at its issue;
a plan begins from them. -/
def startPlan (s : State) (opc : Nat) : MPlan :=
  let k := me s
  let m := k.mx
  let r := issuedRecs m
  { t := k.clk.arch, fmt := (cx s).fmt, opc := opc, act := r.1, shd := r.2, shdOld := (recsAfter m (m.evts.filter (fun e => e.due ≤ k.clk.arch))).2, busyLoad := m.busyLoad, useShd := m.useShd
    useAct := m.useAct, busyFeed := m.busyFeed, busyDrain := m.busyDrain, lastEnter := m.lastEnter, epi := m.epicfg
    cfgs := m.evts.filterMap (fun e => match e.op with | .cfg v => some (e.due, v) | _ => none), nextId := s.serial }

def MPlan.fail (p : MPlan) (cause : W8) (info : W64) : MPlan := { p with fails := p.fails ++ [(cause, info)] }

def MPlan.failIf (p : MPlan) (b : Bool) (cause : W8) (info : W64) : MPlan := if b then p.fail cause info else p

/-- A unit that is still busy (12:R245). -/
def MPlan.busy (p : MPlan) (b : Bool) : MPlan := p.failIf b 0x09 (BitVec.ofNat 64 p.opc)

def MPlan.badFmt (p : MPlan) (b : Bool) : MPlan := p.failIf b 0x08 (BitVec.ofNat 64 p.opc)

/-- An address of n bytes that is a multiple of the unit and lies in the vault (12:R244). -/
def addrFail (a : W64) (unit n : Nat) : Option W8 :=
  if 2 ^ 23 ≤ a.toNat ∨ 2 ^ 23 < a.toNat + n then some 0x06 else if a.toNat % unit ≠ 0 then some 0x07 else none

/-- Plan events, at cycles after the step, where the address passes. -/
def MPlan.put (p : MPlan) (a : W64) (unit n : Nat) (l : List (Nat × MOp)) : MPlan :=
  match addrFail a unit n with
  | some c => p.fail c a
  | none => { p with evts := p.evts ++ l.map (fun x => ⟨p.t + x.1, x.2⟩) }

def MPlan.at_ (p : MPlan) (d : Nat) (o : MOp) : MPlan := { p with evts := p.evts ++ [⟨p.t + d, o⟩] }

/-- EPICFG as it stands at the step (12:R254). -/
def MPlan.cfgNow (p : MPlan) : W8 := (((p.cfgs.filter (fun c => c.1 ≤ p.t)).getLast?).map (·.2)).getD p.epi

def MPlan.acc1 (p : MPlan) : Bool := fmtAcc p.fmt = 1

/-! ### The operations -/

/-- Weight types, which have a tile (12:R237). -/
def tileType (t : Nat) : Bool := [1, 2, 3, 4, 5, 6, 8, 9, 10, 11, 12, 13].contains t

/-- The record of the shadow plane at the step. -/
def MPlan.shdNow (p : MPlan) : PRec := if p.t + 1 < p.busyLoad then p.shdOld else p.shd

/-- MLOADS (12:R249). Every check is evaluated (04:R87), as far as the type fixes the blocks. -/
def planLoads (p : MPlan) (wa wx : W64) : MPlan :=
  let t := fmtMtb p.fmt
  let bt := if tileType t then tileBlocks t else 0
  let bx := sideBlocks t
  let p1 := (p.badFmt (!comboLoad p.fmt)).busy (p.t < p.busyLoad || p.t < p.useShd)
  let p2 := p1.put wa 512 (512 * bt) ((List.range bt).map (fun b => (2 + b, .tile b (wa.toNat + 512 * b))))
  let p3 := if bx = 0 then p2
    else p2.put wx 512 (512 * bx) ((List.range bx).map (fun b => (2 + bt + b, .side b (wx.toNat + 512 * b))))
  { p3.at_ (1 + bt + bx) (.loaded (BitVec.ofNat 4 t) (BitVec.ofNat 2 (fmtSpn p.fmt))) with
    busyLoad := p.t + 2 + bt + bx, shd := ⟨t, fmtSpn p.fmt, true⟩, shdOld := p.shdNow }

/-- MSPMETA (12:R250). -/
def planMeta (p : MPlan) (a : W64) : MPlan :=
  let r := p.shdNow
  let n := if r.valid then 4 * cellK r.typ else 0
  let p1 := (p.badFmt (!comboLoad p.fmt || !r.valid || r.spn = 0)).busy (p.t < p.busyLoad || p.t < p.useShd)
  { p1.put a 512 (512 * n) ((List.range n).map (fun b => (2 + b, .nib b (a.toNat + 512 * b)))) with
    busyLoad := p.t + 2 + n, shdOld := p.shd }

/-- MSWAP (12:R251, R245). -/
def planSwap (p : MPlan) : MPlan :=
  let p1 := p.busy (p.t < p.busyLoad || p.t + 1 < p.lastEnter)
  { p1.at_ 1 .swap with act := p.shd, shd := p.act, shdOld := p.act, useAct := p.useShd, useShd := p.useAct }

/-- MSTREAM (12:R252). -/
def planStream (p : MPlan) (src : W64) (ar n : Nat) (z : Bool) (buf : Bool) : MPlan :=
  let known := tileType (fmtMta p.fmt) && fmtSpn p.fmt ≤ 2
  let b := rowBytes p.fmt
  let p1 := (p.badFmt (!comboFmt p.fmt || !p.act.valid || p.act.typ ≠ fmtMtb p.fmt || p.act.spn ≠ fmtSpn p.fmt)).busy (p.t < p.busyFeed)
  let p2 := if known then p1.put src b (b * n) ((List.range n).map (fun i =>
      (2 + i, .feed (src.toNat + b * i) b ((ar + i) % 256) z p.fmt (if buf then some i else none)))) else p1.put src 1 0 []
  { p2 with busyFeed := p.t + 2 + n, lastEnter := p.t + 3 + n, useAct := p.t + 2 + n + 64 }

/-- MDRAIN, with the mask and the transposition of a DRN step (12:R255, 13:R269). -/
def planDrain (p : MPlan) (dst : W64) (ar n : Nat) (keep : Bool) (mask : Option W64) (trans : Bool) : MPlan :=
  let cfg := p.cfgNow
  let id := p.nextId
  let rows := if trans then 64 else n
  let q := if trans then (n * drainBits cfg + 7) / 8 else drainBytes cfg
  let p0 := p.busy (p.t < p.busyDrain)
  let p1 := match mask with
    | none => p0
    | some m => p0.put m 8 (8 * rows) ((List.range rows).map (fun j => (1 + j, .maskRd id j (m.toNat + 8 * j))))
  let p2 := if trans then
      (p1.put dst q (q * 64) ((List.range 64).map (fun j =>
        (3 + j, .transWr id j (dst.toNat + q * j) q cfg mask.isSome p.fmt)))).at_ 3 (.transRd id ar n cfg keep mask.isSome p.fmt)
    else p1.put dst q (q * n) ((List.range n).map (fun j =>
      (3 + j, .drain id ((ar + j) % 256) (dst.toNat + q * j) cfg keep p.fmt (if mask.isSome then some j else none))))
  { p2 with busyDrain := p.t + 3 + rows, nextId := id + 1 }

/-- MACC (12:R257). -/
def planMacc (p : MPlan) (dst : W64) (ar n : Nat) : MPlan :=
  let id := p.nextId
  let p1 := (p.badFmt p.acc1).busy (p.t < p.busyDrain)
  { p1.put dst 512 (512 * n) ((List.range n).flatMap (fun j =>
      [(3 + 2 * j, .maccRd id j ar (dst.toNat + 512 * j) p.fmt), (4 + 2 * j, .maccWr id j (dst.toNat + 512 * j) p.fmt)])) with
    busyDrain := p.t + 3 + 2 * n, nextId := id + 1 }

/-- MCLR (12:R256). -/
def planClr (p : MPlan) (ar n : Nat) : MPlan := p.at_ 1 (.clr ar n p.acc1)

/-- MEXP (12:R253). -/
def planExp (p : MPlan) (code : W8) : MPlan := p.at_ 0 (.exp code)

def planCol (p : MPlan) (a : W64) : MPlan := p.put a 512 512 [(2, .epiCol a.toNat)]

def planRow (p : MPlan) (a : W64) : MPlan := p.put a 1024 1024 [(2, .epiRow a.toNat)]

/-- The output type of a configuration is one that the epilogue writes (12:R254). -/
def otypeOk (v : W8) : Bool := (v.extractLsb' 0 4).toNat ≤ 7 || (v.extractLsb' 0 4).toNat = 13

def planCfg (p : MPlan) (v : W8) : MPlan :=
  if otypeOk v then { p.at_ 1 (.cfg v) with cfgs := p.cfgs ++ [(p.t + 1, v)] } else p.badFmt true

/-! ### Committing a plan -/

/-- The first claim of planned events that meets a claim registered before, or one of an earlier event of the plan. -/
def planClash (k : Core) : List MEvt → List MEvt → Option Nat
  | _, [] => none
  | done, e :: t =>
    let taken := (done.filter (fun d => d.due = e.due)).foldl (fun a d => a ||| bankMask (mopGran d.op)) (claimedAt k e.due)
    match (mopGran e.op).find? (fun g => taken.getLsbD (bankOf g)) with
    | some g => some (16 * g)
    | none => planClash k (done ++ [e]) t

/-- Entry cycles of rows that the events will bring. -/
def entryCycles (l : List MEvt) : List Nat :=
  l.filterMap (fun e => match e.op with | .feed _ _ _ _ _ _ => some (e.due + 1) | .enter _ _ _ _ _ _ => some e.due | _ => none)

/-- Mace's window of a later cycle (15:R315, 12:R246). -/
def maceWindowOf (k : Core) (t : Nat) : Nat := (k.ph.phc + (t - k.clk.arch)) / 1024

/-- The planned rows exceed the matrix grant in one of the windows in which they enter. -/
def overDuty (k : Core) (l : List MEvt) : Bool :=
  let new := (entryCycles l).map (maceWindowOf k)
  let old := (entryCycles k.mx.evts).map (maceWindowOf k)
  new.eraseDups.any (fun w =>
    64 * k.ph.grantM < new.count w + old.count w + (if w = k.ph.phc / 1024 then k.ph.mCount else 0))

/-- The failed checks of a plan, with those of claims and duty. -/
def planFails (s : State) (p : MPlan) : List (W8 × W64) :=
  let k := me s
  p.fails ++ (match planClash k [] p.evts with
    | some a => [((0x02 : W8), lateralForm s.cur.core a)]
    | none => []) ++ (if overDuty k p.evts then [((0x04 : W8), (0 : W64))] else [])
    ++ (if k.clk.arch < k.mx.busyRoutine then [((0x09 : W8), BitVec.ofNat 64 p.opc)] else [])

/-- The failure with the lowest cause. -/
def worstCheck (l : List (W8 × W64)) : Option (W8 × W64) := (worstFail (l.map (fun x => (x.1, x.2, 0)))).map (fun x => (x.1, x.2.1))

/-- Put a plan into effect, or trap with the lowest cause among its failed checks. -/
def commitPlan (s : State) (p : MPlan) (f : State → State) : State :=
  match worstCheck (planFails s p) with
  | some x => issueFail s x.1 x.2
  | none => f (updMe { s with serial := max s.serial p.nextId } (fun k => { k with mx := { k.mx with
      evts := k.mx.evts ++ p.evts, busyLoad := p.busyLoad, useShd := p.useShd, useAct := p.useAct, busyFeed := p.busyFeed
      busyDrain := p.busyDrain, lastEnter := p.lastEnter } }))

/-- An M operation: note the reads of its sources, plan and commit. -/
def matrixOp (s : State) (opc : Nat) (srcs : List (BitVec 6)) (f : MPlan → MPlan) : State :=
  commitPlan s (f (startPlan s opc)) (fun s => noteReads s (srcs.map (·.toNat)))

/-- A register result of the M slot (12:R248). -/
def putM (s : State) (L : Nat) (d : BitVec 3) (v : W64) (f : State → State) : State :=
  withRoom s (fun s => f (emit s { newPend s L with
    dst := if ownsW s.cur.head s.cur.slot then .k (headWReg s.cur.head) else .mp d.toNat, val := .w v, latch := some 3 }))

/-- A busy routine holds back every M operation (12:R245). -/
def notInRoutine (s : State) (opc : Nat) (f : State → State) : State :=
  if cyc s < (me s).mx.busyRoutine then issueFail s 0x09 (BitVec.ofNat 64 opc) else f s

/-! ### The instructions -/

def execMset (d : BitVec 3) (s : State) : Host.Outcome State Fault Refusal :=
  .next (notInRoutine s 1 (fun s => putM s 1 d (s.cur.lend.signExtend 64) id))

def execMloads (a x : BitVec 6) (s : State) : Host.Outcome State Fault Refusal :=
  .next (matrixOp s 3 [a, x] (fun p => planLoads p (srcM s a) (srcM s x)))

def execMswap (s : State) : Host.Outcome State Fault Refusal := .next (matrixOp s 4 [] planSwap)

/-- The accumulator row that an operand names. -/
def arOf (v : W64) : Nat := v.toNat % 256

def execMstream (a r : BitVec 6) (n : BitVec 8) (z : BitVec 1) (s : State) : Host.Outcome State Fault Refusal :=
  .next (matrixOp s 5 [a, r] (fun p => planStream p (srcM s a) (arOf (srcM s r)) (n.toNat + 1) (z = 1) false))

def execMexp (e : BitVec 6) (s : State) : Host.Outcome State Fault Refusal :=
  .next (matrixOp s 6 [e] (fun p => planExp p ((srcM s e).setWidth 8)))

def execMdrain (d r : BitVec 6) (n : BitVec 8) (k : BitVec 1) (s : State) : Host.Outcome State Fault Refusal :=
  .next (matrixOp s 7 [d, r] (fun p => planDrain p (srcM s d) (arOf (srcM s r)) (n.toNat + 1) (k = 1) none false))

def execMepiCol (a : BitVec 6) (s : State) : Host.Outcome State Fault Refusal :=
  .next (matrixOp s 8 [a] (fun p => planCol p (srcM s a)))

def execMepiRow (a : BitVec 6) (s : State) : Host.Outcome State Fault Refusal :=
  .next (matrixOp s 8 [a] (fun p => planRow p (srcM s a)))

def execMepiCfg (a : BitVec 6) (s : State) : Host.Outcome State Fault Refusal :=
  .next (matrixOp s 8 [a] (fun p => planCfg p ((srcM s a).setWidth 8)))

def execMclr (r : BitVec 6) (n : BitVec 8) (s : State) : Host.Outcome State Fault Refusal :=
  .next (matrixOp s 9 [r] (fun p => planClr p (arOf (srcM s r)) (n.toNat + 1)))

def execMspmeta (a : BitVec 6) (s : State) : Host.Outcome State Fault Refusal :=
  .next (matrixOp s 10 [a] (fun p => planMeta p (srcM s a)))

def execMacc (d r : BitVec 6) (n : BitVec 7) (s : State) : Host.Outcome State Fault Refusal :=
  .next (matrixOp s 11 [d, r] (fun p => planMacc p (srcM s d) (arOf (srcM s r)) (n.toNat + 1)))

def execMtaintClr (s : State) : Host.Outcome State Fault Refusal := .next (matrixOp s 12 [] (fun p => p.at_ 1 .taintClr))

def execMtaintSet (s : State) : Host.Outcome State Fault Refusal := .next (matrixOp s 12 [] (fun p => p.at_ 1 .taintSet))

/-! ### MSTAT (12:R259, R260) -/

def execMstat (d sel : BitVec 3) (s : State) : Host.Outcome State Fault Refusal :=
  .next (
    let m := (me s).mx
    let v : W64 := match sel.toNat with
      | 0 => arrayStatus m
      | 5 => m.epicfg.setWidth 64
      | i => m.rtaint.extractLsb' (64 * (i - 1)) 64
    notInRoutine s 13 (fun s => putM s 2 d v (fun s =>
      if sel = 0 ∧ m.mflags ≠ 0 then updMe s (fun k => { k with mx := addEvt k.mx (k.clk.arch + 1) (.statClr m.mflags) })
      else s)))

end Sys2Proof.Machine
end

