-- ==== Sys2Proof/Machine/Micro.lean ====
section
/-!
DEFINITION. The microprogram store (13): routine images and their checks, the expansion of a routine's steps at its MCALL, the
standard routines, rasterisation entries, and MCODE with its two events.
-/

namespace Sys2Proof.Machine

abbrev W96 := BitVec 96

/-! ### Words (13:R265, R267) -/

def hdrLen (w : W96) : Nat := (w.extractLsb' 84 12).toNat
def hdrBase (w : W96) : Nat := (w.extractLsb' 64 20).toNat
def hdrCoef1 (w : W96) : Nat := (w.extractLsb' 52 12).toNat
def hdrCoef2 (w : W96) : Nat := (w.extractLsb' 40 12).toNat
def hdrPsel1 (w : W96) : Nat := (w.extractLsb' 37 3).toNat
def hdrPsel2 (w : W96) : Nat := (w.extractLsb' 34 3).toNat
def hdrRreg (w : W96) : Nat := (w.extractLsb' 31 3).toNat
def hdrRcap (w : W96) : Bool := w.getLsbD 30

def uOp (w : W96) : Nat := (w.extractLsb' 92 4).toNat
def uDt (w : W96) : Nat := (w.extractLsb' 80 12).toNat
def uCnt (w : W96) : Nat := (w.extractLsb' 72 8).toNat
def uAreg (w : W96) : Nat := (w.extractLsb' 69 3).toNat
def uAoff (w : W96) : W64 := (w.extractLsb' 48 21).signExtend 64
def uXreg (w : W96) : Nat := (w.extractLsb' 45 3).toNat
def uSreg (w : W96) : Nat := (w.extractLsb' 42 3).toNat
def uAr (w : W96) : Nat := (w.extractLsb' 24 8).toNat
def uFl (w : W96) (i : Nat) : Bool := w.getLsbD (16 + i)
def uRsel (w : W96) : Nat := (w.extractLsb' 20 2).toNat
def uEpi (w : W96) : Nat := (w.extractLsb' 22 2).toNat
/-- Words of a LOOP's body. -/
def uBody (w : W96) : Nat := (w.extractLsb' 12 4).toNat + 1
def uLpReg (w : W96) : Nat := (w.extractLsb' 9 3).toNat
def uLpImm (w : W96) : Bool := w.getLsbD 8

/-! ### Images (13:R265, R270) -/

/-- The words of a routine image. -/
def imageWords (bs : List W8) (n : Nat) : List W96 := (List.range n).map (fun i => BitVec.ofNat 96 (fieldAt bs (12 * i) 12))

/-- A micro-word with a reserved field set or a reserved operation. -/
def badWord (w : W96) : Bool :=
  12 ≤ uOp w || (w.extractLsb' 32 10) ≠ 0 || (w.extractLsb' 0 8) ≠ 0 || (uOp w = 8 && uEpi w = 3)

/-- Loops that hold word i. -/
def loopDepth (ws : List W96) (i : Nat) : Nat :=
  (ws.zip (List.range ws.length)).countP (fun x => uOp x.1 = 10 && x.2 < i && i ≤ x.2 + uBody x.1)

/-- The image is well formed: header, steps, loops whose bodies do not go past an END, and END last. -/
def imageOk (img : List W96) : Bool :=
  match img with
  | [] => false
  | h :: ws =>
    (h.extractLsb' 0 30) = 0 && hdrLen h = ws.length && ws.length ≠ 0 && ws.all (fun w => !badWord w) &&
      (match ws.getLast? with | some w => uOp w = 11 | none => false) &&
      (ws.zip (List.range ws.length)).all (fun x =>
        uOp x.1 ≠ 10 || (decide (x.2 + uBody x.1 < ws.length) && ((ws.drop (x.2 + 1)).take (uBody x.1 - 1)).all (fun w => uOp w ≠ 11)
          && decide (loopDepth ws x.2 < 2)))

/-! ### Raster entries (13:R275, R276) -/

/-- The current phase's run of raster entries of the issuing core. -/
def rasterRun (s : State) : List W64 :=
  let k := me s
  match gangOf s s.cur.core with
  | none => []
  | some g => match g.cur with
    | none => []
    | some (b, i) => match (if b then g.bufB else g.bufA) with
      | none => []
      | some recs => (recs.getD i {}).raster.getD k.ph.gpos []

/-- The raster entry of a call whose control register holds v: 0 where raster mode is off, none where the call traps. -/
def rasterEntry (s : State) (v : W64) (rcap : Bool) : Option W64 :=
  if !v.getLsbD 31 then some 0
  else
    let e := (v.extractLsb' 16 15).toNat
    let run := rasterRun s
    let w := run.getD e 0
    if !rcap || !inPhase s || run.length ≤ e || (w.extractLsb' 48 15) ≠ 0 then none else some w

def rasterField (w : W64) (sel : Nat) : W64 :=
  match sel with
  | 1 => (w.extractLsb' 16 16).setWidth 64
  | 2 => (w.extractLsb' 0 16).setWidth 64
  | 3 => (w.extractLsb' 32 16).setWidth 64
  | _ => 0

/-! ### Steps (13:R267 to R269) -/

/-- The routine being expanded: the plan, the completion cycle of the last step, and whether END has ended it. -/
structure MRun where
  p : MPlan
  prev : Nat
  ended : Bool := false

def mpAt (mp : List W64) (i : Nat) : W64 := mp.getD i 0

def low32 (v : W64) : W64 := (v.extractLsb' 0 32).setWidth 64
def high32 (v : W64) : W64 := (v.extractLsb' 32 32).setWidth 64

/-- The address of a step. -/
def stepAddr (mp : List W64) (ras : W64) (iter : Nat) (w : W96) : W64 :=
  mpAt mp (uAreg w) + 16 * uAoff w + BitVec.ofNat 64 iter * low32 (mpAt mp (uSreg w))
    + rasterField ras (uRsel w) * high32 (mpAt mp (uSreg w))

/-- One step: its plan, and the cycles from the step to its completion. -/
def runStep (mp : List W64) (ras : W64) (iter : Nat) (w : W96) (p : MPlan) : MPlan × Nat :=
  let a := stepAddr mp ras iter w
  let t := fmtMtb p.fmt
  let n := uCnt w + 1
  match uOp w with
  | 1 => (planLoads p a (a + BitVec.ofNat 64 (512 * tileBlocks t)), 1 + tileBlocks t + sideBlocks t)
  | 2 => (planMeta p (a + BitVec.ofNat 64 (512 * (tileBlocks t + sideBlocks t))), 1 + 4 * cellK p.shd.typ)
  | 3 =>
    let x := a + BitVec.ofNat 64 (256 * rowBytes p.fmt)
    (p.put x 512 512 [(2, .xld x.toNat)], 2)
  | 4 => (planSwap p, 0)
  | 5 => (planStream p a (uAr w) n (uFl w 0) (uFl w 1), 1 + n)
  | 6 => (planExp p ((mpAt mp (uAreg w)).setWidth 8), 0)
  | 7 => (planDrain p a (uAr w) n (uFl w 0) (if uFl w 2 then some (mpAt mp (uXreg w)) else none) (uFl w 3), 2 + n)
  | 8 => (match uEpi w with
    | 0 => planCol p a
    | 1 => planRow p a
    | _ => planCfg p ((mpAt mp (uAreg w)).setWidth 8), 0)
  | 9 => (planClr p (uAr w) n, 0)
  | _ => (p, 0)

/-- Run words in order; a LOOP runs its body through `inner`, and END, in a body too, ends the routine. -/
def runWords (mp : List W64) (ras : W64) (inner : Nat → List W96 → MRun → MRun) (iter : Nat) : Nat → List W96 → MRun → MRun
  | 0, _, r => r
  | _, [], r => r
  | k + 1, w :: t, r =>
    let at_ := r.prev + uDt w
    if r.ended then r
    else if uOp w = 11 then { r with ended := true }
    else if uOp w = 10 then
      let count := if uLpImm w then uCnt w + 1 else ((mpAt mp (uLpReg w)).extractLsb' 0 16).toNat
      let r1 := (List.range count).foldl (fun r i => inner i (t.take (uBody w)) r) { r with prev := at_ }
      runWords mp ras inner iter k (t.drop (uBody w)) r1
    else
      let x := runStep mp ras iter w { r.p with t := at_ }
      runWords mp ras inner iter k t { p := x.1, prev := at_ + x.2 }

/-- A routine's words, with loops at most two deep. -/
def runRoutine (mp : List W64) (ras : W64) (ws : List W96) (r : MRun) : MRun :=
  let l2 (i : Nat) (b : List W96) (r : MRun) : MRun := runWords mp ras (fun _ _ r => r) i b.length b r
  let l1 (i : Nat) (b : List W96) (r : MRun) : MRun := runWords mp ras l2 i b.length b r
  runWords mp ras l1 0 ws.length ws r

/-- The last cycle at which an event claims a bank, brings a row into the array or accumulates it (13:R266). -/
def evtLast (e : MEvt) : Nat :=
  match e.op with
  | .feed _ _ _ _ _ _ => e.due + 68
  | o => if mopGran o = [] then 0 else e.due

/-- The routine does not fit its window of n cycles from c. -/
def misfit (p : MPlan) (c n : Nat) : Bool := n = 0 || 2 ^ 24 ≤ n || p.evts.any (fun e => c + n ≤ evtLast e)

/-! ### The standard routines (13:R272 to R274) -/

/-- XLD of the 256 codes at an address. -/
def planXld (p : MPlan) (a : W64) : MPlan := p.put a 512 512 [(2, .xld a.toNat)]

/-- One K-tile of GEMMT or GEMMS whose first block is read at cycle f: the plan, and the cycle after its last row read. -/
def gemmTile (p : MPlan) (f : Nat) (w a : W64) (sparse z : Bool) : MPlan × Nat :=
  let t := fmtMtb p.fmt
  let b := tileBlocks t + sideBlocks t
  let K := cellK t
  let xs := blockScaled (fmtMta p.fmt)
  let p1 := planLoads { p with t := f - 2 } w (w + BitVec.ofNat 64 (512 * tileBlocks t))
  let p2 := if sparse then planMeta { p1 with t := f + b } (w + BitVec.ofNat 64 (512 * b)) else p1
  let e := f + b + (if sparse then 4 * K + 2 else 0)
  let p3 := if xs then planXld { p2 with t := e - 2 } (a + BitVec.ofNat 64 (256 * rowBytes p.fmt)) else p2
  let sw := e + (if xs then 1 else 0)
  let p4 := planSwap { p3 with t := sw }
  (planStream { p4 with t := sw + 1 } a 0 256 z xs, sw + 259)

/-- GEMMT and GEMMS. -/
def planGemm (p : MPlan) (mp : List W64) (ras : W64) (sparse : Bool) : MPlan × Nat :=
  let c := p.t
  let m5 := mpAt mp 5
  let T := (m5.extractLsb' 0 16).toNat
  let N := 258 + 259 * T + (m5.extractLsb' 16 16).toNat
  if T = 0 ∨ 1024 < T ∨ !comboFmt p.fmt ∨ (fmtSpn p.fmt ≠ 0) ≠ sparse then (p.badFmt true, N)
  else
    let p0 := planCfg p ((mpAt mp 7).setWidth 8)
    let w0 := mpAt mp 0 + rasterField ras 1 * high32 (mpAt mp 1)
    let a0 := mpAt mp 2 + rasterField ras 2 * high32 (mpAt mp 3)
    let o := mpAt mp 4 + rasterField ras 3 * high32 (mpAt mp 7)
    let r := (List.range T).foldl (fun (r : MPlan × Nat) i =>
      gemmTile r.1 r.2 (w0 + BitVec.ofNat 64 i * low32 (mpAt mp 1)) (a0 + BitVec.ofNat 64 i * low32 (mpAt mp 3)) sparse
        (i = 0 && !m5.getLsbD 32)) (p0, c + 2)
    (planDrain { r.1 with t := r.2 - 3 } o 0 256 false none false, N)

/-- The format of ATTS, ATTV and XPOSE. -/
def attFmt (f : W32) : Bool := fmtMta f = 1 && fmtMtb f = 1 && fmtAcc f = 0 && fmtSpn f = 0

/-- ATTS (masked), ATTV and XPOSE (transposed): load, swap, stream n rows, drain each row as it is accumulated. -/
def planAtt (p : MPlan) (mp : List W64) (n otype : Nat) (mask trans anyType : Bool) : MPlan :=
  let c := p.t
  let cfg : W8 := (mpAt mp 7).setWidth 8
  if !attFmt p.fmt ∨ n = 0 ∨ 64 < n ∨ (!anyType ∧ (cfg.extractLsb' 0 4).toNat ≠ otype) then p.badFmt true
  else
    let p1 := planLoads (planCfg p cfg) (mpAt mp 0) 0
    let p2 := planSwap { p1 with t := c + 66 }
    let p3 := planStream { p2 with t := c + 67 } (mpAt mp 2) 0 n true false
    planDrain { p3 with t := if trans then c + 197 else c + 134 } (mpAt mp 4) 0 n false
      (if mask then some (mpAt mp 6) else none) trans

/-- A standard routine: its plan and its window. -/
def planStandard (p : MPlan) (mp : List W64) (ras : W64) (i : Nat) : MPlan × Nat :=
  let m5 := mpAt mp 5
  let nq := (m5.extractLsb' 0 16).toNat
  let N := 73 + nq + (m5.extractLsb' 16 16).toNat
  match i with
  | 0 => planGemm p mp ras false
  | 1 => planGemm p mp ras true
  | 2 => (planAtt p mp nq 0 true false false, N)
  | 3 => (planAtt p mp nq 0 false false true, N)
  | _ => (planAtt p mp 64 1 false true false, 264)

/-! ### MCALL (12:R261, 13:R266, R276) -/

/-- The routine of an index: none where the entry is invalid, no words for a standard routine. -/
def routineOf (m : Matrix) (i : Nat) : Option (Option (W96 × List W96)) :=
  match m.udir.find? (fun e => e.1 = i) with
  | none => none
  | some e =>
    if e.2.2 = 0 then some none
    else
      let word (j : Nat) : W96 := ((m.ucode.find? (fun x => x.1 = j)).map (·.2)).getD 0
      some (some (word e.2.1, (List.range e.2.2).map (fun j => word (e.2.1 + 1 + j))))

/-- The plan of a routine call and its window. -/
def planCall (s : State) (i : Nat) : MPlan × Nat :=
  let p := startPlan s 2
  let m := (me s).mx
  let mp := (me s).mp
  match routineOf m i with
  | none => (p.badFmt true, 1)
  | some none =>
    match rasterEntry s (mpAt mp 7) (i ≤ 1) with
    | none => (p.badFmt true, 1)
    | some ras =>
      let r := planStandard p mp ras i
      (r.1.badFmt (misfit r.1 p.t r.2), r.2)
  | some (some (h, ws)) =>
    match rasterEntry s (mpAt mp (hdrRreg h)) (hdrRcap h) with
    | none => (p.badFmt true, 1)
    | some ras =>
      let n := hdrBase h + hdrCoef1 h * ((mpAt mp (hdrPsel1 h)).extractLsb' 0 16).toNat
        + hdrCoef2 h * ((mpAt mp (hdrPsel2 h)).extractLsb' 16 16).toNat
      let r := runRoutine mp ras ws { p := p, prev := p.t }
      (r.p.badFmt (misfit r.p p.t n), n)

def execMcall (i : BitVec 9) (s : State) : Host.Outcome State Fault Refusal :=
  .next (
    let r := planCall s i.toNat
    commitPlan s r.1 (fun s' => updMe s' (fun k => { k with mx := { k.mx with busyRoutine := k.clk.arch + r.2 } })))

/-! ### MCODE (13:R270, R271) -/

def execMcode (d : BitVec 5) (a b : BitVec 6) (g : BitVec 3) (n : BitVec 1) (s : State) : Host.Outcome State Fault Refusal :=
  .next (stallS s .mcode d a b g n)

/-- The outcome of reading and checking an image: its words and targets, or the status. -/
def mcodeCheck (s : State) (p : Nat) (a b : W64) : Sum Nat (List W96 × List Nat) :=
  let first := (b.extractLsb' 0 8).toNat
  let n := (b.extractLsb' 8 8).toNat + 1
  let start := (b.extractLsb' 28 12).toNat
  let cores := (List.range n).map (fun i => first + i)
  if a.toNat % 64 ≠ 0 ∨ (b.extractLsb' 25 3) ≠ 0 ∨ (b.extractLsb' 40 24) ≠ 0 then .inl 1
  else match vread s p a.toNat 12 with
    | .fault _ _ => .inl 3
    | .poison _ => .inl 4
    | .bytes hb =>
      let len := hdrLen (BitVec.ofNat 96 (leNat hb))
      match vread s p a.toNat (12 * (len + 1)) with
      | .fault _ _ => .inl 3
      | .poison _ => .inl 4
      | .bytes bs =>
        let img := imageWords bs (len + 1)
        if !imageOk img ∨ 4095 < len + start then .inl 1
        else if cores.any (fun c => 128 ≤ c || (s.core ⟨false, c⟩).part ≠ some p) then .inl 2
        else .inr (img, cores)

/-- The errors that the read of an image meets (11:R233). -/
def mcodeTouch (s : State) (p : Nat) (a : W64) : State :=
  if a.toNat % 64 ≠ 0 then s
  else match vread s p a.toNat 12 with
    | .bytes hb => vtouch s p a.toNat (12 * (hdrLen (BitVec.ofNat 96 (leNat hb)) + 1))
    | _ => vtouch s p a.toNat 12

/-- Load a routine image into one core's store. -/
def loadRoutine (m : Matrix) (i start : Nat) (img : List W96) : Matrix :=
  let stop := start + img.length
  let overlaps (e : Nat × Nat × Nat) : Bool :=
    if e.2.2 = 0 then (List.range (min stop 384 - start)).any (fun j => Config.stdWord (start + j) = e.1)
    else decide (start < e.2.1 + e.2.2 + 1 ∧ e.2.1 < stop)
  { m with
    udir := m.udir.filter (fun e => e.1 ≠ i && !overlaps e) ++ [(i, start, img.length - 1)]
    ucode := m.ucode.filter (fun x => !(start ≤ x.1 && x.1 < stop)) ++ ((List.range img.length).map (fun j => start + j)).zip img }

/-- MCODE_TARGET_LOAD (13:R271): core ev.i takes the image of an MCODE of control core ev.core, once it is outside
timetabled phases. -/
def execMcodeTargetLoad (s : State) : Host.Outcome State Fault Refusal :=
  let c := s.ev.core
  let u : Bool := s.ev.j = 1
  .next (match stallOf s c u .mcode, (s.core c).ctl.mcode.find? (fun j => j.urg = u) with
    | some st, some job =>
      let t : CoreRef := ⟨false, s.ev.i⟩
      if job.left.contains s.ev.i ∧ !(s.core t).timed then
        let s1 := s.upd t (fun k => { k with mx := loadRoutine k.mx (st.b.extractLsb' 16 9).toNat (st.b.extractLsb' 28 12).toNat job.img })
        s1.upd c (fun k => { k with ctl := { k.ctl with mcode := k.ctl.mcode.map (fun j =>
          if j.urg = u then { j with left := j.left.filter (· ≠ s.ev.i) } else j) } })
      else s
    | _, _ => s)

/-- MCODE_DONE (13:R270): the image is read and checked; the instruction completes with its status, at once where a check
fails, and after the last target has loaded where none does. -/
def execMcodeDone (s : State) : Host.Outcome State Fault Refusal :=
  let c := s.ev.core
  let u : Bool := s.ev.j = 1
  .next (match stallOf s c u .mcode with
    | none => s
    | some st => match (s.core c).ctl.mcode.find? (fun j => j.urg = u) with
      | none =>
        let s := mcodeTouch s (partOf s c) st.a
        match mcodeCheck s (partOf s c) st.a st.b with
        | .inl v => finishStall s c u st (BitVec.ofNat 64 v)
        | .inr r => s.upd c (fun k => { k with ctl := { k.ctl with mcode := k.ctl.mcode ++ [⟨u, r.1, r.2⟩] } })
      | some job =>
        if job.left = [] then
          finishStall (s.upd c (fun k => { k with ctl := { k.ctl with mcode := k.ctl.mcode.filter (fun j => j.urg ≠ u) } })) c u st 0
        else s)

end Sys2Proof.Machine
end

