-- ==== Sys2Proof/Machine/VecPair.lean ====
section
/-!
DEFINITION. Exact pairs, double words and reductions of the V slots (07:R148 to R156, 02:R35, R40 to R43). All of it rounds
to nearest even.
-/

namespace Sys2Proof.Machine

/-! ### Pairs -/

/-- The lanes of two registers side by side. -/
def zipPair (a b : Lanes) : List (W32 × W32) := a.zip b

/-- A pair source: registers n and n+1 of the slot's own file. -/
def srcPair (s : State) (i : BitVec 4) : List (W32 × W32) :=
  zipPair (readV (cx s) (isY s) (2 * i.toNat)) (readV (cx s) (isY s) (2 * i.toNat + 1))

def negCode (a : W32) : W32 := a ^^^ 0x80000000

/-- VADD2, VSUB2 and VMUL2 (07:R148). -/
def execVadd2 (d : BitVec 4) (a b : BitVec 6) (s : State) : Host.Outcome State Fault Refusal :=
  .next (resultFP2 s [a, b] 5 d (List.zipWith twoSum (srcV s true a) (srcV s true b)))

def execVsub2 (d : BitVec 4) (a b : BitVec 6) (s : State) : Host.Outcome State Fault Refusal :=
  .next (resultFP2 s [a, b] 5 d (List.zipWith (fun x y => twoSum x (negCode y)) (srcV s true a) (srcV s true b)))

def execVmul2 (d : BitVec 4) (a b : BitVec 6) (s : State) : Host.Outcome State Fault Refusal :=
  .next (resultFP2 s [a, b] 5 d (List.zipWith twoProd (srcV s true a) (srcV s true b)))

/-! ### Double words (07:R150 to R153) -/

/-- The exact sum of two values, infinities included. -/
def exactAdd (a b : FV) : FV :=
  match a, b with
  | .fin s m e, .fin s' m' e' =>
    let ts := [FV.fin s m e, .fin s' m' e']
    fofInt (fsumAt (fexp0 ts) ts) (fexp0 ts)
  | .inf s, .inf s' => if s = s' then .inf s else .nan
  | .inf s, .fin _ _ _ => .inf s
  | .fin _ _ _, .inf s => .inf s
  | _, _ => .nan

def rneAdd (a b : W32) : W32 := (fadd .f32 .rne false (f32v a) (f32v b)).v

def rneMul (a b : W32) : W32 := (fmul .f32 .rne false (f32v a) (f32v b)).v

def fin32 (a : W32) : Bool := !fisNan (f32v a) && !fisInf (f32v a)

/-- The steps of R150, and whether every one of them was finite. -/
def dwaddSteps (ah al bh bl : W32) : W32 × W32 × Bool :=
  let p := twoSum ah bh
  let t := twoSum al bl
  let c := rneAdd p.2.1 t.1
  let v := twoSum p.1 c
  let w := rneAdd t.2.1 v.2.1
  let z := twoSum v.1 w
  (z.1, z.2.1, [p.1, t.1, c, v.1, w, z.1].all fin32)

def dwaddsSteps (ah al b : W32) : W32 × W32 × Bool :=
  let p := twoSum ah b
  let v := rneAdd al p.2.1
  let z := twoSum p.1 v
  (z.1, z.2.1, [p.1, v, z.1].all fin32)

def dwmulSteps (ah al bh bl : W32) : W32 × W32 × Bool :=
  let c := twoProd ah bh
  let t1 := rneMul ah bl
  let t2 := rneMul al bh
  let c2 := rneAdd t1 t2
  let c3 := rneAdd c.2.1 c2
  let z := twoSum c.1 c3
  (z.1, z.2.1, [c.1, t1, t2, c2, c3, z.1].all fin32)

def dwmulsSteps (ah al b : W32) : W32 × W32 × Bool :=
  let c := twoProd ah b
  let c2 := rneMul al b
  let c3 := rneAdd c.2.1 c2
  let z := twoSum c.1 c3
  (z.1, z.2.1, [c.1, c2, c3, z.1].all fin32)

/-- The cases of R151: the input halves, the exact result X in the extended reals, and the steps of R150. -/
def dwResult (ins : List W32) (X : FV) (st : W32 × W32 × Bool) : W32 × W32 × W8 :=
  if ins.any (fun a => fisNan (f32v a)) then (FT.nan .f32, 0, 0)
  else if ins.any (fun a => fisInf (f32v a)) then
    (match X with
     | .nan => (FT.nan .f32, 0, fINV)
     | x => ((fput .f32 .rne false x).v, 0, 0))
  else if st.2.2 then
    (st.1, st.2.1, if feq (exactAdd (f32v st.1) (f32v st.2.1)) X then 0 else fINX)
  else
    let r := fput .f32 .rne false X
    (r.v, 0, (r.f &&& (fOVF ||| fINX)) ||| fPOVF)

def pairVal (p : W32 × W32) : FV := exactAdd (f32v p.1) (f32v p.2)

def dwaddL (a b : W32 × W32) : W32 × W32 × W8 :=
  dwResult [a.1, a.2, b.1, b.2] (exactAdd (pairVal a) (pairVal b)) (dwaddSteps a.1 a.2 b.1 b.2)

def dwaddsL (a : W32 × W32) (b : W32) : W32 × W32 × W8 :=
  dwResult [a.1, a.2, b] (exactAdd (pairVal a) (f32v b)) (dwaddsSteps a.1 a.2 b)

def dwmulL (a b : W32 × W32) : W32 × W32 × W8 :=
  dwResult [a.1, a.2, b.1, b.2] (fprod (pairVal a) (pairVal b)).1 (dwmulSteps a.1 a.2 b.1 b.2)

def dwmulsL (a : W32 × W32) (b : W32) : W32 × W32 × W8 :=
  dwResult [a.1, a.2, b] (fprod (pairVal a) (f32v b)).1 (dwmulsSteps a.1 a.2 b)

def execDwadd (d a b : BitVec 4) (s : State) : Host.Outcome State Fault Refusal :=
  .next (resultFP2 s [] 8 d (List.zipWith dwaddL (srcPair s a) (srcPair s b)))

def execDwadds (d a : BitVec 4) (b : BitVec 6) (s : State) : Host.Outcome State Fault Refusal :=
  .next (resultFP2 s [b] 8 d (List.zipWith dwaddsL (srcPair s a) (srcV s true b)))

def execDwmul (d a b : BitVec 4) (s : State) : Host.Outcome State Fault Refusal :=
  .next (resultFP2 s [] 8 d (List.zipWith dwmulL (srcPair s a) (srcPair s b)))

def execDwmuls (d a : BitVec 4) (b : BitVec 6) (s : State) : Host.Outcome State Fault Refusal :=
  .next (resultFP2 s [b] 8 d (List.zipWith dwmulsL (srcPair s a) (srcV s true b)))

def execDwnorm (d a : BitVec 4) (s : State) : Host.Outcome State Fault Refusal :=
  .next (resultFP2 s [] 8 d ((srcPair s a).map (fun p => twoSum p.1 p.2)))

def execDwcvt (w : BitVec 1) (d : BitVec 5) (a : BitVec 4) (s : State) : Host.Outcome State Fault Refusal :=
  .next (resultFP s [] 8 8 w d ((srcPair s a).map (fun p => fadd .f32 .rne false (f32v p.1) (f32v p.2))))

/-! ### Reductions (07:R154 to R156) -/

/-- The 16 lanes of cluster k. -/
def cluster (l : Lanes) (k : Nat) : Lanes := (l.drop (16 * k)).take 16

/-- Lane 16k of every cluster. -/
def headLanes : W128 := (List.range 8).foldl (fun a k => a ||| (1#128 <<< (16 * k))) 0

/-- Inactive lanes replaced by an identity (02:R41). -/
def identLanes (act : W128) (e : W32) (l : Lanes) : Lanes :=
  (l.zip laneIdx).map (fun p => if act.getLsbD p.2 then p.1 else e)

def f32MinusZero : W32 := 0x80000000
def f32MinusInf : W32 := 0xFF800000
def f32PlusInf : W32 := 0x7F800000

def addRne (a b : FR) : FR :=
  let r := fadd .f32 .rne false (f32v a.v) (f32v b.v)
  ⟨r.v, a.f ||| b.f ||| r.f⟩

/-- One level of the tree of R40. -/
def pairUp {α : Type} (f : α → α → α) : List α → List α
  | a :: b :: t => f a b :: pairUp f t
  | l => l

/-- Four levels over 16 lanes. -/
def tree16 {α : Type} (f : α → α → α) (l : List α) : List α := pairUp f (pairUp f (pairUp f (pairUp f l)))

/-- VRSUM of one cluster. -/
def sum16 (l : Lanes) : FR := ((tree16 addRne (l.map noFlag)).head?).getD ⟨0, 0⟩

/-- Some lane of cluster k is active. -/
def someLane (act : W128) (k : Nat) : Bool := act.extractLsb' (16 * k) 16 ≠ 0

/-- VRSUM2 of one cluster: s, c and the flags of the s chain. -/
def sum16x2 (l : Lanes) : W32 × W32 × W8 :=
  l.tail.foldl (fun (a : W32 × W32 × W8) v =>
    let t := twoSum a.1 v
    (t.1, rneAdd a.2.1 t.2.1, a.2.2 ||| t.2.2)) ((l.head?).getD 0, 0, 0)

/-- Eight cluster results as a vector, in lane 16k of cluster k. The other lanes, lane 1 among them, have no result and hold 0, which is
what k[WREG][63:32] takes under the write port (DESIGN CHOICE, entry 36). -/
def spread (l : List W32) : Lanes :=
  (List.range 8).flatMap (fun k => l.getD k 0 :: List.replicate 15 0)

/-- Flags of the clusters whose lane 16k is active. -/
def headFlags (act : W128) (l : List W8) : W8 :=
  (List.range 8).foldl (fun a k => if act.getLsbD (16 * k) then a ||| l.getD k 0 else a) 0

/-- A counted cluster reduction with one result register; e is the identity, and z the result of a cluster without active lanes
(02:R41). -/
def reduce1 (s : State) (w : BitVec 1) (d : BitVec 5) (a : BitVec 6) (e z : W32) (f : Lanes → FR) : State :=
  let act := activeLanes (cx s) (isY s)
  let src := identLanes act e (srcV s true a)
  let rs := (List.range 8).map (fun k => if someLane act k then f (cluster src k) else noFlag z)
  vfpOp s (fun s' => putRed (noteReads s' [a.toNat]) 10 w d (act &&& headLanes) (spread (rs.map (·.v))) (headFlags act (rs.map (·.f))))

def execVrsum (w : BitVec 1) (d : BitVec 5) (a : BitVec 6) (s : State) : Host.Outcome State Fault Refusal :=
  .next (reduce1 s w d a f32MinusZero 0 sum16)

def execVrmax (w : BitVec 1) (d : BitVec 5) (a : BitVec 6) (s : State) : Host.Outcome State Fault Refusal :=
  .next (reduce1 s w d a f32MinusInf f32MinusInf (fun l => noFlag (((tree16 (fmaxCode .f32) l).head?).getD 0)))

def execVrmin (w : BitVec 1) (d : BitVec 5) (a : BitVec 6) (s : State) : Host.Outcome State Fault Refusal :=
  .next (reduce1 s w d a f32PlusInf f32PlusInf (fun l => noFlag (((tree16 (fminCode .f32) l).head?).getD 0)))

def execVrsum2 (d : BitVec 4) (a : BitVec 6) (s : State) : Host.Outcome State Fault Refusal :=
  let act := activeLanes (cx s) (isY s)
  let src := identLanes act f32MinusZero (srcV s true a)
  let rs := (List.range 8).map (fun k => if someLane act k then sum16x2 (cluster src k) else (0, 0, 0))
  let l := ((spread (rs.map (·.1))).zip (spread (rs.map (·.2.1)))).zip laneIdx
  let row := l.map (fun p => (p.1.1, p.1.2, if p.2 % 16 = 0 then (rs.getD (p.2 / 16) (0, 0, 0)).2.2 else 0))
  .next (vfpOp s (fun s' => putP (noteReads s' [a.toNat]) 14 (2 * d.toNat) (act &&& headLanes) row))

/-- Lane 16k of every cluster, with the identity where it is inactive. -/
def headsOf (act : W128) (e : W32) (l : Lanes) : List W32 :=
  (List.range 8).map (fun k => if act.getLsbD (16 * k) then lane l (16 * k) else e)

/-- The chain of XRED over the eight cluster values. -/
def chain (f : FR → W32 → FR) (l : List W32) : FR := l.tail.foldl f (noFlag ((l.head?).getD 0))

/-- The kinds with one register; a sum without clusters that take part is +0 (02:R41). -/
def xredChain (k : BitVec 2) (act : W128) (l : Lanes) : FR :=
  if k = 0 ∧ act &&& headLanes = 0 then noFlag 0
  else if k = 0 then chain (fun a v => addRne a (noFlag v)) (headsOf act f32MinusZero l)
  else if k = 1 then chain (fun a v => noFlag (fmaxCode .f32 a.v v)) (headsOf act f32MinusInf l)
  else chain (fun a v => noFlag (fminCode .f32 a.v v)) (headsOf act f32PlusInf l)

/-- The pair kind. -/
def xredPair (act : W128) (a b : Lanes) : W32 × W32 × W8 :=
  if act &&& headLanes = 0 then (0, 0, 0) else
  let hs := headsOf act f32MinusZero a
  let ls := headsOf act f32MinusZero b
  (hs.zip ls).tail.foldl (fun (r : W32 × W32 × W8) v =>
    let t := twoSum r.1 v.1
    (t.1, rneAdd (rneAdd r.2.1 v.2) t.2.1, r.2.2 ||| t.2.2)) ((hs.head?).getD 0, (ls.head?).getD 0, 0)

/-- XRED (07:R156). A constant in va is an integer, since the list of 03:R59 does not name opcode 74 (DEDUCED, entry 100). -/
def execXred (w : BitVec 1) (d : BitVec 5) (a : BitVec 6) (k : BitVec 2) (s : State) : Host.Outcome State Fault Refusal :=
  let act := activeLanes (cx s) (isY s)
  if k = 3 then
    let va := readV (cx s) (isY s) a.toNat
    let vb := readV (cx s) (isY s) (a.toNat + 1)
    let r := xredPair act va vb
    .next (vfpOp s (fun s' => putP s' 18 d.toNat (act &&& 1) (r :: List.replicate 127 (0, 0, 0))))
  else
    let r := xredChain k act (srcV s false a)
    .next (vfpOp s (fun s' => putRed (noteReads s' [a.toNat]) 18 w d (act &&& 1) (r.v :: List.replicate 127 0)
      (if act.getLsbD 0 then r.f else 0)))

end Sys2Proof.Machine
end

