-- ==== Sys2Proof/Machine/Move.lean ====
section
/-!
DEFINITION. Movement of lanes, index, count and scan, lane masks and draft trees (08:R171 to R176), vector draws
(18:R382), and the copies between files (05:R106 to R108).
-/

namespace Sys2Proof.Machine

/-! ### In-cluster movement (08:R172) -/

/-- Lane i of va for i < 16, else lane i - 16 of vc, each within the cluster of L. -/
def permLane (a c : Lanes) (L : Nat) (i : W32) : W32 :=
  let k := 16 * (L / 16)
  let j := i.toNat % 32
  if j < 16 then lane a (k + j) else lane c (k + j - 16)

def execVperm (w : BitVec 1) (d : BitVec 5) (a b c : BitVec 6) (s : State) : Host.Outcome State Fault Refusal :=
  .next (resultV s [a, b, c] 2 2 w d (List.zipWith (permLane (srcV s false a) (srcV s false c)) laneIdx (srcV s false b)) 0)

def execVbcast (w : BitVec 1) (d : BitVec 5) (a : BitVec 6) (p : BitVec 4) (s : State) : Host.Outcome State Fault Refusal :=
  .next (resultV s [a] 2 2 w d (laneIdx.map (fun L => lane (srcV s false a) (16 * (L / 16) + p.toNat))) 0)

def execVmov (w : BitVec 1) (d : BitVec 5) (a : BitVec 6) (s : State) : Host.Outcome State Fault Refusal :=
  .next (resultV s [a] 2 2 w d (srcV s false a) 0)

/-- VMOVI takes the lend word of its bundle. -/
def execVmovi (w : BitVec 1) (d : BitVec 5) (s : State) : Host.Outcome State Fault Refusal :=
  .next (resultV s [] 2 2 w d (List.replicate 128 s.cur.lend) 0)

/-! ### Movement between clusters (08:R173) -/

/-- XCL: cluster k takes cluster k - s, or k + s with u = 1. -/
def execXcl (w : BitVec 1) (d : BitVec 5) (a : BitVec 6) (u : BitVec 1) (n : BitVec 3) (s : State) :
    Host.Outcome State Fault Refusal :=
  let off := if u = 0 then 8 - n.toNat else n.toNat
  .next (resultV s [a] (3 + 2 * n.toNat) (3 + 2 * n.toNat) w d
    (laneIdx.map (fun L => lane (srcV s false a) (16 * ((L / 16 + off) % 8) + L % 16))) 0)

/-- The lanes of clusters c to c + n, modulo 8. -/
def spanLanes (c n : Nat) : W128 :=
  (List.range (n + 1)).foldl (fun a j => a ||| (0xFFFF#128 <<< (16 * ((c + j) % 8)))) 0

/-- XCLB (08:R173). DESIGN CHOICE (entry 36): under the write port lanes 0 and 1 as computed go to k[WREG] also where cluster 0 is not
among clusters c to c + s, which R173 does not settle. -/
def execXclb (w : BitVec 1) (d : BitVec 5) (a : BitVec 6) (n c : BitVec 3) (s : State) : Host.Outcome State Fault Refusal :=
  let L := 3 + 2 * n.toNat
  let act := activeLanes (cx s) (isY s) &&& spanLanes c.toNat n.toNat
  let l := laneIdx.map (fun i => lane (srcV s false a) (16 * c.toNat + i % 16))
  .next (withRoom s (fun s' => putV (noteReads s' [a.toNat]) L L w d act l 0))

/-! ### Index, count and scan (08:R174) -/

def execViota (w : BitVec 1) (d : BitVec 5) (a : BitVec 6) (n : BitVec 12) (s : State) : Host.Outcome State Fault Refusal :=
  .next (resultV s [a] 2 2 w d
    (List.zipWith (fun v L => v + BitVec.ofNat 32 L * n.signExtend 32) (srcV s false a) laneIdx) 0)

/-- Active lanes of cluster k whose lane is nonzero. -/
def countCluster (act : W128) (l : Lanes) (k : Nat) : W32 :=
  BitVec.ofNat 32 ((((l.zip laneIdx).drop (16 * k)).take 16).countP (fun p => act.getLsbD p.2 && p.1 ≠ 0))

/-- VCOUNT (08:R174). DESIGN CHOICE (entry 36): under the write port k[WREG][63:32] takes 0, since the rule computes no lane 1. -/
def execVcount (w : BitVec 1) (d : BitVec 5) (a : BitVec 6) (s : State) : Host.Outcome State Fault Refusal :=
  let act := activeLanes (cx s) (isY s)
  let l := (List.range 8).map (countCluster act (srcV s false a))
  .next (withRoom s (fun s' => putV (noteReads s' [a.toNat]) 2 2 w d (act &&& headLanes) (spread l) 0))

/-- Prefixes of a list under f, from z; the exclusive form gives the value before each element. -/
def scanList {α : Type} (f : α → α → α) (excl : Bool) : α → List α → List α
  | _, [] => []
  | z, v :: t => (if excl then z else f z v) :: scanList f excl (f z v) t

/-- One scan per cluster. -/
def scanClusters {α : Type} (f : List α → List α) (l : List α) : List α :=
  (List.range 8).flatMap (fun k => f ((l.drop (16 * k)).take 16))

/-- An f32 prefix with the flags of its own addition only. -/
def scanFadd (l : Lanes) : List FR :=
  scanList (fun a v => fadd .f32 .rne false (f32v a.v) (f32v v.v)) false ⟨f32MinusZero, 0⟩ (l.map noFlag)

def execVscan (w : BitVec 1) (d : BitVec 5) (a : BitVec 6) (k : BitVec 2) (s : State) : Host.Outcome State Fault Refusal :=
  let act := activeLanes (cx s) (isY s)
  if k = 0 ∨ k = 1 then
    .next (resultV s [a] 6 6 w d
      (scanClusters (scanList (fun x y => x + y) (k = 1) 0) (identLanes act 0 (srcV s false a))) 0)
  else
    .next (resultFP s [a] 6 6 w d (scanClusters (fun l => scanFadd (l.map (·.v))) ((identLanes act f32MinusZero (srcV s false a)).map noFlag)))

/-! ### Lane masks (08:R175) -/

/-- A mask register of the slot's own file. -/
def laneMask (s : State) (i : BitVec 3) : W128 := readMask (cx s) (isY s) i.toNat

/-- A mask whose bit L is f of lane L. -/
def maskFrom (l : Lanes) (f : W32 → Bool) : W128 :=
  (l.zip laneIdx).foldl (fun a p => if f p.1 then a ||| (1#128 <<< p.2) else a) 0

/-- Write a mask at c+2: all 128 bits, no latch; mask 0 discards (05:R91). -/
def putMask (s : State) (i : BitVec 3) (m : W128) : State :=
  withRoom s (fun s => emit s { newPend s 2 with
    dst := if i = 0 then .none else .mask (isY s) i.toNat, val := .m m })

def execVmopTest (a : BitVec 6) (i : BitVec 3) (b : BitVec 6) (s : State) : Host.Outcome State Fault Refusal :=
  .next (putMask (noteReads s [a.toNat]) i (maskFrom (srcV s false a) (fun v => v.getLsbD b.toNat)))

def execVmopNz (a : BitVec 6) (i : BitVec 3) (s : State) : Host.Outcome State Fault Refusal :=
  .next (putMask (noteReads s [a.toNat]) i (maskFrom (srcV s false a) (fun v => v ≠ 0)))

def execVmopGet (w : BitVec 1) (d : BitVec 5) (i : BitVec 3) (s : State) : Host.Outcome State Fault Refusal :=
  .next (resultV s [] 2 2 w d (laneIdx.map (fun L => if (laneMask s i).getLsbD L then 1 else 0)) 0)

def execVmopAnd (i j : BitVec 3) (s : State) : Host.Outcome State Fault Refusal :=
  .next (putMask s i (laneMask s i &&& laneMask s j))

def execVmopOr (i j : BitVec 3) (s : State) : Host.Outcome State Fault Refusal :=
  .next (putMask s i (laneMask s i ||| laneMask s j))

def execVmopXor (i j : BitVec 3) (s : State) : Host.Outcome State Fault Refusal :=
  .next (putMask s i (laneMask s i ^^^ laneMask s j))

def execVmopNot (i j : BitVec 3) (s : State) : Host.Outcome State Fault Refusal :=
  .next (putMask s i (~~~ laneMask s j))

/-! ### Draft-token trees (08:R176) -/

/-- Byte m of the table in the cluster whose first lane is k. -/
def treeByte (l : Lanes) (k m : Nat) : Nat := ((lane l (k + m / 4)) >>> (8 * (m % 4))).toNat % 256

/-- Node m and its ancestors, as bits. -/
def ancestors (l : Lanes) (k : Nat) : Nat → Nat → W64
  | 0, _ => 0
  | fuel + 1, m =>
    let p := treeByte l k m
    (1#64 <<< m) ||| (if p < m then ancestors l k fuel p else 0)

def treeLane (l : Lanes) (L : Nat) : W32 :=
  (ancestors l (16 * (L / 16)) 64 (L / 2)).extractLsb' (32 * (L % 2)) 32

def execVtree (w : BitVec 1) (d : BitVec 5) (a : BitVec 6) (s : State) : Host.Outcome State Fault Refusal :=
  .next (resultV s [a] 12 12 w d (laneIdx.map (treeLane (srcV s false a))) 0)

/-! ### Vector draws (18:R382) -/

def drawLane (kc : W128 × W128) (word L : Nat) : W32 :=
  (streamF kc.1 (kc.2 + BitVec.ofNat 128 L)).extractLsb' (32 * word) 32

def execVrand (w : BitVec 1) (d : BitVec 5) (n k : BitVec 2) (s : State) : Host.Outcome State Fault Refusal :=
  .next (resultV s [] 4 4 w d (laneIdx.map (drawLane (slotKC s k.toNat) n.toNat)) 0)

/-- VRAND.a: the draw at c+4 and the counter's advance at c+1, one operation of its slot (19:R389). -/
def execVrandA (w : BitVec 1) (d : BitVec 5) (n k : BitVec 2) (s : State) : Host.Outcome State Fault Refusal :=
  let kc := slotKC s k.toNat
  .next (withRoom s (fun s' =>
    let s1 := updCx s' (fun x => { x with pends := x.pends ++ [{ newPend s' 1 with effs := [.sctr k.toNat (kc.2 + 128)] }] })
    putV s1 4 4 w d (activeLanes (cx s) (isY s)) (laneIdx.map (drawLane kc n.toNat)) 0))

/-! ### Copies (05:R106 to R108) -/

def execPutk (a : BitVec 6) (g : BitVec 3) (n : BitVec 1) (s : State) : Host.Outcome State Fault Refusal :=
  .next (guarded s g n [a] (fun s' => emit s' { newPend s' 1 with dst := .k (headWReg s.cur.head), val := .w (srcS s a), latch := some 0 }))

/-- STOV: every active lane of the destination file takes bits [31:0]. -/
def execStov (d : BitVec 5) (a : BitVec 6) (g : BitVec 3) (n : BitVec 1) (v : BitVec 1) (s : State) :
    Host.Outcome State Fault Refusal :=
  let y : Bool := v = 1
  let act := activeLanes (cx s) y
  let l : Lanes := List.replicate 128 ((srcS s a).setWidth 32)
  .next (guarded s g n [a] (fun s' => emit s' { newPend s' 2 with
    dst := .vec y d.toNat act, val := .v (maskLanes act l), latch := some (if y then 2 else 1) }))

def execStom (d : BitVec 5) (a : BitVec 6) (g : BitVec 3) (n : BitVec 1) (s : State) : Host.Outcome State Fault Refusal :=
  .next (guarded s g n [a] (fun s' => emit s' { newPend s' 1 with dst := .mp d.toNat, val := .w (srcS s a), latch := some 3 }))

/-- XCOPY: the other V file, under its own active lanes; with w = 1 the value enters its latch line only. Under the write port
lanes 1 and 0 go to the common register and into the issuing slot's line (03:R61). -/
def execXcopy (w : BitVec 1) (d : BitVec 5) (a : BitVec 6) (s : State) : Host.Outcome State Fault Refusal :=
  let y := !isY s
  let act := activeLanes (cx s) y
  let l := srcV s false a
  .next (withRoom s (fun s' =>
    let s1 := noteReads s' [a.toNat]
    if ownsW s.cur.head s.cur.slot then
      emit s1 { newPend s' 2 with dst := .k (headWReg s.cur.head), val := .w (lane l 1 ++ lane l 0), latch := some s.cur.slot }
    else emit s1 { newPend s' 2 with
      dst := if w = 1 then .none else .vec y d.toNat act, val := .v (maskLanes act l), latch := some (if y then 2 else 1) }))

/-- The two lanes that VTOS and VPUTK join: L from bits [6:0] of vb's lane 0. -/
def twoLanes (s : State) (a b : BitVec 6) : W64 :=
  let L := (lane (srcV s false b) 0).toNat % 128
  lane (srcV s false a) ((L + 1) % 128) ++ lane (srcV s false a) L

def execVtos (d : BitVec 5) (a b : BitVec 6) (s : State) : Host.Outcome State Fault Refusal :=
  let own := ownsW s.cur.head s.cur.slot
  .next (withRoom s (fun s' => emit (noteReads s' [a.toNat, b.toNat]) { newPend s' 3 with
    dst := dstS s d.toNat, val := .w (twoLanes s a b), latch := some (if own then s.cur.slot else 0) }))

def execVputk (a b : BitVec 6) (s : State) : Host.Outcome State Fault Refusal :=
  .next (withRoom s (fun s' => emit (noteReads s' [a.toNat, b.toNat]) { newPend s' 3 with
    dst := .k (headWReg s.cur.head), val := .w (twoLanes s a b), latch := some s.cur.slot }))

end Sys2Proof.Machine
end

