-- ==== Sys2Proof/Machine/Dispatch.lean ====
section
/-!
DEFINITION. What each operation and each action of the machine means: one arm for every constructor of Instr.
-/

namespace Sys2Proof.Machine

def exec (i : Instr) (s : State) : Host.Outcome State Fault Refusal :=
  match i with
  | .add d a b g n => Sys2Proof.Machine.execAdd d a b g n s
  | .sub d a b g n => Sys2Proof.Machine.execSub d a b g n s
  | .mul d a b g n => Sys2Proof.Machine.execMul d a b g n s
  | .mulh d a b g n z => Sys2Proof.Machine.execMulh d a b g n z s
  | .div d a b g n z => Sys2Proof.Machine.execDiv d a b g n z s
  | .rem d a b g n z => Sys2Proof.Machine.execRem d a b g n z s
  | .and d a b g n => Sys2Proof.Machine.execAnd d a b g n s
  | .or d a b g n => Sys2Proof.Machine.execOr d a b g n s
  | .xor d a b g n => Sys2Proof.Machine.execXor d a b g n s
  | .andn d a b g n => Sys2Proof.Machine.execAndn d a b g n s
  | .shl d a b g n => Sys2Proof.Machine.execShl d a b g n s
  | .shr d a b g n z => Sys2Proof.Machine.execShr d a b g n z s
  | .rot d a b g n => Sys2Proof.Machine.execRot d a b g n s
  | .min d a b g n z => Sys2Proof.Machine.execMin d a b g n z s
  | .max d a b g n z => Sys2Proof.Machine.execMax d a b g n z s
  | .clz d a g n => Sys2Proof.Machine.execClz d a g n s
  | .ctz d a g n => Sys2Proof.Machine.execCtz d a g n s
  | .popc d a g n => Sys2Proof.Machine.execPopc d a g n s
  | .bswap d a g n => Sys2Proof.Machine.execBswap d a g n s
  | .ext d a b g n z => Sys2Proof.Machine.execExt d a b g n z s
  | .ins d a b g n => Sys2Proof.Machine.execIns d a b g n s
  | .sel d a b g n ix => Sys2Proof.Machine.execSel d a b g n ix s
  | .cmp d a b g n c => Sys2Proof.Machine.execCmp d a b g n c s
  | .gand d a b g n o => Sys2Proof.Machine.execGand d a b g n o s
  | .addi d a im => Sys2Proof.Machine.execAddi d a im s
  | .andi d a im => Sys2Proof.Machine.execAndi d a im s
  | .ori d a im => Sys2Proof.Machine.execOri d a im s
  | .xori d a im => Sys2Proof.Machine.execXori d a im s
  | .shli d a c => Sys2Proof.Machine.execShli d a c s
  | .shri d a c => Sys2Proof.Machine.execShri d a c s
  | .cmpi c d a im => Sys2Proof.Machine.execCmpi c d a im s
  | .movi d im => Sys2Proof.Machine.execMovi d im s
  | .movl d => Sys2Proof.Machine.execMovl d s
  | .movlh d a => Sys2Proof.Machine.execMovlh d a s
  | .addl d a => Sys2Proof.Machine.execAddl d a s
  | .br g n p => Sys2Proof.Machine.execBr g n p s
  | .call g n p => Sys2Proof.Machine.execCall g n p s
  | .bri d a g n => Sys2Proof.Machine.execBri d a g n s
  | .loop a n => Sys2Proof.Machine.execLoop a n s
  | .nopc n => Sys2Proof.Machine.execNopc n s
  | .realign n => Sys2Proof.Machine.execRealign n s
  | .setfmt a g n => Sys2Proof.Machine.execSetfmt a g n s
  | .setcl a g n => Sys2Proof.Machine.execSetcl a g n s
  | .vmsel im g n v => Sys2Proof.Machine.execVmsel im g n v s
  | .phpred a g n o => Sys2Proof.Machine.execPhpred a g n o s
  | .signoff a b g n => Sys2Proof.Machine.execSignoff a b g n s
  | .tlreadV d a g n => Sys2Proof.Machine.execTlreadV d a g n s
  | .tlwait a b g n => Sys2Proof.Machine.execTlwait a b g n s
  | .tlarm a b g n => Sys2Proof.Machine.execTlarm a b g n s
  | .qbind im a g n => Sys2Proof.Machine.execQbind im a g n s
  | .gtime d g n sc => Sys2Proof.Machine.execGtime d g n sc s
  | .csrr d a g n => Sys2Proof.Machine.execCsrr d a g n s
  | .csrw a b g n => Sys2Proof.Machine.execCsrw a b g n s
  | .putk a g n => Sys2Proof.Machine.execPutk a g n s
  | .rkey a b g n k => Sys2Proof.Machine.execRkey a b g n k s
  | .rkeyS a b g n k => Sys2Proof.Machine.execRkeyS a b g n k s
  | .rctr a b g n k => Sys2Proof.Machine.execRctr a b g n k s
  | .rctrRd d a g n k => Sys2Proof.Machine.execRctrRd d a g n k s
  | .rskip a b g n k => Sys2Proof.Machine.execRskip a b g n k s
  | .rdraw d g n k => Sys2Proof.Machine.execRdraw d g n k s
  | .stov d a g n v => Sys2Proof.Machine.execStov d a g n v s
  | .stom d a g n => Sys2Proof.Machine.execStom d a g n s
  | .trap a g n => Sys2Proof.Machine.execTrap a g n s
  | .preempt d a b g n => Sys2Proof.Machine.execPreempt d a b g n s
  | .launch d a b g n => Sys2Proof.Machine.execLaunch d a b g n s
  | .phload d a b g n => Sys2Proof.Machine.execPhload d a b g n s
  | .savectx d a b g n => Sys2Proof.Machine.execSavectx d a b g n s
  | .restctx d a b g n => Sys2Proof.Machine.execRestctx d a b g n s
  | .fcst a g n => Sys2Proof.Machine.execFcst a g n s
  | .watchArm d a b g n => Sys2Proof.Machine.execWatchArm d a b g n s
  | .watchDis a g n => Sys2Proof.Machine.execWatchDis a g n s
  | .mcode d a b g n => Sys2Proof.Machine.execMcode d a b g n s
  | .tlbinvPage a g n => Sys2Proof.Machine.execTlbinvPage a g n s
  | .repair d a b g n => Sys2Proof.Machine.execRepair d a b g n s
  | .hostirq a g n => Sys2Proof.Machine.execHostirq a g n s
  | .vadd w d a b => Sys2Proof.Machine.execVadd w d a b s
  | .vsub w d a b => Sys2Proof.Machine.execVsub w d a b s
  | .vmul w d a b => Sys2Proof.Machine.execVmul w d a b s
  | .vmulhi w d a b => Sys2Proof.Machine.execVmulhi w d a b s
  | .vmulhz w d a b => Sys2Proof.Machine.execVmulhz w d a b s
  | .vmad w d a b c => Sys2Proof.Machine.execVmad w d a b c s
  | .vand w d a b => Sys2Proof.Machine.execVand w d a b s
  | .vor w d a b => Sys2Proof.Machine.execVor w d a b s
  | .vxor w d a b => Sys2Proof.Machine.execVxor w d a b s
  | .vandn w d a b => Sys2Proof.Machine.execVandn w d a b s
  | .vshl w d a b => Sys2Proof.Machine.execVshl w d a b s
  | .vshri w d a b => Sys2Proof.Machine.execVshri w d a b s
  | .vshrz w d a b => Sys2Proof.Machine.execVshrz w d a b s
  | .vmini w d a b => Sys2Proof.Machine.execVmini w d a b s
  | .vminz w d a b => Sys2Proof.Machine.execVminz w d a b s
  | .vmaxi w d a b => Sys2Proof.Machine.execVmaxi w d a b s
  | .vmaxz w d a b => Sys2Proof.Machine.execVmaxz w d a b s
  | .vabsi w d a => Sys2Proof.Machine.execVabsi w d a s
  | .vclz w d a => Sys2Proof.Machine.execVclz w d a s
  | .vpopc w d a => Sys2Proof.Machine.execVpopc w d a s
  | .vaddsi w d a b => Sys2Proof.Machine.execVaddsi w d a b s
  | .vsubsi w d a b => Sys2Proof.Machine.execVsubsi w d a b s
  | .vcmpi w d a b => Sys2Proof.Machine.execVcmpi w d a b s
  | .vsel w d a b c => Sys2Proof.Machine.execVsel w d a b c s
  | .vfadd w d a b => Sys2Proof.Machine.execVfadd w d a b s
  | .vfsub w d a b => Sys2Proof.Machine.execVfsub w d a b s
  | .vfmul w d a b => Sys2Proof.Machine.execVfmul w d a b s
  | .vfma w d a b c => Sys2Proof.Machine.execVfma w d a b c s
  | .vfms w d a b c => Sys2Proof.Machine.execVfms w d a b c s
  | .vfnma w d a b c => Sys2Proof.Machine.execVfnma w d a b c s
  | .vfmin w d a b => Sys2Proof.Machine.execVfmin w d a b s
  | .vfmax w d a b => Sys2Proof.Machine.execVfmax w d a b s
  | .vfabs w d a => Sys2Proof.Machine.execVfabs w d a s
  | .vfneg w d a => Sys2Proof.Machine.execVfneg w d a s
  | .vfcmp w d a b => Sys2Proof.Machine.execVfcmp w d a b s
  | .vfclass w d a => Sys2Proof.Machine.execVfclass w d a s
  | .vfscale w d a b => Sys2Proof.Machine.execVfscale w d a b s
  | .vfdiv w d a b => Sys2Proof.Machine.execVfdiv w d a b s
  | .vfsqrt w d a => Sys2Proof.Machine.execVfsqrt w d a s
  | .vadd2 d a b => Sys2Proof.Machine.execVadd2 d a b s
  | .vsub2 d a b => Sys2Proof.Machine.execVsub2 d a b s
  | .vmul2 d a b => Sys2Proof.Machine.execVmul2 d a b s
  | .dwadd d a b => Sys2Proof.Machine.execDwadd d a b s
  | .dwadds d a b => Sys2Proof.Machine.execDwadds d a b s
  | .dwmul d a b => Sys2Proof.Machine.execDwmul d a b s
  | .dwmuls d a b => Sys2Proof.Machine.execDwmuls d a b s
  | .dwnorm d a => Sys2Proof.Machine.execDwnorm d a s
  | .dwcvt w d a => Sys2Proof.Machine.execDwcvt w d a s
  | .vrsum2 d a => Sys2Proof.Machine.execVrsum2 d a s
  | .vrsum w d a => Sys2Proof.Machine.execVrsum w d a s
  | .vrmax w d a => Sys2Proof.Machine.execVrmax w d a s
  | .vrmin w d a => Sys2Proof.Machine.execVrmin w d a s
  | .vpadd w d a b => Sys2Proof.Machine.execVpadd w d a b s
  | .vpsub w d a b => Sys2Proof.Machine.execVpsub w d a b s
  | .vpmul w d a b => Sys2Proof.Machine.execVpmul w d a b s
  | .vpfma w d a b c => Sys2Proof.Machine.execVpfma w d a b c s
  | .vpmin w d a b => Sys2Proof.Machine.execVpmin w d a b s
  | .vpmax w d a b => Sys2Proof.Machine.execVpmax w d a b s
  | .vpdot w d a b c => Sys2Proof.Machine.execVpdot w d a b c s
  | .vpcmp w d a b => Sys2Proof.Machine.execVpcmp w d a b s
  | .vcvt w d a t sc => Sys2Proof.Machine.execVcvt w d a t sc s
  | .vcvtp2N w d a p c => Sys2Proof.Machine.execVcvtp2N w d a p c s
  | .vcvtp2W w d a p c => Sys2Proof.Machine.execVcvtp2W w d a p c s
  | .vcvtp4N w d a p c => Sys2Proof.Machine.execVcvtp4N w d a p c s
  | .vcvtp4W w d a p c => Sys2Proof.Machine.execVcvtp4W w d a p c s
  | .vcvtp8N w d a p c => Sys2Proof.Machine.execVcvtp8N w d a p c s
  | .vcvtp8W w d a p c => Sys2Proof.Machine.execVcvtp8W w d a p c s
  | .vqnt w d a b p => Sys2Proof.Machine.execVqnt w d a b p s
  | .vqdiv w d a b p => Sys2Proof.Machine.execVqdiv w d a b p s
  | .vdeq w d a b p => Sys2Proof.Machine.execVdeq w d a b p s
  | .vmxpackScale w d a c => Sys2Proof.Machine.execVmxpackScale w d a c s
  | .vmxpackAscale w d a c => Sys2Proof.Machine.execVmxpackAscale w d a c s
  | .vmxpackPutp w d a p c => Sys2Proof.Machine.execVmxpackPutp w d a p c s
  | .vmxunp w d a p c => Sys2Proof.Machine.execVmxunp w d a p c s
  | .vftoi w d a z => Sys2Proof.Machine.execVftoi w d a z s
  | .vitof w d a z => Sys2Proof.Machine.execVitof w d a z s
  | .vrcp w d a => Sys2Proof.Machine.execVrcp w d a s
  | .vrsq w d a => Sys2Proof.Machine.execVrsq w d a s
  | .vexp2 w d a => Sys2Proof.Machine.execVexp2 w d a s
  | .vlog2 w d a => Sys2Proof.Machine.execVlog2 w d a s
  | .vsin w d a => Sys2Proof.Machine.execVsin w d a s
  | .vcos w d a => Sys2Proof.Machine.execVcos w d a s
  | .vtanh w d a => Sys2Proof.Machine.execVtanh w d a s
  | .vsigm w d a => Sys2Proof.Machine.execVsigm w d a s
  | .vexp w d a => Sys2Proof.Machine.execVexp w d a s
  | .vperm w d a b c => Sys2Proof.Machine.execVperm w d a b c s
  | .vbcast w d a p => Sys2Proof.Machine.execVbcast w d a p s
  | .xcl w d a u sc => Sys2Proof.Machine.execXcl w d a u sc s
  | .xclb w d a sc c => Sys2Proof.Machine.execXclb w d a sc c s
  | .xred w d a k => Sys2Proof.Machine.execXred w d a k s
  | .xcopy w d a => Sys2Proof.Machine.execXcopy w d a s
  | .vmov w d a => Sys2Proof.Machine.execVmov w d a s
  | .vmovi w d => Sys2Proof.Machine.execVmovi w d s
  | .vtos d a b => Sys2Proof.Machine.execVtos d a b s
  | .vtree w d a => Sys2Proof.Machine.execVtree w d a s
  | .vmopTest a im b => Sys2Proof.Machine.execVmopTest a im b s
  | .vmopNz a im => Sys2Proof.Machine.execVmopNz a im s
  | .vmopGet w d im => Sys2Proof.Machine.execVmopGet w d im s
  | .vmopAnd im j => Sys2Proof.Machine.execVmopAnd im j s
  | .vmopOr im j => Sys2Proof.Machine.execVmopOr im j s
  | .vmopXor im j => Sys2Proof.Machine.execVmopXor im j s
  | .vmopNot im j => Sys2Proof.Machine.execVmopNot im j s
  | .viota w d a sc => Sys2Proof.Machine.execViota w d a sc s
  | .vrand w d sc k => Sys2Proof.Machine.execVrand w d sc k s
  | .vrandA w d sc k => Sys2Proof.Machine.execVrandA w d sc k s
  | .vcount w d a => Sys2Proof.Machine.execVcount w d a s
  | .vscan w d a k => Sys2Proof.Machine.execVscan w d a k s
  | .vputk a b => Sys2Proof.Machine.execVputk a b s
  | .mset d => Sys2Proof.Machine.execMset d s
  | .mcall im => Sys2Proof.Machine.execMcall im s
  | .mloads a x => Sys2Proof.Machine.execMloads a x s
  | .mstream sc r n z => Sys2Proof.Machine.execMstream sc r n z s
  | .mexp e => Sys2Proof.Machine.execMexp e s
  | .mdrain d r n k => Sys2Proof.Machine.execMdrain d r n k s
  | .mepiCol a => Sys2Proof.Machine.execMepiCol a s
  | .mepiRow a => Sys2Proof.Machine.execMepiRow a s
  | .mepiCfg a => Sys2Proof.Machine.execMepiCfg a s
  | .mclr r n => Sys2Proof.Machine.execMclr r n s
  | .mspmeta a => Sys2Proof.Machine.execMspmeta a s
  | .macc d r n => Sys2Proof.Machine.execMacc d r n s
  | .mstat d sc => Sys2Proof.Machine.execMstat d sc s
  | .ldb f r b o => Sys2Proof.Machine.execLdb f r b o s
  | .ldh f r b o => Sys2Proof.Machine.execLdh f r b o s
  | .ldw f r b o => Sys2Proof.Machine.execLdw f r b o s
  | .ldd f r b o => Sys2Proof.Machine.execLdd f r b o s
  | .stb f r b o => Sys2Proof.Machine.execStb f r b o s
  | .sth f r b o => Sys2Proof.Machine.execSth f r b o s
  | .stw f r b o => Sys2Proof.Machine.execStw f r b o s
  | .std f r b o => Sys2Proof.Machine.execStd f r b o s
  | .ldv f r b o => Sys2Proof.Machine.execLdv f r b o s
  | .stv f r b o => Sys2Proof.Machine.execStv f r b o s
  | .ldvb f r b o => Sys2Proof.Machine.execLdvb f r b o s
  | .ldg f d im b => Sys2Proof.Machine.execLdg f d im b s
  | .stg f d im b => Sys2Proof.Machine.execStg f d im b s
  | .cstv f d v b o => Sys2Proof.Machine.execCstv f d v b o s
  | .ldp f r b o => Sys2Proof.Machine.execLdp f r b o s
  | .stp f r b o => Sys2Proof.Machine.execStp f r b o s
  | .adda r b => Sys2Proof.Machine.execAdda r b s
  | .mova f r b x => Sys2Proof.Machine.execMova f r b x s
  | .fence sc k => Sys2Proof.Machine.execFence sc k s
  | .strel f r b o => Sys2Proof.Machine.execStrel f r b o s
  | .ldacq f r b o => Sys2Proof.Machine.execLdacq f r b o s
  | .atadd f r b o => Sys2Proof.Machine.execAtadd f r b o s
  | .atmin f r b o => Sys2Proof.Machine.execAtmin f r b o s
  | .atmax f r b o => Sys2Proof.Machine.execAtmax f r b o s
  | .atand f r b o => Sys2Proof.Machine.execAtand f r b o s
  | .ator f r b o => Sys2Proof.Machine.execAtor f r b o s
  | .atswp f r b o => Sys2Proof.Machine.execAtswp f r b o s
  | .atcas d w b o => Sys2Proof.Machine.execAtcas d w b o s
  | .atfadd f r b o => Sys2Proof.Machine.execAtfadd f r b o s
  | .atbadd f r b o => Sys2Proof.Machine.execAtbadd f r b o s
  | .binrd f r b o => Sys2Proof.Machine.execBinrd f r b o s
  | .bininit f r b o => Sys2Proof.Machine.execBininit f r b o s
  | .qresv c k t => Sys2Proof.Machine.execQresv c k t s
  | .qpush c f r t => Sys2Proof.Machine.execQpush c f r t s
  | .qstat c f r sc => Sys2Proof.Machine.execQstat c f r sc s
  | .wopen w b o => Sys2Proof.Machine.execWopen w b o s
  | .wadv w k => Sys2Proof.Machine.execWadv w k s
  | .wstat w f r => Sys2Proof.Machine.execWstat w f r s
  | .txsend c b o => Sys2Proof.Machine.execTxsend c b o s
  | .txcopy c b o => Sys2Proof.Machine.execTxcopy c b o s
  | .rxarm f r => Sys2Proof.Machine.execRxarm f r s
  | .rxflag f r t => Sys2Proof.Machine.execRxflag f r t s
  | .mcsto c b o => Sys2Proof.Machine.execMcsto c b o s
  | .mcapplRd f r => Sys2Proof.Machine.execMcapplRd f r s
  | .mcjoinJoin c f r => Sys2Proof.Machine.execMcjoinJoin c f r s
  | .mcjoinLeave c f r => Sys2Proof.Machine.execMcjoinLeave c f r s
  | .ratom c b o => Sys2Proof.Machine.execRatom c b o s
  | .rload c b o => Sys2Proof.Machine.execRload c b o s
  | .nop => Sys2Proof.Machine.execNop s
  | .ret => Sys2Proof.Machine.execRet s
  | .halt => Sys2Proof.Machine.execHalt s
  | .getfmt => Sys2Proof.Machine.execGetfmt s
  | .tlreadE => Sys2Proof.Machine.execTlreadE s
  | .tlreadEc => Sys2Proof.Machine.execTlreadEc s
  | .eret => Sys2Proof.Machine.execEret s
  | .eretReplay => Sys2Proof.Machine.execEretReplay s
  | .eretFail => Sys2Proof.Machine.execEretFail s
  | .tlbinvAll => Sys2Proof.Machine.execTlbinvAll s
  | .mswap => Sys2Proof.Machine.execMswap s
  | .mtaintClr => Sys2Proof.Machine.execMtaintClr s
  | .mtaintSet => Sys2Proof.Machine.execMtaintSet s
  | .wclose => Sys2Proof.Machine.execWclose s
  | .wresRetry => Sys2Proof.Machine.execWresRetry s
  | .wresFail => Sys2Proof.Machine.execWresFail s
  | .wflush => Sys2Proof.Machine.execWflush s
  | .txwalk => Sys2Proof.Machine.execTxwalk s
  | .txresRetry => Sys2Proof.Machine.execTxresRetry s
  | .txresFail => Sys2Proof.Machine.execTxresFail s
  | .mcapplBind => Sys2Proof.Machine.execMcapplBind s
  | .mcapplUnbind => Sys2Proof.Machine.execMcapplUnbind s
  | .emptyBundle => Sys2Proof.Machine.execEmptyBundle s
  | .resultLanding => Sys2Proof.Machine.execResultLanding s
  | .bankAccess => Sys2Proof.Machine.execBankAccess s
  | .engineBankAccess => Sys2Proof.Machine.execEngineBankAccess s
  | .eccRewrite => Sys2Proof.Machine.execEccRewrite s
  | .arrayRowAccumulate => Sys2Proof.Machine.execArrayRowAccumulate s
  | .drainRowWrite => Sys2Proof.Machine.execDrainRowWrite s
  | .urgentContextEntry => Sys2Proof.Machine.execUrgentContextEntry s
  | .shadowDelivery => Sys2Proof.Machine.execShadowDelivery s
  | .preemptDelivery => Sys2Proof.Machine.execPreemptDelivery s
  | .tlwaitRelease => Sys2Proof.Machine.execTlwaitRelease s
  | .realignRelease => Sys2Proof.Machine.execRealignRelease s
  | .c1LoadArrival => Sys2Proof.Machine.execC1LoadArrival s
  | .fenceDone => Sys2Proof.Machine.execFenceDone s
  | .fetchMissFill => Sys2Proof.Machine.execFetchMissFill s
  | .phloadDone => Sys2Proof.Machine.execPhloadDone s
  | .launchDone => Sys2Proof.Machine.execLaunchDone s
  | .mcodeDone => Sys2Proof.Machine.execMcodeDone s
  | .mcodeTargetLoad => Sys2Proof.Machine.execMcodeTargetLoad s
  | .repairDone => Sys2Proof.Machine.execRepairDone s
  | .tlbinvDone => Sys2Proof.Machine.execTlbinvDone s
  | .watchArmDone => Sys2Proof.Machine.execWatchArmDone s
  | .watchFire => Sys2Proof.Machine.execWatchFire s
  | .hostirqRelease => Sys2Proof.Machine.execHostirqRelease s
  | .irqWindowExpiry => Sys2Proof.Machine.execIrqWindowExpiry s
  | .msixUnmask => Sys2Proof.Machine.execMsixUnmask s
  | .signoffMessage => Sys2Proof.Machine.execSignoffMessage s
  | .portSignoff => Sys2Proof.Machine.execPortSignoff s
  | .receiveSignoff => Sys2Proof.Machine.execReceiveSignoff s
  | .cloveArrival => Sys2Proof.Machine.execCloveArrival s
  | .phaseStart => Sys2Proof.Machine.execPhaseStart s
  | .missedSignoff => Sys2Proof.Machine.execMissedSignoff s
  | .slackOverrun => Sys2Proof.Machine.execSlackOverrun s
  | .slackHardLimit => Sys2Proof.Machine.execSlackHardLimit s
  | .maceWindow => Sys2Proof.Machine.execMaceWindow s
  | .rowFill => Sys2Proof.Machine.execRowFill s
  | .rowDrain => Sys2Proof.Machine.execRowDrain s
  | .windowOpComplete => Sys2Proof.Machine.execWindowOpComplete s
  | .eventOverflowMove => Sys2Proof.Machine.execEventOverflowMove s
  | .pageWalk => Sys2Proof.Machine.execPageWalk s
  | .transferComplete => Sys2Proof.Machine.execTransferComplete s
  | .notifyPush => Sys2Proof.Machine.execNotifyPush s
  | .qresvComplete => Sys2Proof.Machine.execQresvComplete s
  | .qpushEnqueue => Sys2Proof.Machine.execQpushEnqueue s
  | .timetableSourceRead => Sys2Proof.Machine.execTimetableSourceRead s
  | .timetabledFlitDepart => Sys2Proof.Machine.execTimetabledFlitDepart s
  | .flitArrival => Sys2Proof.Machine.execFlitArrival s
  | .flitReplay => Sys2Proof.Machine.execFlitReplay s
  | .linkRetrainDone => Sys2Proof.Machine.execLinkRetrainDone s
  | .linkLoss => Sys2Proof.Machine.execLinkLoss s
  | .multicastStamp => Sys2Proof.Machine.execMulticastStamp s
  | .multicastApply => Sys2Proof.Machine.execMulticastApply s
  | .multicastResend => Sys2Proof.Machine.execMulticastResend s
  | .mcstoComplete => Sys2Proof.Machine.execMcstoComplete s
  | .multicastJoinRecord => Sys2Proof.Machine.execMulticastJoinRecord s
  | .remoteAtomicPerform => Sys2Proof.Machine.execRemoteAtomicPerform s
  | .ratomReply => Sys2Proof.Machine.execRatomReply s
  | .ratomResend => Sys2Proof.Machine.execRatomResend s
  | .alignmentLost => Sys2Proof.Machine.execAlignmentLost s
  | .thermalStop => Sys2Proof.Machine.execThermalStop s
  | .thermalIndexUpdate => Sys2Proof.Machine.execThermalIndexUpdate s
  | .taskAdmission => Sys2Proof.Machine.execTaskAdmission s
  | .taskStart => Sys2Proof.Machine.execTaskStart s
  | .indirectCountRead => Sys2Proof.Machine.execIndirectCountRead s
  | .backfillCutoff => Sys2Proof.Machine.execBackfillCutoff s
  | .ensemblePartnerTimeout => Sys2Proof.Machine.execEnsemblePartnerTimeout s
  | .taskEnd => Sys2Proof.Machine.execTaskEnd s
  | .savePoint => Sys2Proof.Machine.execSavePoint s
  | .restctxDone => Sys2Proof.Machine.execRestctxDone s
  | .form => Sys2Proof.Machine.execForm s
  | .dissolve => Sys2Proof.Machine.execDissolve s
  | .opench => Sys2Proof.Machine.execOpench s
  | .closech => Sys2Proof.Machine.execClosech s
  | .group => Sys2Proof.Machine.execGroup s
  | .restart => Sys2Proof.Machine.execRestart s
  | .domain => Sys2Proof.Machine.execDomain s
  | .sparecc => Sys2Proof.Machine.execSparecc s
  | .fwstage => Sys2Proof.Machine.execFwstage s
  | .fwact => Sys2Proof.Machine.execFwact s
  | .serviceCommandComplete => Sys2Proof.Machine.execServiceCommandComplete s
  | .irqwinWrite => Sys2Proof.Machine.execIrqwinWrite s
  | .allotWrite => Sys2Proof.Machine.execAllotWrite s
  | .registerWrite => Sys2Proof.Machine.execRegisterWrite s
  | .hostWrite => Sys2Proof.Machine.execHostWrite s
  | .hostRead => Sys2Proof.Machine.execHostRead s
  | .patrolScrub => Sys2Proof.Machine.execPatrolScrub s
  | .coldReset => Sys2Proof.Machine.execColdReset s
  | .warmReset => Sys2Proof.Machine.execWarmReset s
  | .getVersion => Sys2Proof.Machine.execGetVersion s
  | .getCapabilities => Sys2Proof.Machine.execGetCapabilities s
  | .negotiateAlgorithms => Sys2Proof.Machine.execNegotiateAlgorithms s
  | .getDigests => Sys2Proof.Machine.execGetDigests s
  | .getCertificate => Sys2Proof.Machine.execGetCertificate s
  | .challenge => Sys2Proof.Machine.execChallenge s
  | .getMeasurements => Sys2Proof.Machine.execGetMeasurements s
  | .thermalLimitReached => Sys2Proof.Machine.execThermalLimitReached s
  | .hbmRefresh => Sys2Proof.Machine.execHbmRefresh s
  | .c1StorePerformed => Sys2Proof.Machine.execC1StorePerformed s
  | .multicastMemberFailed => Sys2Proof.Machine.execMulticastMemberFailed s

end Sys2Proof.Machine
end

