-- ==== Sys2Proof/Machine/Sched.lean ====
section
/-!
DEFINITION. What happens next (00:R2, 04:R78, R83, R86, R87, 15:R297, 17:R353, 19:R386): one action of the machine at a time. An
action is an input from outside, an event of the machine, a core's issue, the half of a tick, or its passing. In the first half of a tick
come: inputs that are due; the control cores; phase starts, sign-offs and timers; the vector-matrix cores in number order, each with
what lands and then its issue. In the second half come scheduled bank accesses; the arrays; flits; and then whatever the engines may
do, chosen freely (entry 3), until the tick passes. What happens in the second half is so seen by no core of the same tick (14:R278,
R288, entry 15).
-/

namespace Sys2Proof.Machine

/-- One action. -/
inductive Act where
  /-- the first input -/
  | input
  | event (i : Instr) (e : Ev)
  /-- a bundle of a core -/
  | issue (c : CoreRef)
  /-- a bundle that fails a check traps before what is due in its cycle has landed (19:R386) -/
  | early (c : CoreRef)
  /-- a cycle of a core passes without a bundle -/
  | pass (c : CoreRef)
  /-- a core's array has done a part of its cycle -/
  | array (c : CoreRef) (i : Instr)
  /-- the second half of the tick begins -/
  | half
  | tick
deriving DecidableEq, Repr

abbrev Result := Host.Outcome State Fault Refusal

/-- The state after an event, with what came with it. -/
def runEvent (s : State) (i : Instr) (e : Ev) : Result := exec i { s with ev := e }

/-- The next state of an outcome, or the same state. -/
def afterOr (s : State) (r : Result) : State :=
  match r with
  | .next s' => s'
  | _ => s

/-- An event would change something, beside the model's bookkeeping of it. -/
def effective (s : State) (i : Instr) (e : Ev) : Bool :=
  decide ({ afterOr s (runEvent s i e) with ev := s.ev, cur := s.cur, oracle := s.oracle } ≠ s)

/-- An event of core c with its parameters. -/
def at_ (i : Instr) (c : CoreRef) (a b : Nat) : Act := .event i { core := c, i := a, j := b }

/-- An event of the chip with its parameters. -/
def chipAct (i : Instr) (a b : Nat) : Act := .event i { i := a, j := b }

/-- An event, where it would change something. -/
def ifEffective (s : State) (a : Act) : Option Act :=
  match a with
  | .event i e => if effective s i e then some a else none
  | _ => some a

/-! ### Inputs -/

/-- What only the outside world does, or decides. -/
def outside : Instr → Bool
  | .flitArrival | .flitReplay | .linkLoss | .multicastMemberFailed | .alignmentLost | .thermalStop | .thermalIndexUpdate
  | .thermalLimitReached | .hbmRefresh | .irqwinWrite | .allotWrite | .registerWrite | .hostWrite
  | .hostRead | .msixUnmask | .coldReset | .warmReset | .getVersion | .getCapabilities | .negotiateAlgorithms | .getDigests
  | .getCertificate | .challenge | .getMeasurements | .cloveArrival | .taskStart | .repairDone | .fwstage => true
  | _ => false

/-- The unit that an input names exists. -/
def unitOk (s : State) (i : Instr) (e : Ev) : Bool :=
  match i with
  | .flitReplay | .linkLoss => e.i < 36
  | .irqwinWrite | .msixUnmask => e.i < 64
  | .allotWrite => e.i < 2048
  | .hostWrite | .hostRead => e.i < 8
  | .thermalIndexUpdate | .repairDone => hasCore s e.core
  | .cloveArrival => e.i < s.gangs.length && e.bytes ≠ []
  | .taskStart => e.i < 8 && e.bytes ≠ []
  | .flitArrival => e.flit.isSome
  | _ => true

/-- The first input is due. -/
def inputDue (s : State) : Option Act :=
  match s.inputs with
  | [] => none
  | x :: _ => if x.1 ≤ s.now then some .input else none

/-- Take the first input. -/
def runInput (s : State) : Result :=
  match s.inputs with
  | [] => .next s
  | x :: t => if outside x.2.1 && unitOk s x.2.1 x.2.2 then runEvent { s with inputs := t } x.2.1 x.2.2 else .fault .noSuchUnit

/-! ### Phases, sign-offs and timers -/

/-- Numbers of the gangs that live. -/
def liveGangs (s : State) : List Nat := (List.range s.gangs.length).filter (fun i => (getGang s i).live)

/-- What a gang's clock brings about in this tick. -/
def gangDue (s : State) (gi : Nat) : Option Act :=
  let g := getGang s gi
  if (match g.nextAt with | some t => decide (t ≤ s.now) | none => false) && g.running && g.ending.isNone then
    ifEffective s (chipAct .phaseStart gi 0)
  else if g.cur.isNone then none
  else
    (g.cores.filter (fun n => (s.core (vmRef n)).ph.sigPend)).findSome? (fun n => ifEffective s (at_ .signoffMessage (vmRef n) 0 0))
    <|> (g.awaited.filter (fun x => x.1 = 1)).findSome? (fun x => ifEffective s (chipAct .portSignoff gi x.2))
    <|> (g.awaited.filter (fun x => x.1 = 2)).findSome? (fun x => ifEffective s (at_ .receiveSignoff (vmRef x.2) gi 0))
    <|> (List.range g.msgs.length).findSome? (fun j => ifEffective s (chipAct .cloveArrival gi j))
    <|> ifEffective s (chipAct .slackOverrun gi 0)
    <|> ifEffective s (chipAct .slackHardLimit gi 0)

/-- What the patrol scrubber owes at the end of a day's pass, or of a rescan of a region (11:R233). -/
def patrolDue (s : State) : Option Act :=
  let scrub (l : List Nat) (done : Act) : Act := match l with
    | [] => done
    | g :: _ => chipAct .patrolScrub g 0
  if s.svc.patrol + dayTicks ≤ s.now then some (scrub (patrolLeft s) (chipAct .patrolScrub 0 1))
  else (s.svc.hot.find? (fun h => decide (h.2.1 + dayTicks / 16 ≤ s.now))).map (fun h =>
    scrub ((patrolLeft s).filter (fun g => regionNo g = h.1)) (chipAct .patrolScrub h.1 2))

/-- Timers that have run out. -/
def timerDue (s : State) : Option Act :=
  (liveGangs s).findSome? (fun gi => if (getGang s gi).ens && !(getGang s gi).running then
      ifEffective s (chipAct .taskStart gi 0) <|> ifEffective s (chipAct .ensemblePartnerTimeout gi 0) else none)
  <|> (List.range s.launches.length).findSome? (fun i => if ((s.launches[i]?).map (fun l => l.waitSince.isSome && !l.noBackfill)) = some true then
      ifEffective s (chipAct .backfillCutoff i 0) else none)
  <|> ((List.range 64).filter (fun i => (s.svc.timer.getD i none).isSome)).findSome? (fun i => ifEffective s (chipAct .irqWindowExpiry i 0))
  <|> ((List.range 36).filter (fun p => (getPort s p).retrain ≠ 0)).findSome? (fun p => ifEffective s (chipAct .linkRetrainDone p 0))
  <|> patrolDue s

/-! ### The cores -/

/-- The clocks of a core's partition run. -/
def clockOn (s : State) (c : CoreRef) : Bool :=
  if c.cc then !(getPart s c.num).thermal else match (s.core c).part with
    | some p => !(getPart s p).thermal
    | none => true

/-- A stall keeps the issuing context from issuing; the failed walk of a C1 access does not. -/
def stallBlocks (x : Ctx) : Bool :=
  match x.stall with
  | some st => !(st.kind = .c1 && st.b ≠ 0)
  | none => false

/-- The core issues a bundle in this cycle, as far as its own state goes. -/
def canIssue (k : Core) : Bool :=
  let x := k.ctx
  k.run = .running && !stallBlocks x && decide (x.next ≤ k.clk.arch)
    && (if k.tp.active then k.tp.entered else !(k.ph.absent && decide (k.ph.phc < k.ph.length)))

/-- What releases the issuing context's stall at this cycle. -/
def releaseOf (x : Ctx) : Option Instr :=
  match x.stall with
  | some st => if st.kind = .tlwait then some .tlwaitRelease else if st.kind = .realign then some .realignRelease else none
  | none => none

/-- A core's issue has ended in a trap or a core fault. -/
def trapped (s : State) (c : CoreRef) : Bool := (s.core c).tp.active || (s.core c).run = .faulted

/-- Everything due on a core lands, and a stall that ends in this cycle ends. -/
def landAll (s : State) (c : CoreRef) : State :=
  let s1 := landing s c
  match releaseOf (s1.core c).ctx with
  | some i => afterOr s1 (runEvent s1 i { core := c })
  | none => s1

/-- A core in a phase of a gang of several cores may access other vaults. -/
def mayReach (k : Core) : Bool := k.ph.inph && k.ph.gsize ≠ 0 && !k.tp.active

/-- The state once everything due on a core has landed and its bundle, if it issues one in this cycle, has issued. -/
def trialIssue (s : State) (c : CoreRef) : State :=
  let s1 := landAll s c
  if trapped s1 c || !canIssue (s1.core c) then s1 else afterOr s1 (issueAt exec s1 c)

/-- The core's bundle makes lateral claims. -/
def isLateral (s : State) (c : CoreRef) : Bool := mayReach (s.core c) && decide ((trialIssue s c).links ≠ s.links)

/-- Cores whose cycle has begun and not passed, with running clocks. -/
def dueCores (s : State) : List CoreRef := (allCores s).filter (fun c => (s.core c).clk.due && clockOn s c)

/-- The claims that a core's bundle makes on its own vault: of its accesses, and of its M operation. -/
def ownClaims (s : State) (c : CoreRef) : List (Nat × BitVec 64) :=
  let k := (landAll s c).core c
  let s2 := trialIssue s c
  let k2 := s2.core c
  if trapped s2 c then [] else
    k2.near.claims.filter (fun x => !k.near.claims.contains x)
      ++ (k2.mx.evts.filter (fun e => !k.mx.evts.contains e)).map (fun e => (e.due, bankMask (mopGran e.op)))

/-- The state with the own claims of the cores still to issue in this cycle, apart from c: a core's own claims win over lateral
arrivals (04:R86). -/
def withOwn (s : State) (c : CoreRef) : State :=
  (dueCores s).foldl (fun st t => if t = c then st
    else st.upd t (fun k => { k with near := { k.near with claims := k.near.claims ++ ownClaims s t } })) s

/-- The state against which a core's bundle is checked. -/
def trialBase (s : State) (c : CoreRef) : State := if isLateral s c then withOwn s c else s

/-- The bundle that the main context of a core would issue in this cycle, once everything due has landed, ends in a trap. -/
def trialTraps (s : State) (c : CoreRef) : Bool :=
  let b := trialBase s c
  let s1 := landAll b c
  if trapped s1 c || !canIssue (s1.core c) then false else trapped (trialIssue b c) c

/-- The trap of that bundle, taken before anything due in the cycle has landed. -/
def earlyTrap (s : State) (c : CoreRef) : State :=
  let s2 := trialIssue (trialBase s c) c
  let tr := (s2.core c).tr
  bundleTrap { s with oracle := s2.oracle } c (tr.tcause.setWidth 8, tr.tinfo, (tr.tcause.extractLsb' 12 4).toNat)

/-- A pre-emption may be delivered, and nothing else of the boundary comes first (19:R386, R394). -/
def preemptNow (s : State) (c : CoreRef) : Bool :=
  let k := s.core c
  match k.tp.preempt with
  | some (_, t) => decide (t ≤ s.now) && preemptOpen k && !(canIssue (landAll s c |>.core c) && trialTraps s c)
  | none => false

/-- What a core whose cycle has begun does next. -/
def coreAct (s : State) (c : CoreRef) : Act :=
  let k := s.core c
  let sh := shadowDue k
  let ps := pendsDue k
  if k.ph.phc % 1024 = 0 ∧ (k.ph.mCount ≠ 0 ∨ k.ph.vCount ≠ 0) then at_ .maceWindow c 0 0
  else if (sh ≠ [] ∨ ps ≠ []) ∧ !duePresent k then .pass c
  else if (worstLate (sh ++ ps)).isSome && !ended s c then at_ .resultLanding c 0 0
  else if k.ph.inph && !k.ph.signed && decide (k.ph.length ≤ k.ph.phc) && !k.tp.active && k.run = .running then at_ .missedSignoff c 0 0
  else if preemptNow s c then at_ .preemptDelivery c 0 0
  else if !k.tp.active && trialTraps s c then .early c
  else if sh ≠ [] then at_ .shadowDelivery c 0 0
  else if ps ≠ [] then at_ .resultLanding c 0 0
  else if k.tp.active && !k.tp.entered && decide (k.urg.next ≤ k.clk.arch) then at_ .urgentContextEntry c 0 0
  else match (releaseOf k.ctx).bind (fun i => ifEffective s (at_ i c 0 0)) with
    | some a => a
    | none => if canIssue k then .issue c else .pass c

/-! ### Claims of one cycle (04:R86) -/

/-- The next action of some cores: those whose bundle reaches no other vault come first. -/
def coresDue (s : State) (cc : Bool) : Option Act :=
  let l := (dueCores s).filter (fun c => c.cc = cc)
  match l.find? (fun c => !isLateral s c) with
  | some c => some (coreAct s c)
  | none => l.head?.map (fun c => coreAct s c)

/-- A core's cycle passes. -/
def passCycle (s : State) (c : CoreRef) : State := s.upd c (fun k => { k with clk := { k.clk with due := false } })

/-! ### Banks, arrays, timed flits -/

/-- Scheduled accesses that are due, and atomics at their first cycle (10:R191, R204). -/
def banksDue (s : State) : Option Act :=
  ((allCores s).find? (fun c => (s.core c).near.accs.any (fun x => decide (x.due ≤ (s.core c).clk.arch) || readsNow (s.core c) x))).map
    (fun c => at_ .bankAccess c 0 0)

/-- Results that are due have not landed: the architectural cycle is repeated (04:R83). -/
def unlanded (k : Core) : Bool := !(shadowDue k = [] && pendsDue k = [])

/-- Arrays with work in this cycle; in a cycle that is repeated, the array waits for the last repetition, in which its bundle issues
(04:R83). -/
def arraysDue (s : State) : Option Act :=
  ((List.range s.vms.length).find? (fun n =>
    let k := s.core (vmRef n)
    k.clk.arr ≠ 0 && !unlanded k && (k.mx.evts ≠ [] || k.mx.rows ≠ []))).map (fun n =>
      .array (vmRef n) (if (s.core (vmRef n)).clk.arr = 2 then .arrayRowAccumulate else .drainRowWrite))

/-- Do a part of an array's cycle. -/
def runArray (s : State) (c : CoreRef) (i : Instr) : Result :=
  match runEvent s i { core := c } with
  | .next s1 => .next (s1.upd c (fun k => { k with clk := { k.clk with arr := k.clk.arr - 1 } }))
  | r => r

/-- Positions of the operations of a transfer context. -/
def txOps (s : State) (c : CoreRef) (i : Nat) : List Nat := List.range (getTx (s.core c) i).ops.length

/-- Transfer contexts of a core that hold operations. -/
def busyTxs (s : State) (c : CoreRef) : List Nat :=
  (List.range (if c.cc then 16 else 2)).filter (fun i => (getTx (s.core c) i).ops ≠ [])

/-- Insert a flit by its place in the order of arrival. -/
def insFlitNo (s : State) (i : Nat) : List Nat → List Nat
  | [] => [i]
  | x :: t =>
    let key (n : Nat) : List Nat := ((s.flits[n]?).map flitKey).getD []
    if key i < key x then i :: x :: t else x :: insFlitNo s i t

/-- The flits that have arrived, in the order of 16:R328. -/
def flitOrder (s : State) : List Nat :=
  ((List.range s.flits.length).filter (fun i => (s.flits[i]?).any (fun f => decide (f.due ≤ s.now)))).foldl (fun l i => insFlitNo s i l) []

/-- Flits that arrive or leave in this tick, timetable sources to be read, atomics to be sent again. -/
def flitsDue (s : State) : Option Act :=
  (flitOrder s).findSome? (fun i => ifEffective s (chipAct .flitArrival i 0))
  <|> (allCores s).findSome? (fun c => (busyTxs s c).findSome? (fun i =>
      (match walkOf s c i with
       | some (o, _) => (List.range o.walk.length).findSome? (fun j => ifEffective s (at_ .timetableSourceRead c i j))
       | none => none)
      <|> (txOps s c i).findSome? (fun j => match (getTx (s.core c) i).ops[j]? with
        | some o => if o.kind = .ratom ∧ o.loaded ∧ o.deadline ≤ s.now then ifEffective s (at_ .ratomResend c i j) else none
        | none => none)))
  <|> ((List.range 36).filter (fun p => (getPort s p).timed ≠ [])).findSome? (fun p => ifEffective s (chipAct .timetabledFlitDepart p 0))

/-! ### What may happen at any time -/

/-- The completion of a stall of a kind, in either context. -/
def stallActs (k : Core) (c : CoreRef) : List Act :=
  let f (x : Ctx) (u : Nat) : List Act := match x.stall with
    | none => []
    | some st => match st.kind with
      | .fence => [at_ .fenceDone c 0 u]
      | .fetch => [at_ .fetchMissFill c 0 u]
      | .phload => [at_ .phloadDone c 0 u]
      | .launch => [at_ .launchDone c 0 u]
      | .restctx => [at_ .restctxDone c 0 u]
      | .mcode => at_ .mcodeDone c 0 u :: (k.ctl.mcode.flatMap (·.left)).map (fun n => at_ .mcodeTargetLoad c n u)
      | .repair => [at_ .repairDone c 0 u]
      | .tlbinv => [at_ .tlbinvDone c 0 u]
      | .watch => [at_ .watchArmDone c 0 u]
      | .hostirq => [at_ .hostirqRelease c 0 u]
      | _ => []
  f k.main 0 ++ f k.urg 1 ++ (if k.loads = [] then [] else [at_ .phloadDone c 0 2])

/-- What the engines of a core may do. -/
def engineActs (s : State) (c : CoreRef) : List Act :=
  let k := s.core c
  let wins := (List.range 4).filter (fun w => (getWin k w).ops ≠ [] || (getWin k w).work ≠ [])
  let txs := busyTxs s c
  (if wins = [] ∧ txs = [] then [] else [at_ .engineBankAccess c 0 0])
  ++ wins.flatMap (fun w => [at_ .rowFill c w 0, at_ .rowDrain c w 0, at_ .windowOpComplete c w 0])
  ++ txs.flatMap (fun i => [at_ .qresvComplete c i 0, at_ .qpushEnqueue c i 0]
      ++ (txOps s c i).flatMap (fun j => [at_ .transferComplete c i j, at_ .ratomReply c i j]))
  ++ ((List.range 64).filter (fun i => (getRx k i).armed)).map (fun i => at_ .transferComplete c (16 + i) 0)
  ++ (if k.eng.rxFails = [] then [] else [at_ .transferComplete c 80 0])
  ++ ((List.range 4).filter (fun q => k.eng.notes.any (fun x => x.1 = q))).map (fun q => at_ .notifyPush c q 0)
  ++ (List.range k.eng.members.length).flatMap (fun i => [at_ .multicastApply c i 0, at_ .multicastResend c i 0])
  ++ (List.range k.ctl.c1.length).flatMap (fun i => [at_ .c1StorePerformed c i 0, at_ .c1LoadArrival c i 0])
  ++ (if k.ctl.fired = [] then [] else [at_ .watchFire c 0 0])
  ++ stallActs k c

/-- The commands of the mailbox (20:R404). -/
def commandActs (s : State) : List Act :=
  if !s.svc.busy then []
  else if s.svc.done.isSome then [chipAct .serviceCommandComplete 0 0]
  else match s.svc.code.toNat with
    | 1 => [chipAct .form 0 0] | 2 => [chipAct .dissolve 0 0] | 3 => [chipAct .opench 0 0] | 4 => [chipAct .closech 0 0]
    | 5 => [chipAct .group 0 0] | 6 => [chipAct .restart 0 0] | 7 => [chipAct .domain 0 0] | 8 => [chipAct .sparecc 0 0]
    | 10 => [chipAct .fwact 0 0] | _ => []

/-- What the rest of the chip may do. -/
def chipActs (s : State) : List Act :=
  (List.range s.walks.length).map (fun i => chipAct .pageWalk i 0)
  ++ ((List.range 8).filter (fun p => (getPart s p).ovCount ≠ 0 || (getPart s p).evWait ≠ [])).map (fun p => chipAct .eventOverflowMove p 0)
  ++ (List.range s.ratoms.length).map (fun i => chipAct .remoteAtomicPerform i 0)
  ++ s.groups.flatMap (fun g => [chipAct .multicastStamp g.1 0, chipAct .multicastJoinRecord g.1 0, chipAct .multicastResend g.1 1,
      chipAct .mcstoComplete g.1 0])
  ++ ((List.range 36).filter (fun p => (getPort s p).untimed ≠ [])).map (fun p => chipAct .timetabledFlitDepart p 1)
  ++ ((List.range 8).filter (fun p => s.launches.any (fun l => l.part = p && l.queued))).map (fun p => chipAct .taskAdmission p 0)
  ++ ((liveGangs s).filter (fun gi => !(getGang s gi).ens)).map (fun gi => chipAct .taskStart gi 0)
  ++ (liveGangs s).flatMap (fun gi => [chipAct .taskEnd gi 0, chipAct .savePoint gi 0])
  ++ (List.range s.launches.length).map (fun i => chipAct .indirectCountRead i 0)
  ++ (patrolLeft s).map (fun g => chipAct .patrolScrub g 0)
  ++ commandActs s

/-- Everything that may happen now and would change something. -/
def optional (s : State) : List Act :=
  (((allCores s).flatMap (engineActs s)) ++ chipActs s).filter (fun a => (ifEffective s a).isSome)

/-! ### The tick -/

/-- The next cycle of a core begins. A count of phase cycles frozen by a trap stands still through the cycle r
in which the main context resumes (19:R386, R393). The engine halves of its banks are free again (10:R190). -/
def nextCycle (k0 : Core) : Core :=
  let k := { k0 with near := { k0.near with used := 0 } }
  if unlanded k then { k with clk := { k.clk with cyc := k.clk.cyc + 1, due := true } }
  else
    let phc := if k.tp.frozenPh then k.ph.phc else k.ph.phc + 1
    let past := k.ph.inph && k.ph.signed && !k.tp.active && decide (k.ph.length ≤ phc)
    { k with clk := { k.clk with cyc := k.clk.cyc + 1, arch := k.clk.arch + 1, due := true, arr := 2 }
             ph := { k.ph with phc := phc, inph := k.ph.inph && !past }
             tp := { k.tp with frozenPh := k.tp.frozenPh && k.tp.active } }

/-- A reference tick of a core's clock (15:R300). -/
def tickCore (k : Core) : Core :=
  let a := k.clk.acc + ninths k.clk.step
  if 9 ≤ a then nextCycle { k with clk := { k.clk with acc := a - 9 } } else { k with clk := { k.clk with acc := a } }

/-- An FCST takes effect as the next cycle of its control core begins (15:R317). -/
def takeFcst (s : State) (p : Nat) (old new : Core) : State :=
  match new.ctl.fcst with
  | none => s
  | some v => if old.clk.cyc = new.clk.cyc then s
    else (updPart s p (fun q => { q with forecast := v })).upd ⟨true, p⟩ (fun k => { k with ctl := { k.ctl with fcst := none } })

/-- A reference tick passes: the records posted in it enter their queues, and what is chosen freely may be chosen anew. -/
def tickAll (s0 : State) : State :=
  let s := flushRecords s0
  let s1 := { s with
    now := s.now + 1, oracle := s.oracle + 1, half := false
    vms := s.vms.map (fun k => if (match k.part with | some p => (getPart s p).thermal | none => false) then k else tickCore k)
    ccs := (s.ccs.zip (List.range s.ccs.length)).map (fun x => if (getPart s x.2).thermal then x.1 else tickCore x.1) }
  ((s.ccs.zip s1.ccs).zip (List.range s.ccs.length)).foldl (fun t x => takeFcst t x.2 x.1.1 x.1.2) s1

/-! ### The next action -/

/-- What must happen before anything else, in the present half of the tick. -/
def mandatory (s : State) : Option Act :=
  if s.half then
    coresDue s true <|> coresDue s false <|> banksDue s <|> arraysDue s <|> flitsDue s
  else
    inputDue s <|> coresDue s true <|> (liveGangs s).findSome? (gangDue s) <|> timerDue s <|> coresDue s false <|> some .half

/-- What must happen before a tick passes: a granule that a read has corrected is rewritten in the next engine half that its bank has free
(10:R210). -/
def lastDue (s : State) : Option Act :=
  (allCores s).findSome? (fun c => (s.core c).near.fixes.findSome? (fun g => ifEffective s (at_ .eccRewrite c g 0)))

/-- The next action; a free choice among what may happen and the tick. -/
def nextAct (s : State) : Act × State :=
  match mandatory s with
  | some a => (a, s)
  | none =>
    let l := optional s
    let d := if l = [] then (0, s) else draw s (l.length + 1)
    (l.getD d.1 ((lastDue s).getD .tick), d.2)

/-- Carry out an action. -/
def runAct (s : State) : Act → Result
  | .input => runInput s
  | .event i e => runEvent s i e
  | .issue c => issueAt exec s c
  | .early c => .next (earlyTrap s c)
  | .pass c => .next (passCycle s c)
  | .array c i => runArray s c i
  | .half => .next { s with half := true }
  | .tick => .next (tickAll s)

/-- One step of the machine. -/
def stepMachine (s : State) : Result := let a := nextAct s; runAct a.2 a.1

/-! ### Placing one instruction (entry 12) -/

/-- A vector-matrix core that issues the bundle of a word in this cycle: at address 0 of its store, in the state of 05:R94. -/
def placeVm (k : Core) (bs : List W8) : Core :=
  { k with
    istore := memWrite k.istore 0 bs, codelen := max k.codelen bs.length, run := .running
    clk := { k.clk with due := true }, ph := { k.ph with grantM := 16, grantV := 16 }
    main := { k.main with pc := 0, stall := none, pends := [], next := 0 } }

/-- A control core that issues it: its instruction cache holds the line at address 0. -/
def placeCc (k : Core) (bs : List W8) : Core :=
  { k with
    ctl := { k.ctl with icache := k.ctl.icache.filter (fun x => x.1 ≠ 0) ++ [(0, bs ++ List.replicate (64 - bs.length) 0)] }
    run := .running, clk := { k.clk with due := true }
    main := { k.main with pc := 0, stall := none, pends := [], next := 0 } }

/-- The operation is legal on a control core only. -/
def ccOnly (w : W32) : Bool :=
  match decodeBundle false false (soloBundle w) with
  | .legal _ => false
  | .illegal _ _ => match decodeBundle true false (soloBundle w) with
    | .legal _ => true
    | .illegal _ _ => false

/-- The state whose next step issues the bundle of a word: on core 0, or on control core 0 where only a control core may have
it. -/
def placeWord (s : State) (w : W32) : State :=
  let bs := syllableBytes (soloBundle w)
  if ccOnly w then s.upd ⟨true, 0⟩ (fun k => placeCc k bs) else s.upd ⟨false, 0⟩ (fun k => placeVm k bs)

end Sys2Proof.Machine
end

