-- ==== Sys2Proof/Machine/Step.lean ====
section
/-!
DEFINITION. One step of the machine, and placing one instruction where the next step issues it.
-/

namespace Sys2Proof.Machine

/-- One action of the machine: an input, an event, a core's issue, or the passing of a reference tick (04:R78, 15:R297). -/
def step (s : State) : Host.Outcome State Fault Refusal := stepMachine s

/-- The state with one instruction where the next step issues it: as the one operation of a bundle, on core 0, or on control
core 0 where only a control core may have it. It stands for the admission of a task, or the start of a dispatcher (entry 12). -/
def State.withFetchWord (s : State) (nbits w : Nat) : State := if nbits = 32 then placeWord s (BitVec.ofNat 32 w) else s

end Sys2Proof.Machine
end

