-- ==== Sys2Proof/Safety.lean ====
section
/-!
DEFINITION. What counts as a safe run (the machine keeps going, its units are those of the package, its memories stay in their
canonical form), and the terms in which the statements speak of an operation: when it executes, and that it sends one result on
its way and leaves everything else as it was.
-/

namespace Sys2Proof

open Machine

/-! ### Runs -/

/-- A step that answers a next state. -/
def Runs (s : State) : Prop := ∃ t, step s = .next t

/-- The units of the package: 128 vector-matrix cores, 8 control cores, 8 partitions, 36 ports (01:R13, R14). -/
structure Units (s : State) : Prop where
  vms : s.vms.length = 128
  ccs : s.ccs.length = 8
  parts : s.parts.length = 8
  ports : s.ports.length = 36

/-- Every memory of the chip is in its canonical form: system memory, and the near memory and instruction store of every core. -/
def MemoriesCanonical (s : State) : Prop :=
  Memory.wf s.sys = true ∧ (∀ k ∈ s.vms, Memory.wf k.near.mem = true ∧ Memory.wf k.istore = true)
    ∧ ∀ k ∈ s.ccs, Memory.wf k.near.mem = true ∧ Memory.wf k.istore = true

/-- A run of n steps that never stops. -/
def RunsFor : Nat → State → Prop
  | 0, _ => True
  | n + 1, s => ∃ t, step s = .next t ∧ RunsFor n t

/-! ### Classes -/

/-- The four classes of slot operations (03:R65). -/
inductive SlotClass where
  | s | v | m | c
deriving DecidableEq, Repr

/-- The class of a slot. -/
def slotClass (slot : Nat) : SlotClass := match slot with | 0 => .s | 1 => .v | 2 => .v | 3 => .m | _ => .c

/-- The first slot of a class. -/
def SlotClass.slot : SlotClass → Nat
  | .s => 0
  | .v => 1
  | .m => 3
  | .c => 4

/-- The class in which the opcode map of 03:R65 lists an operation; an event of the machine has none. -/
def classOf : Instr → Option SlotClass
  | .nop | .add _ _ _ _ _ | .sub _ _ _ _ _ | .mul _ _ _ _ _ | .mulh _ _ _ _ _ _ | .div _ _ _ _ _ _ | .rem _ _ _ _ _ _
  | .and _ _ _ _ _ | .or _ _ _ _ _ | .xor _ _ _ _ _ | .andn _ _ _ _ _ | .shl _ _ _ _ _ | .shr _ _ _ _ _ _ | .rot _ _ _ _ _
  | .min _ _ _ _ _ _ | .max _ _ _ _ _ _ | .clz _ _ _ _ | .ctz _ _ _ _ | .popc _ _ _ _ | .bswap _ _ _ _ | .ext _ _ _ _ _ _
  | .ins _ _ _ _ _ | .sel _ _ _ _ _ _ | .cmp _ _ _ _ _ _ | .gand _ _ _ _ _ _ | .addi _ _ _ | .andi _ _ _ | .ori _ _ _
  | .xori _ _ _ | .shli _ _ _ | .shri _ _ _ | .cmpi _ _ _ _ | .movi _ _ | .movl _ | .movlh _ _ | .addl _ _ | .br _ _ _
  | .call _ _ _ | .bri _ _ _ _ | .ret | .loop _ _ | .nopc _ | .realign _ | .halt | .setfmt _ _ _ | .getfmt | .setcl _ _ _
  | .vmsel _ _ _ _ | .phpred _ _ _ _ | .signoff _ _ _ _ | .tlreadV _ _ _ _ | .tlreadE | .tlreadEc | .tlwait _ _ _ _
  | .tlarm _ _ _ _ | .qbind _ _ _ _ | .gtime _ _ _ _ | .csrr _ _ _ _ | .csrw _ _ _ _ | .putk _ _ _ | .rkey _ _ _ _ _
  | .rkeyS _ _ _ _ _ | .rctr _ _ _ _ _ | .rctrRd _ _ _ _ _ | .rskip _ _ _ _ _ | .rdraw _ _ _ _ | .stov _ _ _ _ _ | .stom _ _ _ _
  | .trap _ _ _ | .eret | .eretReplay | .eretFail | .preempt _ _ _ _ _ | .launch _ _ _ _ _ | .phload _ _ _ _ _
  | .savectx _ _ _ _ _ | .restctx _ _ _ _ _ | .fcst _ _ _ | .watchArm _ _ _ _ _ | .watchDis _ _ _ | .mcode _ _ _ _ _
  | .tlbinvPage _ _ _ | .tlbinvAll | .repair _ _ _ _ _ | .hostirq _ _ _ => some .s
  | .vadd _ _ _ _ | .vsub _ _ _ _ | .vmul _ _ _ _ | .vmulhi _ _ _ _ | .vmulhz _ _ _ _ | .vmad _ _ _ _ _ | .vand _ _ _ _
  | .vor _ _ _ _ | .vxor _ _ _ _ | .vandn _ _ _ _ | .vshl _ _ _ _ | .vshri _ _ _ _ | .vshrz _ _ _ _ | .vmini _ _ _ _
  | .vminz _ _ _ _ | .vmaxi _ _ _ _ | .vmaxz _ _ _ _ | .vabsi _ _ _ | .vclz _ _ _ | .vpopc _ _ _ | .vaddsi _ _ _ _
  | .vsubsi _ _ _ _ | .vcmpi _ _ _ _ | .vsel _ _ _ _ _ | .vfadd _ _ _ _ | .vfsub _ _ _ _ | .vfmul _ _ _ _ | .vfma _ _ _ _ _
  | .vfms _ _ _ _ _ | .vfnma _ _ _ _ _ | .vfmin _ _ _ _ | .vfmax _ _ _ _ | .vfabs _ _ _ | .vfneg _ _ _ | .vfcmp _ _ _ _
  | .vfclass _ _ _ | .vfscale _ _ _ _ | .vfdiv _ _ _ _ | .vfsqrt _ _ _ | .vadd2 _ _ _ | .vsub2 _ _ _ | .vmul2 _ _ _ | .dwadd _ _ _
  | .dwadds _ _ _ | .dwmul _ _ _ | .dwmuls _ _ _ | .dwnorm _ _ | .dwcvt _ _ _ | .vrsum2 _ _ | .vrsum _ _ _ | .vrmax _ _ _
  | .vrmin _ _ _ | .vpadd _ _ _ _ | .vpsub _ _ _ _ | .vpmul _ _ _ _ | .vpfma _ _ _ _ _ | .vpmin _ _ _ _ | .vpmax _ _ _ _
  | .vpdot _ _ _ _ _ | .vpcmp _ _ _ _ | .vcvt _ _ _ _ _ | .vcvtp2N _ _ _ _ _ | .vcvtp2W _ _ _ _ _ | .vcvtp4N _ _ _ _ _
  | .vcvtp4W _ _ _ _ _ | .vcvtp8N _ _ _ _ _ | .vcvtp8W _ _ _ _ _ | .vqnt _ _ _ _ _ | .vqdiv _ _ _ _ _ | .vdeq _ _ _ _ _
  | .vmxpackScale _ _ _ _ | .vmxpackAscale _ _ _ _ | .vmxpackPutp _ _ _ _ _ | .vmxunp _ _ _ _ _ | .vftoi _ _ _ _ | .vitof _ _ _ _
  | .vrcp _ _ _ | .vrsq _ _ _ | .vexp2 _ _ _ | .vlog2 _ _ _ | .vsin _ _ _ | .vcos _ _ _ | .vtanh _ _ _ | .vsigm _ _ _
  | .vexp _ _ _ | .vperm _ _ _ _ _ | .vbcast _ _ _ _ | .xcl _ _ _ _ _ | .xclb _ _ _ _ _ | .xred _ _ _ _ | .xcopy _ _ _
  | .vmov _ _ _ | .vmovi _ _ | .vtos _ _ _ | .vtree _ _ _ | .vmopTest _ _ _ | .vmopNz _ _ | .vmopGet _ _ _ | .vmopAnd _ _
  | .vmopOr _ _ | .vmopXor _ _ | .vmopNot _ _ | .viota _ _ _ _ | .vrand _ _ _ _ | .vrandA _ _ _ _ | .vcount _ _ _ | .vscan _ _ _ _
  | .vputk _ _ => some .v
  | .mset _ | .mcall _ | .mloads _ _ | .mswap | .mstream _ _ _ _ | .mexp _ | .mdrain _ _ _ _ | .mepiCol _ | .mepiRow _
  | .mepiCfg _ | .mclr _ _ | .mspmeta _ | .macc _ _ _ | .mtaintClr | .mtaintSet | .mstat _ _ => some .m
  | .ldb _ _ _ _ | .ldh _ _ _ _ | .ldw _ _ _ _ | .ldd _ _ _ _ | .stb _ _ _ _ | .sth _ _ _ _ | .stw _ _ _ _ | .std _ _ _ _
  | .ldv _ _ _ _ | .stv _ _ _ _ | .ldvb _ _ _ _ | .ldg _ _ _ _ | .stg _ _ _ _ | .cstv _ _ _ _ _ | .ldp _ _ _ _ | .stp _ _ _ _
  | .adda _ _ | .mova _ _ _ _ | .fence _ _ | .strel _ _ _ _ | .ldacq _ _ _ _ | .atadd _ _ _ _ | .atmin _ _ _ _ | .atmax _ _ _ _
  | .atand _ _ _ _ | .ator _ _ _ _ | .atswp _ _ _ _ | .atcas _ _ _ _ | .atfadd _ _ _ _ | .atbadd _ _ _ _ | .binrd _ _ _ _
  | .bininit _ _ _ _ | .qresv _ _ _ | .qpush _ _ _ _ | .qstat _ _ _ _ | .wopen _ _ _ | .wadv _ _ | .wclose | .wresRetry
  | .wresFail | .wstat _ _ _ | .wflush | .txsend _ _ _ | .txwalk | .txcopy _ _ _ | .txresRetry | .txresFail | .rxarm _ _
  | .rxflag _ _ _ | .mcsto _ _ _ | .mcapplBind | .mcapplRd _ _ | .mcapplUnbind | .mcjoinJoin _ _ _ | .mcjoinLeave _ _ _
  | .ratom _ _ _ | .rload _ _ _ => some .c
  | .emptyBundle | .resultLanding | .bankAccess | .engineBankAccess | .eccRewrite | .arrayRowAccumulate | .drainRowWrite
  | .urgentContextEntry | .shadowDelivery | .preemptDelivery | .tlwaitRelease | .realignRelease | .c1LoadArrival | .fenceDone
  | .fetchMissFill | .phloadDone | .launchDone | .mcodeDone | .mcodeTargetLoad | .repairDone | .tlbinvDone | .watchArmDone
  | .watchFire | .hostirqRelease | .irqWindowExpiry | .msixUnmask | .signoffMessage | .portSignoff | .receiveSignoff
  | .cloveArrival | .phaseStart | .missedSignoff | .slackOverrun | .slackHardLimit | .maceWindow | .rowFill | .rowDrain
  | .windowOpComplete | .eventOverflowMove | .pageWalk | .transferComplete | .notifyPush | .qresvComplete | .qpushEnqueue
  | .timetableSourceRead | .timetabledFlitDepart | .flitArrival | .flitReplay | .linkRetrainDone | .linkLoss | .multicastStamp
  | .multicastApply | .multicastResend | .mcstoComplete | .multicastJoinRecord | .remoteAtomicPerform | .ratomReply | .ratomResend
  | .alignmentLost | .thermalStop | .thermalIndexUpdate | .taskAdmission | .taskStart | .indirectCountRead | .backfillCutoff
  | .ensemblePartnerTimeout | .taskEnd | .savePoint | .restctxDone | .form | .dissolve | .opench | .closech | .group | .restart
  | .domain | .sparecc | .fwstage | .fwact | .serviceCommandComplete | .irqwinWrite | .allotWrite | .registerWrite | .hostWrite
  | .hostRead | .patrolScrub | .coldReset | .warmReset | .getVersion | .getCapabilities | .negotiateAlgorithms | .getDigests
  | .getCertificate | .challenge | .getMeasurements | .thermalLimitReached | .hbmRefresh | .c1StorePerformed
  | .multicastMemberFailed => none

/-! ### When an operation executes -/

/-- The issuing core exists, and its slot has room for one more result (19:R390). -/
structure HasRoom (s : State) : Prop where
  core : hasCore s s.cur.core = true
  room : noRoom s = false

/-- The same of an operation whose guard is true (03:R53). -/
structure Executes (s : State) (g : BitVec 3) (n : BitVec 1) : Prop where
  core : hasCore s s.cur.core = true
  room : noRoom s = false
  guard : guardOn s g n = true

/-- A counted floating-point operation of a V slot: its window's grant is not used up, or the urgent context issues it
(15:R315, 19:R386). -/
structure HasDuty (s : State) : Prop where
  core : hasCore s s.cur.core = true
  room : noRoom s = false
  duty : isUrg s = true ∨ (me s).ph.vCount + 1 ≤ 128 * (me s).ph.grantV

/-! ### What it does -/

/-- The QEMPTY bits of the empty queue latches that these sources read (14:R288). -/
def readsEmpty (s : State) (srcs : List (BitVec 6)) : BitVec 4 :=
  (srcs.map (·.toNat)).foldl (fun a v => a ||| emptyRead s v) 0

/-- One of these sources is a queue latch that shows an entry, which its reader acquires (17:R355). -/
def readsEntry (s : State) (srcs : List (BitVec 6)) : Bool := (srcs.map (·.toNat)).any (shownRead s)

/-- The issuing core after an operation that sends the results `ps`: they join the results in flight of the issuing context;
its QEMPTY bits and, on a control core, its small cache follow what the sources read; `duty` operations are counted. Nothing
else of the core changes. -/
def coreSending (s : State) (srcs : List (BitVec 6)) (ps : List Pend) (duty : Nat) : Core :=
  { (me s).updCtx (fun x => { x with pends := x.pends ++ ps, qempty := x.qempty ||| readsEmpty s srcs }) with
    ctl := { (me s).ctl with lines := if readsEntry s srcs && isCC s then [] else (me s).ctl.lines }
    ph := { (me s).ph with vCount := (me s).ph.vCount + duty } }

/-- From s to t the issuing core becomes k, and nothing else changes but the model's own bookkeeping: no other core, no memory
outside this core, no partition, gang, flit or service register. -/
structure OnlyCore (s t : State) (k : Core) : Prop where
  chip : t = { s with vms := t.vms, ccs := t.ccs, serial := t.serial, cur := t.cur }
  cur : t.cur = { s.cur with noted := t.cur.noted }
  core : t.core s.cur.core = k
  others : ∀ c, c ≠ s.cur.core → t.core c = s.core c
  units : t.vms.length = s.vms.length ∧ t.ccs.length = s.ccs.length

/-- The operation answers a next state in which the result p is on its way and, that apart, nothing has changed. -/
def Sends (s : State) (i : Instr) (srcs : List (BitVec 6)) (p : Pend) : Prop :=
  ∃ t, exec i s = .next t ∧ OnlyCore s t (coreSending s srcs [p] 0)

/-- The same of a counted vector operation; the urgent context counts none. -/
def SendsCounted (s : State) (i : Instr) (srcs : List (BitVec 6)) (p : Pend) : Prop :=
  ∃ t, exec i s = .next t ∧ OnlyCore s t (coreSending s srcs [p] (if isUrg s then 0 else 1))

/-- A 64-bit result for the destination that the S slot' field d names, due L cycles after issue; it enters the line of the S
slot (04:R73, 05:R97). -/
def wordResult (s : State) (L : Nat) (d : BitVec 5) (v : W64) : Pend :=
  { newPend s L with dst := dstS s d.toNat, val := .w v, latch := some 0 }

/-- A guard result (06:R116). -/
def guardResult (s : State) (d : BitVec 3) (b : Bool) : Pend :=
  { newPend s 1 with dst := .g d.toNat, val := .w (if b then 1 else 0), latch := some 0 }

/-- An effect on control state due L cycles after issue (19:R389). -/
def effResult (s : State) (L : Nat) (e : Eff) : Pend := { newPend s L with effs := [e] }

/-- A vector result of the V slots: lanes l under the active lanes act, with flags fl, due L cycles after issue; its native value
exists E cycles after issue (04:R83, 05:R97, R100). -/
def lanesResult (s : State) (L E : Nat) (w : BitVec 1) (d : BitVec 5) (act : W128) (l : Lanes) (fl : W8) : Pend :=
  { newPend s L with
    exist := (me s).clk.cyc + E, dst := dstV s w d act
    val := valV s w (if w = 0 ∧ ownsW s.cur.head s.cur.slot then l else maskLanes act l)
    latch := some s.cur.slot, flags := fl }

/-- The result of a reduction, delivered in the lanes of act only (07:R154 to R156). The owner of the write port sends lane 0 alone,
with 0 above it (the model's choice, log entry 36), and where lane 0 is inactive nothing reaches a register, a latch line or a flag. -/
def reducedResult (s : State) (L : Nat) (w : BitVec 1) (d : BitVec 5) (act : W128) (l : Lanes) (fl : W8) : Pend :=
  if w = 0 ∧ ownsW s.cur.head s.cur.slot then
    if act.getLsbD 0 then
      { newPend s L with dst := .k (headWReg s.cur.head), val := .w ((lane l 0).setWidth 64), latch := some s.cur.slot, flags := fl }
    else { newPend s L with val := .w ((lane l 0).setWidth 64) }
  else lanesResult s L L w d act l fl

/-- The same for results that carry flags, under the slot's own active lanes. -/
def flagged (s : State) (L E : Nat) (w : BitVec 1) (d : BitVec 5) (l : List FR) : Pend :=
  lanesResult s L E w d (activeLanes (cx s) (isY s)) (l.map (·.v)) (activeFlags (activeLanes (cx s) (isY s)) l)

/-- A pair of vector results for registers d and d + 1 (02:R35). -/
def pairResult (s : State) (L : Nat) (d : Nat) (act : W128) (l : List (W32 × W32 × W8)) : Pend :=
  { newPend s L with
    dst := .pair (isY s) d act, val := .p (maskLanes act (l.map (·.1))) (maskLanes act (l.map (·.2.1)))
    latch := some s.cur.slot
    flags := (l.zip laneIdx).foldl (fun a p => if act.getLsbD p.2 then a ||| p.1.2.2 else a) 0 }

/-! ### Accesses to near memory -/

/-- What an access of the issuing core to base + d asks for: n bytes at t, with these bank claims and link slots free. -/
structure Reaches (s : State) (b : BitVec 4) (d : Int) (n : Nat) (claims : List (Nat × List (Nat × Nat))) (links : List (Nat × Nat))
    (t : Target) : Prop where
  core : hasCore s s.cur.core = true
  formed : formAddr s b d = .inr t
  aligned : t.off % n = 0
  banks : t.core.cc = true ∨ bankClash (s.core t.core) claims = none
  links : t.core.cc = true ∨ linkClash s links = none

/-- The target core with accesses scheduled, and their claims registered where it is a vector-matrix core. -/
def targetAfter (k : Core) (cc : Bool) (accs : List Access) (claims : List (Nat × List (Nat × Nat))) : Core :=
  { k with near := { k.near with
      accs := k.near.accs ++ accs
      claims := if cc then k.near.claims
        else k.near.claims.filter (fun c => k.clk.arch ≤ c.1) ++ claims.map (fun c => (k.clk.arch + c.1, bankMask (c.2.map (·.1)))) } }

/-- The issuing core with results on their way and its last claim noted. -/
def issuerAfter (k : Core) (ps : List Pend) (last : Nat) : Core :=
  { k.updCtx (fun x => { x with pends := x.pends ++ ps }) with lastClaim := max k.lastClaim last }

/-- From s to u the issuing core has scheduled accesses to the near memory of t, and nothing else has changed: no byte of any memory
and no register. -/
structure Schedules (s u : State) (t : CoreRef) (accs : List Access) (claims : List (Nat × List (Nat × Nat))) (links : List (Nat × Nat))
    (ps : List Pend) : Prop where
  chip : u = { s with vms := u.vms, ccs := u.ccs, serial := s.serial + 1, links := u.links }
  slots : u.links = if t.cc then s.links else match (me s).ph.gang with
    | none => s.links
    | some g => s.links ++ links.map (fun x => (g, (me s).ph.phc + x.1, x.2))
  core : u.core s.cur.core = issuerAfter (if t = s.cur.core then targetAfter (me s) t.cc accs claims else me s) ps
    (if isUrg s || t.cc then 0 else cyc s + lastOffset claims links)
  target : t ≠ s.cur.core → u.core t = targetAfter (s.core t) t.cc accs claims
  others : ∀ c, c ≠ s.cur.core → c ≠ t → u.core c = s.core c
  units : u.vms.length = s.vms.length ∧ u.ccs.length = s.ccs.length

/-! ### Events of the machine -/

/-- From s to t the core c becomes k, and nothing else changes but the model's own bookkeeping. -/
structure CoreBecomes (s t : State) (c : CoreRef) (k : Core) : Prop where
  chip : t = { s with vms := t.vms, ccs := t.ccs, serial := t.serial }
  core : t.core c = k
  others : ∀ d, d ≠ c → t.core d = s.core d
  units : t.vms.length = s.vms.length ∧ t.ccs.length = s.ccs.length

/-- The event answers a next state in which the core c has become k and nothing else has changed. -/
def CoreEvent (s : State) (i : Instr) (c : CoreRef) (k : Core) : Prop := ∃ t, exec i s = .next t ∧ CoreBecomes s t c k

/-- From a memory m in its canonical form, m' is canonical and holds the bytes bs at a, and every other byte of m. -/
def WritesOnly (m m' : List Host.Cell) (a : Nat) (bs : List W8) : Prop :=
  Memory.wf m = true → Memory.wf m' = true ∧ ∀ x, memGet m' x = if a ≤ x ∧ x < a + bs.length then bs.getD (x - a) 0 else memGet m x

/-- No granule of 16 bytes that n bytes at a touch is poisoned, holds an error or waits to be rewritten. -/
def Clean (m : Near) (a n : Nat) : Prop := ∀ g ∈ granules 16 a n, g ∉ m.poison ∧ g ∉ m.cerr ∧ g ∉ m.uerr ∧ g ∉ m.fixes

/-- The same of the 64-byte granules of system memory. -/
def SysClean (s : State) (a n : Nat) : Prop := ∀ g ∈ granules 64 a n, g ∉ s.syspoison ∧ g ∉ s.syscerr ∧ g ∉ s.sysuerr

/-- No granule of system memory holds an error that a read would meet (11:R233). -/
def SysQuiet (s : State) : Prop := s.syscerr = [] ∧ s.sysuerr = []

/-- The core after operation number n of counter `ctr` is complete, where no threshold waits on the counter: the value follows the
finished numbers (14:R278). -/
def countedCore (k : Core) (ctr n : Nat) : Core :=
  setTL k ctr (tlAdvance (insNat n (getTL k ctr).done).length { getTL k ctr with done := insNat n (getTL k ctr).done })

/-- The operations of a counter that are issued and not complete: neither counted nor finished out of order (14:R278). -/
def openOps (k : Core) (ctr : Nat) : Nat := (getTL k ctr).next - (getTL k ctr).val - (getTL k ctr).done.length

/-- Window w of the core with one more operation, which takes the next number of its counter (11:R216); the seventeenth outstanding
fails FULL (R217). -/
def windowIssued (s : State) (k : Core) (w : Nat) (kind : WKind) (ready : Bool) : Core :=
  let full := decide (16 ≤ openOps k w)
  { k with
    eng := { k.eng with
      tl := k.eng.tl.set w { getTL k w with next := (getTL k w).next + 1 }
      wins := k.eng.wins.set w { getWin k w with ops := (getWin k w).ops ++
        [{ num := (getTL k w).next + 1, kind := kind, serial := s.serial, ready := ready || full
           out := if full then some (2, winDetail 11 w 0) else none, after := s.cur.base }] } } }

/-- Transfer context i, on counter t, of the core with one more operation, which takes the next number of its counter (16:R332); the
seventeenth outstanding fails FULL, a queue operation with its channel in the detail (14:R285). -/
def transferIssued (s : State) (k : Core) (i t : Nat) (kind : TxKind) (ready : Bool) (daddr start : Nat) : Core :=
  let full := decide (16 ≤ openOps k t)
  let ch : Nat := match kind with | .qresv ch _ => ch | .qpush ch _ => ch | _ => 0
  { k with
    eng := { k.eng with
      tl := k.eng.tl.set t { getTL k t with next := (getTL k t).next + 1 }
      txs := k.eng.txs.set i { getTx k i with ops := (getTx k i).ops ++
        [{ num := (getTL k t).next + 1, kind := kind, serial := s.serial, ready := ready || full, daddr := daddr, start := start
           out := if full then some (2, txDetail 11 t 0 + ch) else none, after := s.cur.base }] } } }

/-- The core after the stalled instruction of its issuing context has completed with a value: the next bundle may issue in the next
cycle, in which the value lands, as the result of an operation issued when the stall began (03:R62). -/
def stallEnded (k : Core) (st : Stall) (v : W64) : Core :=
  k.updCtx (fun x => { x with
    stall := none, next := max x.next (k.clk.arch + 1)
    pends := x.pends ++ [{ serial := st.serial, slot := 0, due := k.clk.arch + 1, dst := st.dst, val := .w v, latch := some 0, ten := fmtTen x.fmt }] })

/-- A context of core c, the one that issues, is stalled by an instruction that the event s.ev is about. -/
structure Stalled (s : State) (c : CoreRef) (kind : StallKind) (st : Stall) : Prop where
  core : hasCore s c = true
  at_ : s.ev.core = c
  ctx : s.ev.j = if (s.core c).tp.active then 1 else 0
  stall : (s.core c).ctx.stall = some st
  kind : st.kind = kind

end Sys2Proof
end

