-- ==== Sys2Proof/Certificates/Slice0/Obligations.lean ====
section
/-!
DEFINITION. The statements about the machine, one definition each, in the order of OBLIGATIONS.json. The terms they use stand
in Safety.lean.
-/

open Sys2Proof Sys2Proof.Machine

/-! ### The S slot -/

/-- R111: the register forms of the S slot send their value to the destination, with the latency of R79, and change nothing
else.
R114, R115: the immediate and long forms, which have no guard; NOP does nothing.
R112: shifts by whole counts, and division with its ISTAT bits, which a false guard does not set.
(Where the rules leave it open: the model's readings, log entry 20.) -/
def Obligations.ScalarResults : Prop :=
  ((∀ (s : State) (d : BitVec 5) (a b : BitVec 6) (g : BitVec 3) (n z : BitVec 1) (i : BitVec 3), Executes s g n →
    Sends s (.add d a b g n) [a, b] (wordResult s 1 d (srcS s a + srcS s b)) ∧
    Sends s (.sub d a b g n) [a, b] (wordResult s 1 d (srcS s a - srcS s b)) ∧
    Sends s (.mul d a b g n) [a, b] (wordResult s 3 d (srcS s a * srcS s b)) ∧
    Sends s (.mulh d a b g n z) [a, b] (wordResult s 3 d
      (if z = 1 then BitVec.ofNat 64 ((srcS s a).toNat * (srcS s b).toNat / 2 ^ 64)
       else BitVec.ofInt 64 ((srcS s a).toInt * (srcS s b).toInt / 2 ^ 64))) ∧
    Sends s (.and d a b g n) [a, b] (wordResult s 1 d (srcS s a &&& srcS s b)) ∧
    Sends s (.or d a b g n) [a, b] (wordResult s 1 d (srcS s a ||| srcS s b)) ∧
    Sends s (.xor d a b g n) [a, b] (wordResult s 1 d (srcS s a ^^^ srcS s b)) ∧
    Sends s (.andn d a b g n) [a, b] (wordResult s 1 d (srcS s a &&& ~~~ srcS s b)) ∧
    Sends s (.rot d a b g n) [a, b] (wordResult s 1 d ((srcS s a).rotateLeft ((srcS s b).toNat % 64))) ∧
    Sends s (.min d a b g n z) [a, b] (wordResult s 1 d
      (if z = 1 then BitVec.ofNat 64 (min (srcS s a).toNat (srcS s b).toNat)
       else BitVec.ofInt 64 (min (srcS s a).toInt (srcS s b).toInt))) ∧
    Sends s (.max d a b g n z) [a, b] (wordResult s 1 d
      (if z = 1 then BitVec.ofNat 64 (max (srcS s a).toNat (srcS s b).toNat)
       else BitVec.ofInt 64 (max (srcS s a).toInt (srcS s b).toInt))) ∧
    Sends s (.sel d a b g n i) [a, b] (wordResult s 1 d (if readG (cx s) i.toNat then srcS s a else srcS s b))) ∧
  (∀ (s : State) (d : BitVec 5) (a c : BitVec 6) (i : BitVec 13), HasRoom s →
    Sends s (.addi d a i) [a] (wordResult s 1 d (srcS s a + i.signExtend 64)) ∧
    Sends s (.andi d a i) [a] (wordResult s 1 d (srcS s a &&& i.setWidth 64)) ∧
    Sends s (.ori d a i) [a] (wordResult s 1 d (srcS s a ||| i.setWidth 64)) ∧
    Sends s (.xori d a i) [a] (wordResult s 1 d (srcS s a ^^^ i.setWidth 64)) ∧
    Sends s (.shli d a c) [a] (wordResult s 1 d (srcS s a <<< c.toNat)) ∧
    Sends s (.shri d a c) [a] (wordResult s 1 d (srcS s a >>> c.toNat)) ∧
    Sends s (.movi d i) [] (wordResult s 1 d (i.signExtend 64)) ∧
    Sends s (.movl d) [] (wordResult s 1 d (s.cur.lend.signExtend 64)) ∧
    Sends s (.movlh d a) [a] (wordResult s 1 d (s.cur.lend ++ (srcS s a).setWidth 32)) ∧
    Sends s (.addl d a) [a] (wordResult s 1 d (srcS s a + s.cur.lend.signExtend 64)) ∧
    exec .nop s = .next s)) ∧
  (∀ (s : State) (d : BitVec 5) (a b : BitVec 6) (g : BitVec 3) (n : BitVec 1),
    let x := srcS s a
    let y := srcS s b
    let sends (i : Instr) (v : W64) (ist : BitVec 2) : Prop := Sends s i [a, b] { wordResult s 34 d v with istat := ist }
    (Executes s g n →
      Sends s (.shl d a b g n) [a, b] (wordResult s 1 d (if 64 ≤ y.toNat then 0 else x <<< y.toNat)) ∧
      Sends s (.shr d a b g n 1) [a, b] (wordResult s 1 d (if 64 ≤ y.toNat then 0 else x >>> y.toNat)) ∧
      Sends s (.shr d a b g n 0) [a, b] (wordResult s 1 d
        (if 64 ≤ y.toNat then (if x.msb then BitVec.allOnes 64 else 0) else x.sshiftRight y.toNat)) ∧
      (y = 0 → sends (.div d a b g n 1) (BitVec.allOnes 64) 1 ∧ sends (.rem d a b g n 1) x 1
        ∧ sends (.div d a b g n 0) (BitVec.allOnes 64) 1 ∧ sends (.rem d a b g n 0) x 1) ∧
      (y ≠ 0 → sends (.div d a b g n 1) (BitVec.ofNat 64 (x.toNat / y.toNat)) 0
        ∧ sends (.rem d a b g n 1) (BitVec.ofNat 64 (x.toNat - y.toNat * (x.toNat / y.toNat))) 0) ∧
      (x.toInt = -2 ^ 63 ∧ y.toInt = -1 → sends (.div d a b g n 0) x 2 ∧ sends (.rem d a b g n 0) 0 2) ∧
      (y ≠ 0 ∧ ¬ (x.toInt = -2 ^ 63 ∧ y.toInt = -1) →
        sends (.div d a b g n 0) (BitVec.ofInt 64 (Int.tdiv x.toInt y.toInt)) 0
        ∧ sends (.rem d a b g n 0) (BitVec.ofInt 64 (x.toInt - y.toInt * Int.tdiv x.toInt y.toInt)) 0)) ∧
    (guardOn s g n = false → ∀ z, exec (.div d a b g n z) s = .next s ∧ exec (.rem d a b g n z) s = .next s))

/-- R111, R113: the counts and the field moves of the S slot. Bits are named one by one: a leading or trailing count is the number
of 0 bits before the first 1, EXT takes the field that b names and fills with 0 or with its top bit, INS replaces it.
R116, R117: comparisons and guard logic write 0 or 1 to a guard and into the line of the S slot. -/
def Obligations.BitAndGuardResults : Prop :=
  (∀ (s : State) (d : BitVec 5) (a b : BitVec 6) (g : BitVec 3) (n z : BitVec 1), Executes s g n →
    (∃ k, Sends s (.clz d a g n) [a] (wordResult s 1 d (BitVec.ofNat 64 k)) ∧ k ≤ 64
      ∧ (∀ j < k, (srcS s a).getLsbD (63 - j) = false) ∧ (k < 64 → (srcS s a).getLsbD (63 - k) = true)) ∧
    (∃ k, Sends s (.ctz d a g n) [a] (wordResult s 1 d (BitVec.ofNat 64 k)) ∧ k ≤ 64
      ∧ (∀ j < k, (srcS s a).getLsbD j = false) ∧ (k < 64 → (srcS s a).getLsbD k = true)) ∧
    Sends s (.popc d a g n) [a] (wordResult s 1 d (BitVec.ofNat 64 ((List.range 64).countP (fun j => (srcS s a).getLsbD j)))) ∧
    (∃ v, Sends s (.bswap d a g n) [a] (wordResult s 1 d v)
      ∧ ∀ j < 8, v.extractLsb' (8 * j) 8 = (srcS s a).extractLsb' (8 * (7 - j)) 8) ∧
    (∃ v, Sends s (.ext d a b g n z) [a, b] (wordResult s 1 d v)
      ∧ ∀ j < 64, v.getLsbD j = if j < fieldWidth (srcS s b) then (srcS s a).getLsbD (fieldPos (srcS s b) + j)
          else (z = 0 && (srcS s a).getLsbD (fieldPos (srcS s b) + fieldWidth (srcS s b) - 1))) ∧
    (∃ v, Sends s (.ins d a b g n) [a, b] (wordResult s 1 d v)
      ∧ ∀ j < 64, v.getLsbD j =
          if fieldPos (srcS s b) ≤ j ∧ j < fieldPos (srcS s b) + fieldWidth (srcS s b) then (srcS s a).getLsbD (j - fieldPos (srcS s b))
          else (readS (cx s) d.toNat).getLsbD j)) ∧
  (∀ (s : State) (d : BitVec 3) (a b : BitVec 6) (i : BitVec 13) (g : BitVec 3) (n : BitVec 1),
    let x := srcS s a
    let y := srcS s b
    let j := i.signExtend 64
    (Executes s g n →
      Sends s (.cmp d a b g n 0) [a, b] (guardResult s d (x = y)) ∧
      Sends s (.cmp d a b g n 1) [a, b] (guardResult s d (x ≠ y)) ∧
      Sends s (.cmp d a b g n 2) [a, b] (guardResult s d (x.toInt < y.toInt)) ∧
      Sends s (.cmp d a b g n 3) [a, b] (guardResult s d (y.toInt ≤ x.toInt)) ∧
      Sends s (.cmp d a b g n 4) [a, b] (guardResult s d (x.toNat < y.toNat)) ∧
      Sends s (.cmp d a b g n 5) [a, b] (guardResult s d (y.toNat ≤ x.toNat)) ∧
      Sends s (.gand d a b g n 0) [a, b] (guardResult s d (x &&& y ≠ 0)) ∧
      Sends s (.gand d a b g n 1) [a, b] (guardResult s d (x ||| y ≠ 0)) ∧
      Sends s (.gand d a b g n 2) [a, b] (guardResult s d (x ^^^ y ≠ 0)) ∧
      Sends s (.gand d a b g n 3) [a, b] (guardResult s d (x &&& ~~~ y ≠ 0))) ∧
    (HasRoom s →
      Sends s (.cmpi 0 d a i) [a] (guardResult s d (x = j)) ∧
      Sends s (.cmpi 1 d a i) [a] (guardResult s d (x ≠ j)) ∧
      Sends s (.cmpi 2 d a i) [a] (guardResult s d (x.toInt < j.toInt)) ∧
      Sends s (.cmpi 3 d a i) [a] (guardResult s d (j.toInt ≤ x.toInt))))
/-! ### Control of the S slot -/

/-- R75, R118 to R121: a taken transfer counts three bundles to its target and ends every loop level; CALL and BRI send the link
address. Computed targets are multiples of 4 below 2^48, and on a vector-matrix core every target lies below CODELEN.
R78, R122, R123, R126, R314: LOOP opens a level after the present bundle, or passes its body over when its count is 0; NOPC
moves the next issue cycle; HALT stops the core outside phases and traps; REALIGN stalls it.
(Where the rules leave it open: the model's readings, log entries 26 and 27.) -/
def Obligations.TransfersLoopsAndIdling : Prop :=
  (∀ (s : State) (d : BitVec 5) (a : BitVec 6) (g : BitVec 3) (n : BitVec 1) (p : BitVec 20),
    let reaches (v : W64) : Prop := isCC s = true ∨ v.toNat < (me s).codelen
    let whole (v : W64) : Prop := v.toNat % 4 = 0 ∧ v.toNat < 2 ^ 48
    let to_ (v : W64) (x : Ctx) : Ctx := { x with redirs := x.redirs ++ [(3, v)], loops := [] }
    let link : Pend := wordResult s 1 d (linkAddr s)
    let rel := s.cur.pc + (p.signExtend 64 <<< 2)
    let back := readS (cx s) (linkReg s)
    (Executes s g n ∧ reaches rel →
      (∃ t, exec (.br g n p) s = .next t ∧ OnlyCore s t ((me s).updCtx (to_ rel))) ∧
      (∃ t, exec (.call g n p) s = .next t
        ∧ OnlyCore s t ((coreSending s [] [{ link with dst := dstS s (linkReg s) }] 0).updCtx (to_ rel)))) ∧
    (Executes s g n ∧ reaches (srcS s a) ∧ whole (srcS s a) →
      (d = 0 → ownsW s.cur.head s.cur.slot = false →
        ∃ t, exec (.bri d a g n) s = .next t ∧ OnlyCore s t ((coreSending s [a] [] 0).updCtx (to_ (srcS s a)))) ∧
      (d ≠ 0 ∨ ownsW s.cur.head s.cur.slot = true →
        ∃ t, exec (.bri d a g n) s = .next t ∧ OnlyCore s t ((coreSending s [a] [link] 0).updCtx (to_ (srcS s a))))) ∧
    (Executes s (sylField s 4 3) (sylField s 3 1) ∧ reaches back ∧ whole back →
      ∃ t, exec .ret s = .next t ∧ OnlyCore s t ((me s).updCtx (to_ back)))) ∧
  (∀ (s : State) (a r : BitVec 6) (n : BitVec 10) (m : BitVec 13),
    let x := cx s
    let count := (srcS s a).toNat % 2 ^ 32
    let pass (l : List LoopLvl) : List LoopLvl := match l with | [] => [] | y :: t => { y with pos := y.pos + n.toNat } :: t
    (hasCore s s.cur.core = true ∧ n ≠ 0 ∧ x.loops.length < 4 ∧ bodyTooLong x.loops n.toNat = false ∧ x.redirs = [] →
      (count ≠ 0 → ∃ t, exec (.loop a n) s = .next t ∧ OnlyCore s t ((coreSending s [a] [] 0).updCtx (fun x => { x with
        loops := { body := s.cur.pc + BitVec.ofNat 64 (4 * s.cur.len), len := n.toNat, pos := 0, remain := count - 1 } :: pass x.loops }))) ∧
      (count = 0 → ∃ t, exec (.loop a n) s = .next t ∧ t.cur.skip = some (afterBody s n.toNat)
        ∧ OnlyCore s { t with cur := { t.cur with skip := s.cur.skip } }
            ((coreSending s [a] [] 0).updCtx (fun x => { x with loops := pass x.loops, next := cyc s + 3 })))) ∧
    (hasCore s s.cur.core = true →
      (∃ t, exec (.nopc m) s = .next t ∧ OnlyCore s t ((me s).updCtx (fun x => { x with next := cyc s + 1 + m.toNat }))) ∧
      (inPhase s = false → ∃ t k, exec (.realign r) s = .next t ∧ OnlyCore s t k ∧ k = (me s).updCtx (fun x => { x with stall := k.ctx.stall })
        ∧ ∃ st, k.ctx.stall = some st ∧ st.kind = .realign ∧ st.a.toNat = r.toNat ∧ st.b.toNat = (headPop s.cur.head).toNat) ∧
      (isUrg s = false ∧ inPhase s = false ∧ guardOn s (sylField s 4 3) (sylField s 3 1) = true →
        ∃ t, exec .halt s = .next t ∧ OnlyCore s t { me s with run := .halted, main := { (me s).main with redirs := [] } })) ∧
    (inPhase s = true → exec (.realign r) s = .next (issueFail s 0x01 0)) ∧
    (guardOn s (sylField s 4 3) (sylField s 3 1) = true →
      (isUrg s = true → exec .halt s = .next (issueFail s 0x0A 0)) ∧
      (isUrg s = false ∧ inPhase s = true → exec .halt s = .next (issueFail s 0x01 0))))

/-- R127 to R136, R279, R381: what reads control state sends it to its destination one cycle later. The time sources count
reference ticks, phase cycles and core cycles; a CSR of a reserved number reads 0.
R381, R382: a draw sends its value at c+4; RDRAW and VRAND.a also advance the counter at c+1, as one operation.
(Where the rules leave it open: the model's readings, log entries 2, 20 and 42.) -/
def Obligations.ControlStateReadsAndDraws : Prop :=
  (∀ (s : State) (d : BitVec 5) (a : BitVec 6) (g : BitVec 3) (n : BitVec 1) (k : BitVec 2),
    let x := cx s
    let t := (me s).tr
    (Executes s g n →
      Sends s (.gtime d g n 0) [] (wordResult s 1 d (BitVec.ofNat 64 (s.now - s.dccBase))) ∧
      Sends s (.gtime d g n 1) [] (wordResult s 1 d (BitVec.ofNat 64 (if isCC s then (me s).clk.cyc else (me s).ph.phc))) ∧
      Sends s (.gtime d g n 2) [] (wordResult s 1 d (BitVec.ofNat 64 (me s).clk.cyc)) ∧
      (∀ c v, (srcS s a).toNat = c → (c, v) ∈ [(0x00, x.fflags.setWidth 64), (0x01, x.istat.setWidth 64),
          (0x02, (x.g ||| 1).setWidth 64), (0x10, t.tcause), (0x11, t.tpc), (0x12, t.tinfo), (0x13, t.ttime), (0x14, t.tstate),
          (0x15, t.tvec), (0x16, t.tscr), (0x17, 0), (0x08, 0)] →
        Sends s (.csrr d a g n) [a] (wordResult s 1 d v)) ∧
      (Sends s (.csrr d a g n) [a] (wordResult s 1 d (csrRead s (srcS s a).toNat))) ∧
      (isCC s = false → srcS s a = 0x03 → Sends s (.csrr d a g n) [a] (wordResult s 1 d (x.clmask.setWidth 64))) ∧
      (isCC s = true ∨ (srcS s a).toNat % 16 ≤ 6 →
        Sends s (.tlreadV d a g n) [a] (wordResult s 1 d (BitVec.ofNat 64 (getTL (me s) ((srcS s a).toNat % 16)).val))) ∧
      Sends s (.tlreadV d a g n) [a] (wordResult s 1 d (BitVec.ofNat 64 (counterValue s s.cur.core ((srcS s a).toNat % 16)))) ∧
      Sends s (.rctrRd d a g n k) [a] (wordResult s 1 d
        (if (srcS s a).getLsbD 0 then (slotKC s k.toNat).2.extractLsb' 64 64 else (slotKC s k.toNat).2.extractLsb' 0 64))) ∧
    (Executes s (sylField s 4 3) (sylField s 3 1) →
      Sends s .getfmt [] (wordResult s 1 (sylField s 19 5) (x.fmt.setWidth 64)) ∧
      Sends s .tlreadE [] (wordResult s 1 (sylField s 19 5) ((me s).eng.err.setWidth 64)) ∧
      Sends s .tlreadEc [] { wordResult s 1 (sylField s 19 5) ((me s).eng.err.setWidth 64) with effs := [.clrErr (me s).eng.err] })) ∧
  (∀ (s : State) (d : BitVec 5) (g : BitVec 3) (n w : BitVec 1) (j k : BitVec 2),
    let kc := slotKC s k.toNat
    let lanes : Lanes := laneIdx.map (fun L => (streamF kc.1 (kc.2 + BitVec.ofNat 128 L)).extractLsb' (32 * j.toNat) 32)
    let vec := lanesResult s 4 4 w d (activeLanes (cx s) (isY s)) lanes 0
    (Executes s g n → ∃ t, exec (.rdraw d g n k) s = .next t ∧ OnlyCore s t (coreSending s []
      [effResult s 1 (.sctr k.toNat (kc.2 + 1)), wordResult s 4 d ((streamF kc.1 kc.2).setWidth 64)] 0)) ∧
    (HasRoom s →
      Sends s (.vrand w d j k) [] vec ∧
      ∃ t, exec (.vrandA w d j k) s = .next t
        ∧ OnlyCore s t (coreSending s [] [effResult s 1 (.sctr k.toNat (kc.2 + 128)), vec] 0)))

/-- R101, R105, R128, R281, R287, R308, R379 to R381: what writes control state sends its effect, due at the cycle of R389; a
format that R105 refuses, a phase predicate outside a phase, and an arm or binding that is not allowed trap. -/
def Obligations.ControlStateWrites : Prop :=
  ∀ (s : State) (a b : BitVec 6) (g : BitVec 3) (n v : BitVec 1) (i : BitVec 3) (k : BitVec 2),
    let x := srcS s a
    let y := srcS s b
    let kc := slotKC s k.toNat
    (Executes s g n →
      Sends s (.csrw a b g n) [a, b] (effResult s 1 (.csr x.toNat y)) ∧
      (badFmt (x.setWidth 32) = false → Sends s (.setfmt a g n) [a] (effResult s 4 (.fmt (x.setWidth 32 &&& 0xFE0FFFFF)))) ∧
      (badFmt (x.setWidth 32) = true → exec (.setfmt a g n) s = .next (issueFail s 0x01 0)) ∧
      Sends s (.setcl a g n) [a] (effResult s 2 (.clmask (x.setWidth 8))) ∧
      Sends s (.vmsel i g n v) [] (effResult s 2 (.sel (v = 1) i)) ∧
      (inPhase s = true →
        Sends s (.phpred a g n 0) [a] (effResult s 1 (.pred (x.setWidth 8))) ∧
        Sends s (.phpred a g n 1) [a] (effResult s 1 (.pred ((me s).ph.p ||| x.setWidth 8))) ∧
        Sends s (.phpred a g n 2) [a] (effResult s 1 (.pred ((me s).ph.p &&& x.setWidth 8)))) ∧
      (inPhase s = false → ∀ o, exec (.phpred a g n o) s = .next (issueFail s 0x01 0)) ∧
      (isCC s = true ∨ x.toNat % 16 < 8 → (me s).eng.armed.length + armsPending (me s) < 16 →
        Sends s (.tlarm a b g n) [a, b] (effResult s 1 (.arm (x.toNat % 16) y (x.extractLsb' 8 24)))) ∧
      (isCC s = false ∧ 8 ≤ x.toNat % 16 → exec (.tlarm a b g n) s = .next (issueFail s 0x0C (BitVec.ofNat 64 (x.toNat % 16)))) ∧
      (x.setWidth 8 = (0xFF : W8) → Sends s (.qbind k a g n) [a] (effResult s 1 (.bind k.toNat none))) ∧
      (∀ q, bindSource (isCC s) (x.setWidth 8) = some (some q) → mayBind s q = true ∧ boundElsewhere s q = false →
        Sends s (.qbind k a g n) [a] (effResult s 1 (.bind k.toNat (some q)))) ∧
      (bindSource (isCC s) (x.setWidth 8) = none → exec (.qbind k a g n) s = .next (issueFail s 0x0C (BitVec.ofNat 64 k.toNat))) ∧
      Sends s (.rkey a b g n k) [a, b] (effResult s 1 (.skey k.toNat (y ++ x))) ∧
      Sends s (.rkeyS a b g n k) [a, b] (effResult s 1 (.skey k.toNat ((y ^^^ (getPart s (partOf s s.cur.core)).salt) ++ x))) ∧
      Sends s (.rctr a b g n k) [a, b] (effResult s 1 (.sctr k.toNat (y ++ x))) ∧
      Sends s (.rskip a b g n k) [a, b] (effResult s 1 (.sctr k.toNat (kc.2 + (y ++ x)))))

/-- R280, R305, R306, R314: SIGNOFF at phase cycle LENGTH - 1 notes its conditions and traps anywhere else; TLWAIT stalls and traps
inside a phase; a release ends the stall at its cycle and the bundle is left.
(Where the rules leave it open: the model's readings, log entry 29.) -/
def Obligations.SignOffsAndWaits : Prop :=
  (∀ (s : State) (a b : BitVec 6) (g : BitVec 3) (n : BitVec 1), hasCore s s.cur.core = true → guardOn s g n = true →
    let here := (me s).ph.inph = true ∧ (me s).ph.phc + 1 = (me s).ph.length
    let i := (srcS s a).toNat % 16
    (here → ∃ t k, exec (.signoff a b g n) s = .next t ∧ OnlyCore s t k ∧ k = { coreSending s [a, b] [] 0 with ph := k.ph }
      ∧ k.ph.signed = true ∧ k.ph.sigPend = true ∧ k.ph.sigP = (me s).ph.p
      ∧ (∀ c < 7, (srcS s a).getLsbD c = true → (c, (getTL (me s) c).next) ∈ k.ph.sigConds)
      ∧ k.ph = { (me s).ph with signed := true, sigPend := true, sigP := (me s).ph.p, sigConds := k.ph.sigConds, sigErr := k.ph.sigErr }) ∧
    (¬ here → exec (.signoff a b g n) s = .next (issueFail s 0x01 0)) ∧
    (isUrg s = false ∧ inPhase s = true → exec (.tlwait a b g n) s = .next (issueFail s 0x01 0)) ∧
    ((isUrg s = true ∨ inPhase s = false) ∧ (isCC s = true ∨ i < 7 ∨ i = 7 ∧ (me s).eng.tl7 ≠ none) →
      ∃ t, exec (.tlwait a b g n) s = .next t ∧ OnlyCore s t ((coreSending s [a, b] [] 0).updCtx (fun x => { x with
        stall := some { kind := .tlwait, a := BitVec.ofNat 64 i, b := srcS s b, k := s.cur.len, since := s.now } })))) ∧
  (∀ (s : State) (st : Stall), hasCore s s.ev.core = true → (s.core s.ev.core).ctx.stall = some st →
    let k := s.core s.ev.core
    let left (i : Instr) : Prop := ∃ t, exec i s = .next t ∧ (t.core s.ev.core).ctx.stall = none
      ∧ (t.core s.ev.core).ctx.next = k.clk.arch
      ∧ (k.ctx.redirs = [] → k.ctx.loops = [] → (t.core s.ev.core).ctx.pc = BitVec.ofNat 64 (k.ctx.pc.toNat + 4 * st.k))
    (st.kind = .tlwait → st.b.toNat ≤ counterValue s s.ev.core st.a.toNat → left .tlwaitRelease) ∧
    (st.kind = .tlwait → counterValue s s.ev.core st.a.toNat < st.b.toNat → exec .tlwaitRelease s = .next s) ∧
    (st.kind = .realign → alignedTick s st.since st.a.toNat ≤ s.now → left .realignRelease) ∧
    (st.kind = .realign → s.now < alignedTick s st.since st.a.toNat → exec .realignRelease s = .next s))

/-! ### The V slots -/

/-- R137 to R141: the integer lanes. Lane L of the result is computed from lane L of each source, wraps modulo 2^32 except in the
saturating forms, goes to the active lanes alone, and raises no flag; no duty is counted. -/
def Obligations.VectorIntegerResults : Prop :=
  ∀ (s : State) (w : BitVec 1) (d : BitVec 5) (a b c : BitVec 6), HasRoom s →
    let x := srcV s false a
    let y := srcV s false b
    let z := srcV s false c
    let act := activeLanes (cx s) (isY s)
    let of1 (i : Instr) (f : W32 → W32) : Prop := Sends s i [a] (lanesResult s 2 2 w d act (x.map f) 0)
    let of2 (i : Instr) (L : Nat) (f : W32 → W32 → W32) : Prop := Sends s i [a, b] (lanesResult s L L w d act (List.zipWith f x y) 0)
    let of3 (i : Instr) (L : Nat) (f : W32 → W32 → W32 → W32) : Prop :=
      Sends s i [a, b, c] (lanesResult s L L w d act ((x.zip (y.zip z)).map (fun p => f p.1 p.2.1 p.2.2)) 0)
    let clamp (v : Int) : W32 := BitVec.ofInt 32 (max (-2 ^ 31) (min (2 ^ 31 - 1) v))
    let bit (n : Nat) (p : Bool) : W32 := if p then BitVec.ofNat 32 (2 ^ n) else 0
    of2 (.vadd w d a b) 2 (fun p q => p + q) ∧ of2 (.vsub w d a b) 2 (fun p q => p - q) ∧
    of2 (.vmul w d a b) 3 (fun p q => p * q) ∧
    of2 (.vmulhi w d a b) 3 (fun p q => BitVec.ofInt 32 (p.toInt * q.toInt / 2 ^ 32)) ∧
    of2 (.vmulhz w d a b) 3 (fun p q => BitVec.ofNat 32 (p.toNat * q.toNat / 2 ^ 32)) ∧
    of3 (.vmad w d a b c) 3 (fun p q r => p * q + r) ∧
    of2 (.vand w d a b) 2 (fun p q => p &&& q) ∧ of2 (.vor w d a b) 2 (fun p q => p ||| q) ∧
    of2 (.vxor w d a b) 2 (fun p q => p ^^^ q) ∧ of2 (.vandn w d a b) 2 (fun p q => p &&& ~~~ q) ∧
    of2 (.vshl w d a b) 2 (fun p q => if 32 ≤ q.toNat then 0 else p <<< q.toNat) ∧
    of2 (.vshri w d a b) 2 (fun p q => if 32 ≤ q.toNat then (if p.msb then BitVec.allOnes 32 else 0) else p.sshiftRight q.toNat) ∧
    of2 (.vshrz w d a b) 2 (fun p q => if 32 ≤ q.toNat then 0 else p >>> q.toNat) ∧
    of2 (.vmini w d a b) 2 (fun p q => BitVec.ofInt 32 (min p.toInt q.toInt)) ∧
    of2 (.vminz w d a b) 2 (fun p q => BitVec.ofNat 32 (min p.toNat q.toNat)) ∧
    of2 (.vmaxi w d a b) 2 (fun p q => BitVec.ofInt 32 (max p.toInt q.toInt)) ∧
    of2 (.vmaxz w d a b) 2 (fun p q => BitVec.ofNat 32 (max p.toNat q.toNat)) ∧
    of1 (.vabsi w d a) (fun p => if p.msb then 0 - p else p) ∧
    (∃ f : W32 → Nat, of1 (.vclz w d a) (fun p => BitVec.ofNat 32 (f p)) ∧ ∀ p, f p ≤ 32 ∧ (∀ j < f p, p.getLsbD (31 - j) = false)
      ∧ (f p < 32 → p.getLsbD (31 - f p) = true)) ∧
    of1 (.vpopc w d a) (fun p => BitVec.ofNat 32 ((List.range 32).countP (fun j => p.getLsbD j))) ∧
    of2 (.vaddsi w d a b) 2 (fun p q => clamp (p.toInt + q.toInt)) ∧
    of2 (.vsubsi w d a b) 2 (fun p q => clamp (p.toInt - q.toInt)) ∧
    of2 (.vcmpi w d a b) 2 (fun p q => bit 0 (p = q) ||| bit 1 (p.toInt < q.toInt) ||| bit 2 (q.toInt < p.toInt)
      ||| bit 3 (p.toNat < q.toNat) ||| bit 4 (q.toNat < p.toNat)) ∧
    of3 (.vsel w d a b c) 2 (fun p q r => if r = 0 then q else p)

/-- R142 to R147: the f32 lanes. Sums, products, quotients and roots are rounded once under FMT.rm, with the flags of R31; every
source position is an f32 position, and each operation is counted.
R143, R144: special values of fused forms, quotients and roots in f32, the first rule that applies deciding. -/
def Obligations.VectorFloatResults : Prop :=
  (∀ (s : State) (w : BitVec 1) (d : BitVec 5) (a b c : BitVec 6), HasDuty s →
    let rm := rmOf ((cx s).fmt.extractLsb' 14 2)
    let x := srcV s true a
    let y := srcV s true b
    let z := srcV s true c
    let v (p : W32) : FV := fdec .f32 p
    let slow := if (me s).profile = 1 then 24 else 20
    let of1 (i : Instr) (L E : Nat) (f : W32 → FR) : Prop := SendsCounted s i [a] (flagged s L E w d (x.map f))
    let of2 (i : Instr) (L E : Nat) (f : W32 → W32 → FR) : Prop := SendsCounted s i [a, b] (flagged s L E w d (List.zipWith f x y))
    let of3 (i : Instr) (f : W32 → W32 → W32 → FR) : Prop :=
      SendsCounted s i [a, b, c] (flagged s 4 4 w d ((x.zip (y.zip z)).map (fun p => f p.1 p.2.1 p.2.2)))
    let nan (p : W32) : Bool := fisNan (v p)
    let quiet (p : W32) (r : W32) : FR := if nan p then ⟨0x7FC00000, 0⟩ else ⟨r, 0⟩
    of2 (.vfadd w d a b) 4 4 (fun p q => fadd .f32 rm false (v p) (v q)) ∧
    of2 (.vfsub w d a b) 4 4 (fun p q => fadd .f32 rm false (v p) (fneg (v q))) ∧
    of2 (.vfmul w d a b) 4 4 (fun p q => fmul .f32 rm false (v p) (v q)) ∧
    of3 (.vfma w d a b c) (fun p q r => ffma .f32 rm false (v p) (v q) (v r)) ∧
    of3 (.vfms w d a b c) (fun p q r => ffma .f32 rm false (v p) (v q) (fneg (v r))) ∧
    of3 (.vfnma w d a b c) (fun p q r => ffma .f32 rm false (fneg (v p)) (v q) (v r)) ∧
    of2 (.vfdiv w d a b) slow 20 (fun p q => fdiv .f32 rm false (v p) (v q)) ∧
    of1 (.vfsqrt w d a) slow 20 (fun p => fsqrt rm (v p)) ∧
    (∃ f g : W32 → W32 → W32,
      of2 (.vfmin w d a b) 2 2 (fun p q => ⟨f p q, 0⟩) ∧ of2 (.vfmax w d a b) 2 2 (fun p q => ⟨g p q, 0⟩) ∧
      (∀ p q, nan p || nan q → f p q = 0x7FC00000 ∧ g p q = 0x7FC00000) ∧
      (∀ p q, flt (v p) (v q) = true → f p q = p ∧ f q p = p ∧ g p q = q ∧ g q p = q) ∧
      f 0 0x80000000 = 0x80000000 ∧ f 0x80000000 0 = 0x80000000 ∧ g 0 0x80000000 = 0 ∧ g 0x80000000 0 = 0) ∧
    of1 (.vfabs w d a) 2 2 (fun p => quiet p (p &&& 0x7FFFFFFF)) ∧
    of1 (.vfneg w d a) 2 2 (fun p => quiet p (p ^^^ 0x80000000)) ∧
    of2 (.vfcmp w d a b) 2 2 (fun p q => ⟨if nan p || nan q then 8 else if flt (v p) (v q) then 2 else if flt (v q) (v p) then 4 else 1, 0⟩) ∧
    (∃ f : W32 → Fin 9, of1 (.vfclass w d a) 2 2 (fun p => ⟨BitVec.ofNat 32 (2 ^ (f p).val), 0⟩) ∧ ∀ p,
      let e := p.extractLsb' 23 8
      let m := p.extractLsb' 0 23
      (f p).val = if e = 255 then (if m ≠ 0 then 8 else if p.msb then 0 else 7)
        else if e ≠ 0 then (if p.msb then 1 else 6) else if m ≠ 0 then (if p.msb then 2 else 5) else (if p.msb then 3 else 4)) ∧
    (∃ f : W32 → W32 → FR, of2 (.vfscale w d a b) 2 2 f ∧
      (∀ p q, nan p || nan q → f p q = ⟨0x7FC00000, 0⟩) ∧
      (∀ p q, nan q = false → (fisInf (v p) || p &&& 0x7FFFFFFF = 0) → f p q = ⟨p, 0⟩) ∧
      (∀ p q, nan q = false → ∀ g m e, v p = .fin g m e → m ≠ 0 → f p q = fround .f32 rm false g m (e + scaleInt (v q)) false))) ∧
  (∀ (rm : RM) (a b c : FV),
    let zero (v : FV) : Prop := ∃ g e, v = .fin g 0 e
    let some0 (v : FV) : Prop := ∃ g m e, v = .fin g m e ∧ m ≠ 0
    let finite (v : FV) : Prop := ∃ g m e, v = .fin g m e
    let inf (g : Bool) : FR := ⟨if g then 0xFF800000 else 0x7F800000, 0⟩
    let invalid : FR := ⟨0x7FC00000, fINV⟩
    (a = .nan ∨ b = .nan ∨ c = .nan → ffma .f32 rm false a b c = ⟨0x7FC00000, 0⟩) ∧
    (c ≠ .nan → ∀ g, (zero a ∧ b = .inf g ∨ a = .inf g ∧ zero b) → ffma .f32 rm false a b c = invalid) ∧
    (∀ g h, (a = .inf g ∧ b = .inf h ∨ a = .inf g ∧ some0 b ∧ fsgn b = h ∨ some0 a ∧ fsgn a = g ∧ b = .inf h) →
      (c = .inf (!(g != h)) → ffma .f32 rm false a b c = invalid) ∧
      (c = .inf (g != h) ∨ finite c → ffma .f32 rm false a b c = inf (g != h))) ∧
    (finite a ∧ finite b → ∀ g, c = .inf g → ffma .f32 rm false a b c = inf g) ∧
    (a = .nan ∨ b = .nan → fdiv .f32 rm false a b = ⟨0x7FC00000, 0⟩) ∧
    (zero a ∧ zero b ∨ (∃ g h, a = .inf g ∧ b = .inf h) → fdiv .f32 rm false a b = invalid) ∧
    (∀ g m e h f, a = .fin g m e → m ≠ 0 → b = .fin h 0 f → fdiv .f32 rm false a b = ⟨(inf (g != h)).v, fDZ⟩) ∧
    (∀ g h m e, a = .inf g → b = .fin h m e → fdiv .f32 rm false a b = inf (g != h)) ∧
    (∀ g m e h, a = .fin g m e → b = .inf h → fdiv .f32 rm false a b = ⟨if g != h then 0x80000000 else 0, 0⟩) ∧
    (a = .nan → fsqrt rm a = ⟨0x7FC00000, 0⟩) ∧
    (∀ g e, a = .fin g 0 e → fsqrt rm a = ⟨if g then 0x80000000 else 0, 0⟩) ∧
    (a = .inf false → fsqrt rm a = inf false) ∧ (a = .inf true → fsqrt rm a = invalid) ∧
    (∀ m e, a = .fin true m e → m ≠ 0 → fsqrt rm a = invalid))
/-- R35, R148 to R153: exact pairs and double words, rounded to nearest even whatever FMT.rm holds. The steps of R150 and the cases of
R151 are written out; TWOSUM and TWOPROD deliver the rounded result and its error, as the lanes worked out in R148 show. -/
def Obligations.PairAndDoubleWordResults : Prop :=
  (∀ (s : State) (w : BitVec 1) (d e f : BitVec 4) (r : BitVec 5) (a b : BitVec 6), HasDuty s →
    let x := srcV s true a
    let y := srcV s true b
    let act := activeLanes (cx s) (isY s)
    let two (i : BitVec 4) := (readV (cx s) (isY s) (2 * i.toNat)).zip (readV (cx s) (isY s) (2 * i.toNat + 1))
    let add (p q : W32) : W32 := (fadd .f32 .rne false (fdec .f32 p) (fdec .f32 q)).v
    let mul (p q : W32) : W32 := (fmul .f32 .rne false (fdec .f32 p) (fdec .f32 q)).v
    let of (i : Instr) (srcs : List (BitVec 6)) (L : Nat) (l : List (W32 × W32 × W8)) : Prop :=
      SendsCounted s i srcs (pairResult s L (2 * d.toNat) act l)
    let finite (l : List W32) : Bool := l.all (fun p => !fisNan (fdec .f32 p) && !fisInf (fdec .f32 p))
    let plus (p : W32 × W32) : FV := exactAdd (fdec .f32 p.1) (fdec .f32 p.2)
    let cases (ins : List W32) (X : FV) (zh zl : W32) (steps : List W32) : W32 × W32 × W8 :=
      if ins.any (fun p => fisNan (fdec .f32 p)) then (0x7FC00000, 0, 0)
      else if ins.any (fun p => fisInf (fdec .f32 p)) then
        (if X = .nan then (0x7FC00000, 0, fINV) else ((fput .f32 .rne false X).v, 0, 0))
      else if finite steps then (zh, zl, if feq (plus (zh, zl)) X then 0 else fINX)
      else ((fput .f32 .rne false X).v, 0, ((fput .f32 .rne false X).f &&& (fOVF ||| fINX)) ||| fPOVF)
    of (.vadd2 d a b) [a, b] 5 (List.zipWith twoSum x y) ∧
    of (.vsub2 d a b) [a, b] 5 (List.zipWith (fun p q => twoSum p (q ^^^ 0x80000000)) x y) ∧
    of (.vmul2 d a b) [a, b] 5 (List.zipWith twoProd x y) ∧
    of (.dwadd d e f) [] 8 (List.zipWith (fun p q =>
      let (sh, sl, _) := twoSum p.1 q.1
      let (th, tl, _) := twoSum p.2 q.2
      let c := add sl th
      let (vh, vl, _) := twoSum sh c
      let u := add tl vl
      let (zh, zl, _) := twoSum vh u
      cases [p.1, p.2, q.1, q.2] (exactAdd (plus p) (plus q)) zh zl [sh, th, c, vh, u, zh]) (two e) (two f)) ∧
    of (.dwadds d e b) [b] 8 (List.zipWith (fun p q =>
      let (sh, sl, _) := twoSum p.1 q
      let u := add p.2 sl
      let (zh, zl, _) := twoSum sh u
      cases [p.1, p.2, q] (exactAdd (plus p) (fdec .f32 q)) zh zl [sh, u, zh]) (two e) y) ∧
    of (.dwmul d e f) [] 8 (List.zipWith (fun p q =>
      let (ch, cl, _) := twoProd p.1 q.1
      let t1 := mul p.1 q.2
      let t2 := mul p.2 q.1
      let c2 := add t1 t2
      let c3 := add cl c2
      let (zh, zl, _) := twoSum ch c3
      cases [p.1, p.2, q.1, q.2] (fprod (plus p) (plus q)).1 zh zl [ch, t1, t2, c2, c3, zh]) (two e) (two f)) ∧
    of (.dwmuls d e b) [b] 8 (List.zipWith (fun p q =>
      let (ch, cl, _) := twoProd p.1 q
      let c2 := mul p.2 q
      let c3 := add cl c2
      let (zh, zl, _) := twoSum ch c3
      cases [p.1, p.2, q] (fprod (plus p) (fdec .f32 q)).1 zh zl [ch, c2, c3, zh]) (two e) y) ∧
    of (.dwnorm d e) [] 8 ((two e).map (fun p => twoSum p.1 p.2)) ∧
    SendsCounted s (.dwcvt w r e) [] (flagged s 8 8 w r ((two e).map (fun p => fadd .f32 .rne false (fdec .f32 p.1) (fdec .f32 p.2))))) ∧
  (∀ p q, (twoSum p q).1 = (fadd .f32 .rne false (fdec .f32 p) (fdec .f32 q)).v
    ∧ (twoProd p q).1 = (fmul .f32 .rne false (fdec .f32 p) (fdec .f32 q)).v) ∧
  twoProd 0x40400000 0x3EAAAAAB = (0x3F800000, 0x33000000, fINX) ∧
  twoProd 0x71800000 0x4E800000 = (0x7F800000, 0, fOVF ||| fINX ||| fPOVF) ∧
  twoProd 0x26800001 0x26800001 = (0x0D800002, 8, fINX) ∧
  twoProd 0x20800001 0x20400001 = (0x01400003, 0x80000001, fINX ||| fPINX) ∧
  twoSum 0x0D800000 3 = (0x0D800000, 3, fINX) ∧ twoSum 0x7F400000 0x7F400000 = (0x7F800000, 0, fOVF ||| fINX ||| fPOVF)

/-- R40, R41, R154 to R156: reductions in their fixed order, inactive lanes as identities and a sum without enabled lanes +0, delivered
to lane 16k of cluster k where it is active (XRED: to lane 0), with the flags of the delivered results only. Under the write port lane
0 alone goes to k[WREG], and nothing where it is inactive.
(Where the rules leave it open: the model's readings, log entries 36 and 100: the upper half of k[WREG], and a constant of XRED.) -/
def Obligations.ReductionResults : Prop :=
  ∀ (s : State) (w : BitVec 1) (d : BitVec 5) (e : BitVec 4) (a : BitVec 6), HasDuty s →
    let act := activeLanes (cx s) (isY s)
    let heads : W128 := 0x00010001000100010001000100010001
    let v (z : W32) (i : Nat) : W32 := if act.getLsbD i then lane (srcV s true a) i else z
    let add (p q : FR) : FR :=
      ⟨(fadd .f32 .rne false (fdec .f32 p.v) (fdec .f32 q.v)).v,
        p.f ||| q.f ||| (fadd .f32 .rne false (fdec .f32 p.v) (fdec .f32 q.v)).f⟩
    let up (f : FR → FR → FR) (l : Nat → FR) (i : Nat) : FR := f (l (2 * i)) (l (2 * i + 1))
    let tree (f : FR → FR → FR) (z e : W32) (k : Nat) : FR :=
      if act.extractLsb' (16 * k) 16 ≠ 0 then up f (up f (up f (up f (fun i => ⟨v z i, 0⟩)))) k else ⟨e, 0⟩
    let pick (f : W32 → W32 → W32) (p q : FR) : FR := ⟨f p.v q.v, 0⟩
    let spreads (i : Instr) (f : FR → FR → FR) (z e : W32) : Prop :=
      SendsCounted s i [a] (reducedResult s 10 w d (act &&& heads) (laneIdx.map (fun L => if L % 16 = 0 then (tree f z e (L / 16)).v else 0))
        ((List.range 8).foldl (fun x k => if act.getLsbD (16 * k) then x ||| (tree f z e k).f else x) 0))
    let both (h l : Nat → W32) (n : Nat) (j : Nat → Nat) : W32 × W32 × W8 :=
      (List.range n).foldl (fun r i =>
        let t := twoSum r.1 (h (j (i + 1)))
        (t.1, (add ⟨(add ⟨r.2.1, 0⟩ ⟨l (j (i + 1)), 0⟩).v, 0⟩ ⟨t.2.1, 0⟩).v, r.2.2 ||| t.2.2)) (h (j 0), l (j 0), 0)
    let head (z : W32) (k : Nat) : W32 := if act.getLsbD (16 * k) then lane (srcV s false a) (16 * k) else z
    let chain (f : FR → FR → FR) (z : W32) : FR := (List.range 7).foldl (fun r k => f r ⟨head z (k + 1), 0⟩) ⟨head z 0, 0⟩
    let xred (k : BitVec 2) (r : FR) : Prop := SendsCounted s (.xred w d a k) [a]
      (reducedResult s 18 w d (act &&& 1) (r.v :: List.replicate 127 0) (if act.getLsbD 0 then r.f else 0))
    spreads (.vrsum w d a) add 0x80000000 0 ∧ spreads (.vrmax w d a) (pick (fmaxCode .f32)) 0xFF800000 0xFF800000 ∧
    spreads (.vrmin w d a) (pick (fminCode .f32)) 0x7F800000 0x7F800000 ∧
    SendsCounted s (.vrsum2 e a) [a] (pairResult s 14 (2 * e.toNat) (act &&& heads) (laneIdx.map (fun L =>
      if L % 16 = 0 then
        (List.range 15).foldl (fun r i =>
          let t := twoSum r.1 (v 0x80000000 (L + i + 1))
          (t.1, (add ⟨r.2.1, 0⟩ ⟨t.2.1, 0⟩).v, r.2.2 ||| t.2.2)) (v 0x80000000 L, 0, 0)
      else (0, 0, 0)))) ∧
    xred 0 (if act &&& heads = 0 then ⟨0, 0⟩ else chain add 0x80000000) ∧ xred 1 (chain (pick (fmaxCode .f32)) 0xFF800000) ∧ xred 2 (chain (pick (fminCode .f32)) 0x7F800000) ∧
    SendsCounted s (.xred w d a 3) [] (pairResult s 18 d.toNat (act &&& 1)
      (both (fun i => if act.getLsbD i then lane (readV (cx s) (isY s) a.toNat) i else 0x80000000)
        (fun i => if act.getLsbD i then lane (readV (cx s) (isY s) (a.toNat + 1)) i else 0x80000000) 7 (fun k => 16 * k)
        :: List.replicate 127 (0, 0, 0)))

/-- R177 to R187: the function tables. A normal or subnormal argument is split into m and e, its table row is evaluated and rounded
once to nearest even; the derived functions run their sequences, with the flags of the last step. -/
def Obligations.FunctionTableResults : Prop :=
  ∃ rcp rsq exp2 log2 exp tanh sigm sin cos : W32 → FR,
    let v (p : W32) : FV := fdec .f32 p
    let fld (p : W32) : Nat := (p.extractLsb' 23 8).toNat
    let mant (p : W32) : Nat := if fld p = 0 then (p.extractLsb' 0 23).toNat else 2 ^ 23 + (p.extractLsb' 0 23).toNat
    let e (p : W32) : Int := (max (fld p) 1 : Nat) - 150 + (mant p).log2
    let F (p : W32) : Nat := mant p * 2 ^ (23 - (mant p).log2) - 2 ^ 23
    let usual (p : W32) : Prop := fld p ≠ 255 ∧ mant p ≠ 0
    let rne (x : Int) (k : Int) : FR := fput .f32 .rne false (.fin (x < 0) x.natAbs k)
    let mul (p q : W32) : FR := fmul .f32 .rne false (v p) (v q)
    let add (p q : W32) : FR := fadd .f32 .rne false (v p) (v q)
    let nan : FR := ⟨0x7FC00000, 0⟩
    let invalid : FR := ⟨0x7FC00000, fINV⟩
    (∀ (s : State) (w : BitVec 1) (d : BitVec 5) (a : BitVec 6), HasDuty s →
      let of (i : Instr) (f : W32 → FR) : Prop := SendsCounted s i [a] (flagged s 10 10 w d ((srcV s true a).map f))
      of (.vrcp w d a) rcp ∧ of (.vrsq w d a) rsq ∧ of (.vexp2 w d a) exp2 ∧ of (.vlog2 w d a) log2 ∧ of (.vexp w d a) exp ∧
      of (.vtanh w d a) tanh ∧ of (.vsigm w d a) sigm ∧ of (.vsin w d a) sin ∧ of (.vcos w d a) cos) ∧
    (∀ p, v p = .nan → ∀ f ∈ [rcp, rsq, exp2, log2, exp, tanh, sigm, sin, cos], f p = nan) ∧
    rcp 0 = ⟨0x7F800000, fDZ⟩ ∧ rcp 0x80000000 = ⟨0xFF800000, fDZ⟩ ∧ rcp 0x7F800000 = ⟨0, 0⟩ ∧ rcp 0xFF800000 = ⟨0x80000000, 0⟩ ∧
    rsq 0 = ⟨0x7F800000, fDZ⟩ ∧ rsq 0x80000000 = ⟨0xFF800000, fDZ⟩ ∧ rsq 0x7F800000 = ⟨0, 0⟩ ∧ rsq 0xFF800000 = invalid ∧
    exp2 0x7F800000 = ⟨0x7F800000, 0⟩ ∧ exp2 0xFF800000 = ⟨0, 0⟩ ∧
    log2 0 = ⟨0xFF800000, fDZ⟩ ∧ log2 0x80000000 = ⟨0xFF800000, fDZ⟩ ∧ log2 0x7F800000 = ⟨0x7F800000, 0⟩ ∧ log2 0xFF800000 = invalid ∧
    (∀ p, usual p → rcp p = fround .f32 .rne false p.msb (tabEval tabRcp (F p)).natAbs (-26 - e p) false) ∧
    (∀ p, usual p → p.msb = true → rsq p = invalid ∧ log2 p = invalid) ∧
    (∀ p, usual p → p.msb = false → e p % 2 = 0 → rsq p = rne (tabEval tabRsq (F p)) (-26 - e p / 2)) ∧
    (∀ p, usual p → p.msb = false → e p % 2 = 1 → rsq p = rne (tabEval tabRsq (F p) * 11863283 / 2 ^ 24) (-26 - (e p - 1) / 2)) ∧
    (∀ p, usual p → p.msb = false → log2 p = rne (e p * 2 ^ 26 + tabEval tabLog2 (F p)) (-26)) ∧
    (∀ p g m k, v p = .fin g m k →
      let z : Int := if g then -m else m
      let x : Int := if -23 ≤ k then z * 2 ^ (k + 23).toNat else z / 2 ^ (-23 - k).toNat
      (-1000 ≤ x / 2 ^ 23 ∧ x / 2 ^ 23 ≤ 1000 → exp2 p = rne (tabEval tabExp2 (x % 2 ^ 23).toNat) (x / 2 ^ 23 - 26)) ∧
      (1000 < x / 2 ^ 23 → exp2 p = ⟨0x7F800000, fOVF ||| fINX⟩) ∧ (x / 2 ^ 23 < -1000 → exp2 p = ⟨0, fUNF ||| fINX⟩)) ∧
    (∀ p, v p ≠ .nan → exp p = exp2 (mul p 0x3FB8AA3B).v) ∧
    (∀ p, v p ≠ .nan → sigm p = rcp (add 0x3F800000 (exp2 (mul (p ^^^ 0x80000000) 0x3FB8AA3B).v).v).v) ∧
    (∀ p, v p ≠ .nan →
      let t := mul 0x40000000 (mul (p &&& 0x7FFFFFFF) 0x3FB8AA3B).v
      let u := rcp (add (exp2 t.v).v 0x3F800000).v
      let r := ffma .f32 .rne false (v 0xC0000000) (v u.v) (v 0x3F800000)
      tanh p = ⟨(r.v &&& 0x7FFFFFFF) ||| (p &&& 0x80000000), r.f⟩) ∧
    (∀ p, fisInf (v p) = true → sin p = invalid ∧ cos p = invalid) ∧
    (∀ p g m k, v p = .fin g m k →
      let q := circular g m k
      let flip (r : FR) : FR := ⟨r.v ^^^ 0x80000000, r.f⟩
      let zeroAs (g : Bool) (r : FR) : FR := if r.v &&& 0x7FFFFFFF = 0 then ⟨if g then 0x80000000 else 0, r.f⟩ else r
      (q.1 = 0 → sin p = zeroAs g q.2.1 ∧ cos p = zeroAs false q.2.2) ∧ (q.1 = 1 → sin p = zeroAs g q.2.2 ∧ cos p = zeroAs false (flip q.2.1)) ∧
      (q.1 = 2 → sin p = zeroAs g (flip q.2.1) ∧ cos p = zeroAs false (flip q.2.2)) ∧
      (q.1 = 3 → sin p = zeroAs g (flip q.2.2) ∧ cos p = zeroAs false q.2.1)) ∧
    sin 0x3F000000 = ⟨0x3F800000, 0⟩ ∧ (cos 0x3F000000).v = 0 ∧ (sin 0xBF800000).v = 0x80000000 ∧ rcp 0x40400000 = ⟨0x3EAAAAAB, fINX⟩

/-- R157 to R163: packed arithmetic under the element view of FMT.VTYPE. Sub-element j of a result comes from sub-element j of each
source; a floating-point element is rounded once into its type, an integer element keeps its low bits; codes 14 and 15 give 0 with
invalid. -/
def Obligations.PackedResults : Prop :=
  (∀ (s : State) (w : BitVec 1) (d : BitVec 5) (a b c : BitVec 6), HasDuty s →
    let rm := rmOf ((cx s).fmt.extractLsb' 14 2)
    let sat := (cx s).fmt.getLsbD 16
    let view (f : Elem → List FR) : List FR :=
      match elemOf ((cx s).fmt.extractLsb' 0 4).toNat with
      | some e => f e
      | none => List.replicate 128 ⟨0, fINV⟩
    let lanewise (e : Elem) (f : Nat → FR) : FR :=
      ⟨e.join ((List.range e.n).map (fun j => (f j).v)), (List.range e.n).foldl (fun x j => x ||| (f j).f) 0⟩
    let x := srcV s false a
    let y := srcV s false b
    let of2 (i : Instr) (f : Elem → W32 → W32 → FR) : Prop := SendsCounted s i [a, b] (flagged s 3 3 w d (view (fun e =>
      List.zipWith (fun p q => lanewise e (fun j => f e (e.sub p j) (e.sub q j))) x y)))
    let arith (fp : FT → FV → FV → FR) (int : Int → Int → Int) (e : Elem) (p q : W32) : FR :=
      match e.ty with
      | .fp t => fp t (fdec t p) (fdec t q)
      | .int n sg _ => ⟨codeInt n (int (intCode n sg p) (intCode n sg q)), 0⟩
    let narrow (t : FT) (p q : W32) : W8 := if (fisNan (fdec t p) || fisNan (fdec t q)) && (t = .e4m3 || t = .e5m2) then fNNAN else 0
    of2 (.vpadd w d a b) (arith (fun t p q => fadd t rm sat p q) (fun p q => p + q)) ∧
    of2 (.vpsub w d a b) (arith (fun t p q => fadd t rm sat p (fneg q)) (fun p q => p - q)) ∧
    of2 (.vpmul w d a b) (arith (fun t p q => fmul t rm sat p q) (fun p q => p * q)) ∧
    SendsCounted s (.vpfma w d a b c) [a, b, c] (flagged s 3 3 w d (view (fun e =>
      (x.zip (y.zip (srcV s false c))).map (fun p => lanewise e (fun j =>
        let i := e.sub p.1 j
        let k := e.sub p.2.1 j
        let l := e.sub p.2.2 j
        match e.ty with
        | .fp t => ffma t rm sat (fdec t i) (fdec t k) (fdec t l)
        | .int n sg _ => ⟨codeInt n (intCode n sg i * intCode n sg k + intCode n sg l), 0⟩))))) ∧
    of2 (.vpmin w d a b) (fun e p q => match e.ty with
      | .fp t => ⟨fminCode t p q, narrow t p q⟩
      | .int n sg _ => ⟨codeInt n (min (intCode n sg p) (intCode n sg q)), 0⟩) ∧
    of2 (.vpmax w d a b) (fun e p q => match e.ty with
      | .fp t => ⟨fmaxCode t p q, narrow t p q⟩
      | .int n sg _ => ⟨codeInt n (max (intCode n sg p) (intCode n sg q)), 0⟩) ∧
    of2 (.vpcmp w d a b) (fun e p q => match e.ty with
      | .fp t => let u := fdec t p; let v := fdec t q
        ⟨if fisNan u || fisNan v then 8 else if flt u v then 2 else if flt v u then 4 else 1, 0⟩
      | .int n sg _ => ⟨if intCode n sg p < intCode n sg q then 2 else if intCode n sg q < intCode n sg p then 4 else 1, 0⟩) ∧
    SendsCounted s (.vpdot w d a b c) [a, b, c] (flagged s 5 5 w d (view (fun e =>
      (x.zip (y.zip (srcV s true c))).map (fun p =>
        let u := (List.range e.n).map (fun j => e.val (e.sub p.1 j))
        let v := (List.range e.n).map (fun j => e.val (e.sub p.2.1 j))
        let z := fdec .f32 p.2.2
        let ps := List.zipWith fprod u v
        fsum .f32 rm false (u.any fisNan || v.any fisNan || fisNan z) (ps.any (·.2)) (ps.map (·.1) ++ [z])))))) ∧
  (∀ vt e, elemOf vt = some e → e.n * e.cw = 32 ∧ ∀ p j i, j < e.n → (e.sub p j).getLsbD i = (decide (i < e.cw) && p.getLsbD (e.cw * j + i))) ∧
  (∀ vt e l, elemOf vt = some e → l.length = e.n → ∀ j i, j < e.n → i < e.cw → (e.join l).getLsbD (e.cw * j + i) = (l.getD j 0).getLsbD i) ∧
  (∀ vt, (elemOf vt).map (·.n) = [1, 2, 4, 4, 8, 4, 4, 2, 4, 4, 8, 8, 4, 8][vt]?)

/-- R158, R164 to R170: conversions. An insert form keeps the other sub-elements of the destination's old lane; a type that an
instruction does not accept gives 0 with invalid. -/
def Obligations.ConversionResults : Prop :=
  ∀ (s : State) (w : BitVec 1) (d : BitVec 5) (a b c : BitVec 6), HasDuty s →
    let rm := rmOf ((cx s).fmt.extractLsb' 14 2)
    let sat := (cx s).fmt.getLsbD 16
    let vt := ((cx s).fmt.extractLsb' 0 4).toNat
    let view (ok : Bool) (f : Elem → List FR) : List FR :=
      match if ok then elemOf vt else none with
      | some e => f e
      | none => List.replicate 128 ⟨0, fINV⟩
    let old := readV (cx s) (isY s) d.toNat
    let f32 : Elem := ⟨32, .fp .f32⟩
    let i32 (z : BitVec 1) : Elem := ⟨32, .int 32 (z = 0) 0⟩
    let of (i : Instr) (srcs : List (BitVec 6)) (L : Nat) (l : List FR) : Prop := SendsCounted s i srcs (flagged s L L w d l)
    let into (e : Elem) (p : Nat) (l : List FR) : List FR := List.zipWith (fun o r => ⟨e.insert o p r.v, r.f⟩) old l
    let two (f : W32 → W32 → FR) (x y : Lanes) : List FR := List.zipWith f x y
    let narrow (e : Elem) (p : W32) (q : W32) : FR :=
      if q.setWidth 8 = (0xFF : W8) then e.put rm sat .nan else e.put rm sat (fscale2 (fdec .f32 p) (127 - ((q.setWidth 8 : W8).toNat : Int)))
    let widen (e : Elem) (j : Nat) (p q : W32) : FR :=
      if q.setWidth 8 = (0xFF : W8) then ⟨0x7FC00000, 0⟩
      else fput .f32 rm false (fscale2 (e.val (e.sub p j)) (((q.setWidth 8 : W8).toNat : Int) - 127))
    let times (e : Elem) (st : Bool) (u v : FV) : FR :=
      if fisNan u || fisNan v then e.put rm st .nan
      else if (fprod u v).2 then ⟨(e.put rm st .nan).v, (e.put rm st .nan).f ||| fINV⟩ else e.put rm st (fprod u v).1
    (∀ (n : Nat) (nar wid : BitVec 3 → Instr) (ok : Bool),
      (n = 2 → ok = (vt = 1 || vt = 7) ∧ nar = (fun p => .vcvtp2N w d a (p.setWidth 1) c) ∧ wid = (fun p => .vcvtp2W w d a (p.setWidth 1) c)) →
      (n = 4 → ok = (vt = 2 || vt = 3 || vt = 5 || vt = 6) ∧ nar = (fun p => .vcvtp4N w d a (p.setWidth 2) c)
        ∧ wid = (fun p => .vcvtp4W w d a (p.setWidth 2) c)) →
      (n = 8 → ok = (vt = 4 || vt = 13) ∧ nar = (fun p => .vcvtp8N w d a p c) ∧ wid = (fun p => .vcvtp8W w d a p c)) →
      (n = 2 ∨ n = 4 ∨ n = 8) → ∀ p, p.toNat < n →
        of (nar p) [a, c] 3 (view ok (fun e => into e p.toNat (two (narrow e) (srcV s false a) (srcV s false c)))) ∧
        of (wid p) [a, c] 3 (view ok (fun e => two (widen e p.toNat) (srcV s false a) (srcV s false c)))) ∧
    (∀ (t u : BitVec 4) (dst src : Elem), elemOf t.toNat = some dst → elemOf u.toNat = some src →
      of (.vcvt w d a t u) [a] 3 ((srcV s (u = 0) a).map (fun p =>
        match src.ty, dst.ty with
        | .fp x, .fp y => if x = y then ⟨if fisNan (fdec x p) then x.nan else src.sub p 0, 0⟩ else dst.put rm sat (fdec x p)
        | .int n g _, .int m h _ =>
          let v := intCode n g p
          let r := max (intLo m h) (min (intHi m h) v)
          ⟨codeInt m r, if r = v then 0 else fINV⟩
        | _, _ => dst.put rm sat (src.val (src.sub p 0))))) ∧
    (∀ z, of (.vftoi w d a z) [a] 3 ((srcV s true a).map (fun p => (i32 z).put rm false (fdec .f32 p))) ∧
      of (.vitof w d a z) [a] 3 ((srcV s false a).map (fun p => fput .f32 rm false ((i32 z).val p)))) ∧
    (∀ p : BitVec 3,
      of (.vdeq w d a b p) [a, b] 3 (view true (fun e =>
        two (fun i j => times f32 false (e.val (e.sub i (p.toNat % e.n))) (fdec .f32 j)) (srcV s false a) (srcV s true b))) ∧
      of (.vqnt w d a b p) [a, b] 3 (view true (fun e => into e (p.toNat % e.n)
        (two (fun i j => times e sat (fdec .f32 i) (fdec .f32 (rcpL j).v)) (srcV s true a) (srcV s true b)))) ∧
      of (.vqdiv w d a b p) [a, b] 20 (view true (fun e => into e (p.toNat % e.n)
        (two (fun i j => divInto rm sat e (fdec .f32 i) (fdec .f32 j)) (srcV s true a) (srcV s true b)))) ∧
      of (.vmxpackPutp w d a p c) [a, c] 3 (view (8 ≤ vt && vt ≤ 12) (fun e => into e (p.toNat % e.n)
        (two (fun i j => if j.setWidth 8 = (0xFF : W8) then ⟨0, 0⟩ else narrow e i j) (srcV s false a) (srcV s false c)))) ∧
      of (.vmxunp w d a p c) [a, c] 3 (view (8 ≤ vt && vt ≤ 12) (fun e => two (widen e (p.toNat % e.n)) (srcV s false a) (srcV s false c)))) ∧
    (∀ (i : Instr) (size : Elem → Nat), (i = .vmxpackScale w d a c ∧ (∀ e, size e = 32 / e.n) ∨ i = .vmxpackAscale w d a c ∧ ∀ e, size e = 16) →
      of i [a, c] 3 (view (8 ≤ vt && vt ≤ 12) (fun e => List.zipWith (fun L q =>
        let act := activeLanes (cx s) (isY s)
        let group := ((List.range (size e)).map (fun j => L / size e * size e + j)).filter (fun j => act.getLsbD j)
        ⟨BitVec.ofNat 32 (max (groupCode e (group.map (fun j => fdec .f32 (lane (srcV s false a) j)))) (q.setWidth 8 : W8).toNat), 0⟩)
        laneIdx (srcV s false c))))

/-- R171 to R174, R176: movement within and between clusters, index, count, scan and ancestor masks. -/
def Obligations.MovementResults : Prop :=
  ∀ (s : State) (w : BitVec 1) (d : BitVec 5) (a b c : BitVec 6), HasRoom s →
    let x := lane (srcV s false a)
    let act := activeLanes (cx s) (isY s)
    let at_ (i : Instr) (srcs : List (BitVec 6)) (L : Nat) (m : W128) (f : Nat → W32) : Prop :=
      Sends s i srcs (lanesResult s L L w d m (laneIdx.map f) 0)
    let on (z : W32) (L : Nat) : W32 := if act.getLsbD L then x L else z
    let add (p q : FR) : FR := fadd .f32 .rne false (fdec .f32 p.v) (fdec .f32 q.v)
    at_ (.vperm w d a b c) [a, b, c] 2 act (fun L =>
      let i := (lane (srcV s false b) L).toNat % 32
      if i < 16 then x (16 * (L / 16) + i) else lane (srcV s false c) (16 * (L / 16) + i - 16)) ∧
    (∀ p : BitVec 4, at_ (.vbcast w d a p) [a] 2 act (fun L => x (16 * (L / 16) + p.toNat))) ∧
    Sends s (.vmov w d a) [a] (lanesResult s 2 2 w d act (srcV s false a) 0) ∧
    at_ (.vmovi w d) [] 2 act (fun _ => s.cur.lend) ∧
    (∀ n : BitVec 3, n ≠ 0 →
      at_ (.xcl w d a 0 n) [a] (3 + 2 * n.toNat) act (fun L => x (16 * ((L / 16 + 8 - n.toNat) % 8) + L % 16)) ∧
      at_ (.xcl w d a 1 n) [a] (3 + 2 * n.toNat) act (fun L => x (16 * ((L / 16 + n.toNat) % 8) + L % 16)) ∧
      ∀ k : BitVec 3, ∃ m : W128, at_ (.xclb w d a n k) [a] (3 + 2 * n.toNat) (act &&& m) (fun L => x (16 * k.toNat + L % 16))
        ∧ ∀ L < 128, m.getLsbD L = decide ((L / 16 + 8 - k.toNat) % 8 ≤ n.toNat)) ∧
    (∀ n : BitVec 12, at_ (.viota w d a n) [a] 2 act (fun L => x L + BitVec.ofNat 32 L * n.signExtend 32)) ∧
    at_ (.vcount w d a) [a] 2 (act &&& 0x00010001000100010001000100010001) (fun L => if L % 16 = 0 then
      BitVec.ofNat 32 ((List.range 16).countP (fun j => act.getLsbD (L + j) && x (L + j) ≠ 0)) else 0) ∧
    at_ (.vscan w d a 0) [a] 6 act (fun L => (List.range (L % 16 + 1)).foldl (fun v j => v + on 0 (16 * (L / 16) + j)) 0) ∧
    at_ (.vscan w d a 1) [a] 6 act (fun L => (List.range (L % 16)).foldl (fun v j => v + on 0 (16 * (L / 16) + j)) 0) ∧
    (HasDuty s → SendsCounted s (.vscan w d a 2) [a] (flagged s 6 6 w d (laneIdx.map (fun L =>
      (List.range (L % 16 + 1)).foldl (fun v j => add v ⟨on 0x80000000 (16 * (L / 16) + j), 0⟩) ⟨0x80000000, 0⟩)))) ∧
    ∃ rows : Nat → Nat → W64, at_ (.vtree w d a) [a] 12 act (fun L => (rows (L / 16) (L / 2)).extractLsb' (32 * (L % 2)) 32) ∧
      ∀ k < 8, ∀ m < 64,
        let parent := ((x (16 * k + m / 4)).extractLsb' (8 * (m % 4)) 8).toNat
        (m ≤ parent → rows k m = 1#64 <<< m) ∧ (parent < m → rows k m = 1#64 <<< m ||| rows k parent)

/-- R61, R106 to R108, R175: lane masks, and copies between the files of the slots.
R137, R158, R315: a counted operation beyond the 128 V that its window grants traps with cause 0x04 in place of its effect.
(Where the rules leave it open: the model's readings, log entries 19, 35 and 36.) -/
def Obligations.MasksCopiesAndDuty : Prop :=
  (∀ (s : State) (w : BitVec 1) (d : BitVec 5) (a b : BitVec 6) (i j : BitVec 3) (g : BitVec 3) (n v : BitVec 1),
    let x := srcV s false a
    let old (k : BitVec 3) : W128 := if k = 0 then BitVec.allOnes 128 else (if isY s then (cx s).yh else (cx s).xh).getD k.toNat 0
    let mask (ins : Instr) (srcs : List (BitVec 6)) (m : W128) : Prop := Sends s ins srcs { newPend s 2 with
      dst := if i = 0 then .none else .mask (isY s) i.toNat, val := .m m }
    let own := ownsW s.cur.head s.cur.slot
    let join (p : Nat) : W64 := lane x ((p + 1) % 128) ++ lane x p
    let p := (lane (srcV s false b) 0).toNat % 128
    (HasRoom s →
      (b.toNat < 32 → ∃ m, mask (.vmopTest a i b) [a] m ∧ ∀ L < 128, m.getLsbD L = (lane x L).getLsbD b.toNat) ∧
      (∃ m, mask (.vmopNz a i) [a] m ∧ ∀ L < 128, m.getLsbD L = decide (lane x L ≠ 0)) ∧
      Sends s (.vmopGet w d i) [] (lanesResult s 2 2 w d (activeLanes (cx s) (isY s))
        (laneIdx.map (fun L => if (old i).getLsbD L then 1 else 0)) 0) ∧
      mask (.vmopAnd i j) [] (old i &&& old j) ∧ mask (.vmopOr i j) [] (old i ||| old j) ∧
      mask (.vmopXor i j) [] (old i ^^^ old j) ∧ mask (.vmopNot i j) [] (~~~ old j) ∧
      (own = false → Sends s (.xcopy w d a) [a] { newPend s 2 with
        dst := if w = 1 then .none else .vec (!isY s) d.toNat (activeLanes (cx s) (!isY s))
        val := .v (maskLanes (activeLanes (cx s) (!isY s)) x), latch := some (if isY s then 1 else 2) }) ∧
      (own = true → Sends s (.xcopy w d a) [a] { newPend s 2 with
        dst := .k (headWReg s.cur.head), val := .w (lane x 1 ++ lane x 0), latch := some s.cur.slot }) ∧
      Sends s (.vtos d a b) [a, b] { newPend s 3 with dst := dstS s d.toNat, val := .w (join p), latch := some (if own then s.cur.slot else 0) } ∧
      Sends s (.vputk a b) [a, b] { newPend s 3 with dst := .k (headWReg s.cur.head), val := .w (join p), latch := some s.cur.slot }) ∧
    (Executes s g n →
      Sends s (.putk a g n) [a] { newPend s 1 with dst := .k (headWReg s.cur.head), val := .w (srcS s a), latch := some 0 } ∧
      Sends s (.stom d a g n) [a] { newPend s 1 with dst := .mp d.toNat, val := .w (srcS s a), latch := some 3 } ∧
      Sends s (.stov d a g n v) [a] { newPend s 2 with
        dst := .vec (v = 1) d.toNat (activeLanes (cx s) (v = 1))
        val := .v (maskLanes (activeLanes (cx s) (v = 1)) (List.replicate 128 ((srcS s a).setWidth 32)))
        latch := some (if v = 1 then 2 else 1) })) ∧
  (∀ (s : State) (w : BitVec 1) (d : BitVec 5) (e f h : BitVec 4) (a b c : BitVec 6) (k : BitVec 2) (t u : BitVec 4) (p : BitVec 3) (z : BitVec 1),
    isUrg s = false → 128 * (me s).ph.grantV ≤ (me s).ph.vCount →
    (∀ i ∈ [Instr.vfadd w d a b, .vfsub w d a b, .vfmul w d a b, .vfma w d a b c, .vfms w d a b c, .vfnma w d a b c, .vfmin w d a b,
        .vfmax w d a b, .vfabs w d a, .vfneg w d a, .vfcmp w d a b, .vfclass w d a, .vfscale w d a b, .vfdiv w d a b, .vfsqrt w d a,
        .vadd2 e a b, .vsub2 e a b, .vmul2 e a b, .dwadd e f h, .dwadds e f b, .dwmul e f h, .dwmuls e f b, .dwnorm e f, .dwcvt w d e,
        .vrsum2 e a, .vrsum w d a, .vrmax w d a, .vrmin w d a, .xred w d a k, .vscan w d a 2],
      exec i s = .next (issueFail s 0x04 1)) ∧
    (∀ i ∈ [Instr.vpadd w d a b, .vpsub w d a b, .vpmul w d a b, .vpfma w d a b c, .vpmin w d a b, .vpmax w d a b, .vpdot w d a b c,
        .vpcmp w d a b, .vcvt w d a t u, .vcvtp2N w d a z c, .vcvtp2W w d a z c, .vcvtp4N w d a k c, .vcvtp4W w d a k c, .vcvtp8N w d a p c,
        .vcvtp8W w d a p c, .vqnt w d a b p, .vqdiv w d a b p, .vdeq w d a b p, .vmxpackScale w d a c, .vmxpackAscale w d a c,
        .vmxpackPutp w d a p c, .vmxunp w d a p c, .vftoi w d a z, .vitof w d a z, .vrcp w d a, .vrsq w d a, .vexp2 w d a, .vlog2 w d a,
        .vsin w d a, .vcos w d a, .vtanh w d a, .vsigm w d a, .vexp w d a],
      exec i s = .next (issueFail s 0x04 1)))
/-! ### The matrix slot -/

/-- R238, R244 to R258: an operation of the array that meets its conditions notes its sources and puts its events on the cycles the
rules give; nothing else changes but the busy windows of R245.
(Where the rules leave it open: the model's readings, log entry 30.) -/
def Obligations.MatrixOperationsSchedule : Prop :=
  ∀ (s : State) (a x r e : BitVec 6) (n : BitVec 8) (h : BitVec 7) (z : BitVec 1), hasCore s s.cur.core = true →
    let m := (me s).mx
    let c := cyc s
    let f := (cx s).fmt
    let evs (l : List (Nat × MOp)) : List MEvt := l.map (fun y => ⟨c + y.1, y.2⟩)
    let does (i : Instr) (srcs : List (BitVec 6)) (l : List (Nat × MOp)) (m' : Matrix) : Prop :=
      planClash (me s) [] (evs l) = none → overDuty (me s) (evs l) = false → m.busyRoutine ≤ c →
      ∃ t, exec i s = .next t ∧ OnlyCore s t { coreSending s srcs [] 0 with mx := { m' with evts := m.evts ++ evs l } }
    let fits (v : W64) (unit bytes : Nat) : Prop := v.toNat < 2 ^ 23 ∧ v.toNat + bytes ≤ 2 ^ 23 ∧ v.toNat % unit = 0
    let va := srcM s a
    let vx := srcM s x
    let row := (srcM s r).toNat % 256
    let bt := tileBlocks (fmtMtb f)
    let bx := sideBlocks (fmtMtb f)
    let b := rowBytes f
    let cfg := (startPlan s 7).cfgNow
    let shd := (startPlan s 10).shdNow
    let q := 4 * cellK shd.typ
    let N := n.toNat + 1
    (comboLoad f = true → m.busyLoad ≤ c → m.useShd ≤ c → fits va 512 (512 * bt) → (bx ≠ 0 → fits vx 512 (512 * bx)) →
      does (.mloads a x) [a, x] ((List.range bt).map (fun i => (2 + i, .tile i (va.toNat + 512 * i)))
        ++ (List.range bx).map (fun i => (2 + bt + i, .side i (vx.toNat + 512 * i)))
        ++ [(1 + bt + bx, .loaded (BitVec.ofNat 4 (fmtMtb f)) (BitVec.ofNat 2 (fmtSpn f)))]) { m with busyLoad := c + 2 + bt + bx }) ∧
    (comboLoad f = true → shd.valid = true → shd.spn ≠ 0 → m.busyLoad ≤ c → m.useShd ≤ c → fits va 512 (512 * q) →
      does (.mspmeta a) [a] ((List.range q).map (fun i => (2 + i, .nib i (va.toNat + 512 * i)))) { m with busyLoad := c + 2 + q }) ∧
    (m.busyLoad ≤ c → m.lastEnter ≤ c + 1 → does .mswap [] [(1, .swap)] { m with useAct := m.useShd, useShd := m.useAct }) ∧
    (comboFmt f = true → (issuedRecs m).1 = ⟨fmtMtb f, fmtSpn f, true⟩ → m.busyFeed ≤ c → fits va b (b * N) →
      does (.mstream a r n z) [a, r] ((List.range N).map (fun i => (2 + i, .feed (va.toNat + b * i) b ((row + i) % 256) (z = 1) f none)))
        { m with busyFeed := c + 2 + N, lastEnter := c + 3 + N, useAct := c + 2 + N + 64 }) ∧
    does (.mexp e) [e] [(0, .exp ((srcM s e).setWidth 8))] m ∧
    (m.busyDrain ≤ c → fits va (drainBytes cfg) (drainBytes cfg * N) →
      does (.mdrain a r n z) [a, r] ((List.range N).map (fun i =>
        (3 + i, .drain s.serial ((row + i) % 256) (va.toNat + drainBytes cfg * i) cfg (z = 1) f none))) { m with busyDrain := c + 3 + N }) ∧
    (fmtAcc f = 0 → m.busyDrain ≤ c → fits va 512 (512 * (h.toNat + 1)) →
      does (.macc a r h) [a, r] ((List.range (h.toNat + 1)).flatMap (fun i =>
        [(3 + 2 * i, .maccRd s.serial i row (va.toNat + 512 * i) f), (4 + 2 * i, .maccWr s.serial i (va.toNat + 512 * i) f)]))
        { m with busyDrain := c + 3 + 2 * (h.toNat + 1) }) ∧
    (fits va 512 512 → does (.mepiCol a) [a] [(2, .epiCol va.toNat)] m) ∧
    (fits va 1024 1024 → does (.mepiRow a) [a] [(2, .epiRow va.toNat)] m) ∧
    (va.toNat % 16 ≤ 7 ∨ va.toNat % 16 = 13 → does (.mepiCfg a) [a] [(1, .cfg (va.setWidth 8))] m) ∧
    does (.mclr r n) [r] [(1, .clr row N (fmtAcc f = 1))] m ∧
    does .mtaintClr [] [(1, .taintClr)] m ∧ does .mtaintSet [] [(1, .taintSet)] m

/-- R248, R259, R260, R261, 13:R266: MSET and MSTAT execute wherever no routine is busy and their slot has room: they send their value
to the matrix file, and MSTAT 0 also clears at c+1 the flags it returns; MCALL puts the whole routine on the array and holds every unit
for its window, at the least for a routine of an END alone, whatever the state of the array.
R87, R238, R244, R245: an operation of the array that fails a check traps, here where one check alone fails: 0x08 for a format
that no row of R238 allows, 0x09 for a busy unit, 0x06 and 0x07 for an address; a busy routine holds back every M operation.
(Where the rules leave it open: the model's readings, log entries 30 and 63.) -/
def Obligations.MatrixResultsAndChecks : Prop :=
  (∀ (s : State) (d sel : BitVec 3) (i : BitVec 9), hasCore s s.cur.core = true →
    let m := (me s).mx
    let mp (j : Nat) : W64 := (me s).mp.getD j 0
    let toM (L : Nat) (v : W64) : Pend := { newPend s L with
      dst := if ownsW s.cur.head s.cur.slot then .k (headWReg s.cur.head) else .mp d.toNat, val := .w v, latch := some 3 }
    (noRoom s = false → m.busyRoutine ≤ cyc s →
      Sends s (.mset d) [] (toM 1 (s.cur.lend.signExtend 64)) ∧
      (∀ j : BitVec 3, 1 ≤ j.toNat → j.toNat ≤ 4 → Sends s (.mstat d j) [] (toM 2 (m.rtaint.extractLsb' (64 * (j.toNat - 1)) 64))) ∧
      Sends s (.mstat d 5) [] (toM 2 (m.epicfg.setWidth 64)) ∧
      ∃ v t, exec (.mstat d 0) s = .next t
        ∧ OnlyCore s t { coreSending s [] [toM 2 v] 0 with mx := { m with
            evts := m.evts ++ if m.mflags = 0 then [] else [⟨cyc s + 1, .statClr m.mflags⟩] } }
        ∧ v.extractLsb' 0 5 = m.mflags ∧ v.getLsbD 33 = decide (m.rtaint ≠ 0) ∧ v.getLsbD 34 = m.act.taint ∧ v.getLsbD 35 = m.shd.taint
        ∧ v.getLsbD 36 = m.etaint ∧ v.getLsbD 41 = loadBusy m ∧ v.extractLsb' 5 28 = 0 ∧ v.extractLsb' 37 4 = 0 ∧ v.extractLsb' 56 8 = 0
        ∧ v.extractLsb' 42 4 = m.act.typ ∧ v.extractLsb' 46 2 = m.act.spn ∧ v.getLsbD 48 = m.act.valid
        ∧ v.extractLsb' 49 4 = m.shd.typ ∧ v.extractLsb' 53 2 = m.shd.spn ∧ v.getLsbD 55 = m.shd.valid) ∧
    (planFails s (planCall s i.toNat).1 = [] → ∃ t, exec (.mcall i) s = .next t ∧
      let p := planCall s i.toNat
      OnlyCore s t { me s with mx := { m with
        evts := m.evts ++ p.1.evts, busyLoad := p.1.busyLoad, useShd := p.1.useShd, useAct := p.1.useAct, busyFeed := p.1.busyFeed
        busyDrain := p.1.busyDrain, lastEnter := p.1.lastEnter, busyRoutine := cyc s + p.2 } }) ∧
    (∀ w e, routineOf m i.toNat = some (some (w, [e])) → uOp e = 11 → m.busyRoutine ≤ cyc s → (mp (hdrRreg w)).getLsbD 31 = false →
      let N := hdrBase w + hdrCoef1 w * ((mp (hdrPsel1 w)).extractLsb' 0 16).toNat + hdrCoef2 w * ((mp (hdrPsel2 w)).extractLsb' 16 16).toNat
      0 < N → N < 2 ^ 24 → ∃ t, exec (.mcall i) s = .next t ∧ OnlyCore s t { me s with mx := { m with busyRoutine := cyc s + N } }) ∧
    (∀ w ws, routineOf m i.toNat = some (some (w, ws)) → rasterEntry s (mp (hdrRreg w)) (hdrRcap w) ≠ none →
      (planCall s i.toNat).2 = hdrBase w + hdrCoef1 w * ((mp (hdrPsel1 w)).extractLsb' 0 16).toNat
        + hdrCoef2 w * ((mp (hdrPsel2 w)).extractLsb' 16 16).toNat) ∧
    (routineOf m i.toNat = some none → (mp 7).getLsbD 31 = false →
      (planCall s i.toNat).2 =
        if i.toNat ≤ 1 then 258 + 259 * ((mp 5).extractLsb' 0 16).toNat + ((mp 5).extractLsb' 16 16).toNat
        else if i.toNat ≤ 3 then 73 + ((mp 5).extractLsb' 0 16).toNat + ((mp 5).extractLsb' 16 16).toNat else 264) ∧
    (routineOf m i.toNat = none → m.busyRoutine ≤ cyc s → exec (.mcall i) s = .next (issueFail s 0x08 2))) ∧
  (∀ (s : State) (d sel : BitVec 3) (a x r : BitVec 6) (n : BitVec 8) (z : BitVec 1), hasCore s s.cur.core = true →
    let m := (me s).mx
    let f := (cx s).fmt
    let opc (k : Nat) : W64 := BitVec.ofNat 64 k
    let quiet (p : MPlan) : Prop := planClash (me s) [] p.evts = none ∧ overDuty (me s) p.evts = false
    (cyc s < m.busyRoutine →
      exec (.mset d) s = .next (issueFail s 0x09 (opc 1)) ∧ exec (.mstat d sel) s = .next (issueFail s 0x09 (opc 13)) ∧
      exec .mtaintClr s = .next (issueFail s 0x09 (opc 12)) ∧ exec .mtaintSet s = .next (issueFail s 0x09 (opc 12))) ∧
    (m.busyRoutine ≤ cyc s →
      (cyc s < m.busyLoad → exec .mswap s = .next (issueFail s 0x09 (opc 4))) ∧
      (cyc s + 1 < m.lastEnter → exec .mswap s = .next (issueFail s 0x09 (opc 4))) ∧
      (2 ^ 23 ≤ (srcM s a).toNat → exec (.mepiCol a) s = .next (issueFail s 0x06 (srcM s a))) ∧
      ((srcM s a).toNat + 512 ≤ 2 ^ 23 → (srcM s a).toNat % 512 ≠ 0 → exec (.mepiCol a) s = .next (issueFail s 0x07 (srcM s a))) ∧
      (8 ≤ (srcM s a).toNat % 16 → (srcM s a).toNat % 16 ≠ 13 → exec (.mepiCfg a) s = .next (issueFail s 0x08 (opc 8))) ∧
      (comboFmt f = false → m.busyFeed ≤ cyc s → (tileType (fmtMta f) && fmtSpn f ≤ 2) = true →
        addrFail (srcM s a) (rowBytes f) (rowBytes f * (n.toNat + 1)) = none →
        quiet (planStream (startPlan s 5) (srcM s a) ((srcM s r).toNat % 256) (n.toNat + 1) (z = 1) false) →
        exec (.mstream a r n z) s = .next (issueFail s 0x08 (opc 5)))))

/-- R239 to R243: a row entered at cycle e is added to its accumulator row at e + 67, replacing it under z; f32 sums round to nearest
even, i32 sums wrap and note it. Taint follows.
R241, R254, R255: a RAW drain of accumulator row r due now writes its 64 words as 256 bytes at its address, and clears the row
unless KEEP is set; no other byte of the vault changes. A core in a trap drains nothing.
(Where the rules leave it open: the model's readings, log entry 30.) -/
def Obligations.ArrayCyclesWork : Prop :=
  (∀ (s : State) (r : MRow),
    let c := s.ev.core
    let k := s.core c
    let m := k.mx
    let old := m.acc.getD r.ar []
    let taint : BitVec 256 := if r.taint || (!r.z && m.rtaint.getLsbD r.ar) then m.rtaint ||| (1#256 <<< r.ar) else m.rtaint &&& ~~~ (1#256 <<< r.ar)
    let sum (p q : W32) : FR := fadd .f32 .rne false (fdec .f32 (if r.z then 0x80000000 else p)) (fdec .f32 q)
    let fl : W8 := (List.zipWith sum old r.psum).foldl (fun x y => x ||| y.f) 0
    let wraps : Bool := (old.zip r.psum).any (fun x => decide (x.1.toInt + x.2.toInt ≠ (x.1 + x.2).toInt))
    hasCore s c = true → k.tp.active = false → (∀ e ∈ m.evts, k.clk.arch < e.due) → m.rows = [r] → r.e + 67 = k.clk.arch →
    (r.i32 = false → CoreEvent s .arrayRowAccumulate c { k with mx := { m with
      rows := [], acc := m.acc.set r.ar ((List.zipWith sum old r.psum).map (·.v)), rtaint := taint
      mflags := m.mflags ||| arrayFlags r.flags ||| arrayFlags fl } }) ∧
    (r.i32 = true → CoreEvent s .arrayRowAccumulate c { k with mx := { m with
      rows := [], acc := m.acc.set r.ar (if r.z then List.zipWith (fun _ q => q) old r.psum else List.zipWith (· + ·) old r.psum)
      rtaint := taint, mflags := m.mflags ||| arrayFlags r.flags ||| (if !r.z && wraps then 16 else 0) } })) ∧
  (∀ (s : State) (id r addr : Nat) (cfg : W8) (keep : Bool) (f : W32),
    let c := s.ev.core
    let k := s.core c
    let m := k.mx
    let row := m.acc.getD r []
    (hasCore s c = true → k.tp.active = false → cfg.getLsbD 4 = true → addr % 16 = 0 → row.length = 64 →
      (∀ e ∈ m.evts, e = ⟨k.clk.arch, .drain id r addr cfg keep f none⟩) → m.evts ≠ [] →
      m.rtaint.getLsbD r = false → m.etaint = false →
      ∃ t l, exec .drainRowWrite s = .next t ∧ WritesOnly k.near.mem l addr (row.flatMap word32Bytes)
        ∧ CoreBecomes s t c { k with
            near := { (t.core c).near with
              mem := l, ecc := k.near.ecc, spared := k.near.spared, claims := k.near.claims, accs := k.near.accs, holds := k.near.holds, used := k.near.used }
            mx := if keep then { m with evts := [] }
              else { m with evts := [], acc := m.acc.set r (List.replicate 64 (if fmtAcc f = 1 then 0 else 0x80000000))
                            rtaint := m.rtaint &&& ~~~ (1#256 <<< r) } }) ∧
    (k.tp.active = true → exec .drainRowWrite s = .next s ∧ exec .arrayRowAccumulate s = .next s))
/-! ### The C slots -/

/-- R190, R191, R196, R200, R201, R207, R209: a load reserves its banks two cycles after issue, later by the hops of a lateral access,
schedules its read there, and its result is due 6 cycles after issue (4 under profile 1), later by the way there and back. LDACQ is
LDD, and on a control core an acquire.
(Where the rules leave it open: the model's readings, log entries 22 and 102.) -/
def Obligations.LoadsScheduleReads : Prop :=
  ∀ (s : State) (f : BitVec 3) (r : BitVec 5) (h b : BitVec 4) (o : BitVec 12),
    let into (p : Pend) : Pend := { p with dst := cmDst s f r.toNat, latch := some (cmLine s f) }
    let does (i : Instr) (n : Nat) (op : AccOp) (p : Pend → Pend) (acq : Bool := false) : Prop := ∀ t,
      let e := bankExtra s t.core
      let L := if isC1 s then 6 + resultExtra s t.core else if (me s).profile = 1 then 4 else 6
      let claims := [(2 + e, granAddrs t.off n)]
      let links := if isC1 s then linkSlots s.cur.core.num t.core.num (some L) else []
      Reaches s b (o.toInt * n) n claims links t → noRoom s = false →
      ∃ u, exec i s = .next u ∧ Schedules s u t.core
        [{ serial := s.serial, src := s.cur.core, op := op, addr := t.off, first := (s.core t.core).clk.arch + (2 + e)
           due := (s.core t.core).clk.arch + (2 + e), ret := if isC1 s then L - (2 + e) else 4, acq := acq }]
        claims links [p { newPend s L with wait := 1 }]
    (isSys s = false →
      does (.ldb f r b o) 1 (.load 1 .zext) into ∧ does (.ldh f r b o) 2 (.load 2 .zext) into ∧ does (.ldw f r b o) 4 (.load 4 .zext) into ∧
      does (.ldd f r b o) 8 (.load 8 .zext) into ∧ does (.ldacq f r b o) 8 (.load 8 .zext) into (isCC s) ∧ does (.binrd f r b o) 32 .binRead into) ∧
    does (.ldv f r b o) 512 (.load 512 .lanes) into ∧ does (.ldvb f r b o) 64 (.load 64 .bcast) into ∧
    does (.ldp f h b o) 1024 (.load 1024 .pair) (fun p =>
      { p with dst := .pair (f = 2) (2 * h.toNat) (BitVec.allOnes 128), latch := some (cmLine s f) })

/-- R190, R191, R200, R204 to R207, R209: a store reserves its banks and carries its bytes there; it has no result. Atomics
hold their banks for three cycles and return at c+7; no byte of memory changes at issue. ATCAS under the write port sends the old value
to k[WREG] and into the line of its own slot (03:R61). ATBADD holds its banks alike and sends no packet back (R196): what lands at c+7
is the check of its granule (R211).
R202, R203: gather and scatter touch their banks in four cycles, 32 lanes a cycle, each active lane at base + 4 times its
index; CSTV holds one block for three cycles.
(Where the rules leave it open: the model's readings, log entries 22, 24 and 28.) -/
def Obligations.StoresAndAtomicsSchedule : Prop :=
  (∀ (s : State) (f : BitVec 3) (r q : BitVec 5) (h b : BitVec 4) (o : BitVec 12) (j : BitVec 10),
    let v := cmData s f r.toNat
    let into (p : Pend) : Pend := { p with dst := cmDst s f r.toNat, latch := some (cmLine s f) }
    let vec (k : Nat) : List W8 := (readV (cx s) (f = 2) k).flatMap word32Bytes
    let acc (t : Target) (op : AccOp) (e last ret : Nat) : Access :=
      { serial := s.serial, src := s.cur.core, op := op, addr := t.off, first := (s.core t.core).clk.arch + (2 + e)
        due := (s.core t.core).clk.arch + (last + e), ret := ret }
    let stores (i : Instr) (n : Nat) (op : AccOp) : Prop := ∀ t,
      let e := bankExtra s t.core
      let claims := [(2 + e, granAddrs t.off n)]
      let links := if isC1 s then linkSlots s.cur.core.num t.core.num none else []
      Reaches s b (o.toInt * n) n claims links t →
      ∃ u, exec i s = .next u ∧ Schedules s u t.core [acc t op e 2 0] claims links []
    let swaps (i : Instr) (d : Int) (n : Nat) (op : AccOp) (p : Pend → Pend) : Prop := ∀ t,
      let e := bankExtra s t.core
      let L := if isC1 s then 7 + resultExtra s t.core else 7
      let claims := [2, 3, 4].map (fun k => (k + e, granAddrs t.off n))
      let links := if isC1 s then linkSlots s.cur.core.num t.core.num (some L) else []
      Reaches s b d n claims links t → noRoom s = false →
      ∃ u, exec i s = .next u ∧ Schedules s u t.core [acc t op e 4 (L - (4 + e))] claims links [p { newPend s L with wait := 1 }]
    let at8 (i : Instr) (op : AtOp) : Prop := swaps i (o.toInt * 8) 8 (.atom op 8 v 0) into
    (isSys s = false →
      stores (.stb f r b o) 1 (.store (natBytes 1 v.toNat)) ∧ stores (.sth f r b o) 2 (.store (natBytes 2 v.toNat)) ∧
      stores (.stw f r b o) 4 (.store (natBytes 4 v.toNat)) ∧ stores (.std f r b o) 8 (.store (natBytes 8 v.toNat)) ∧
      stores (.strel f r b o) 8 (.store (natBytes 8 v.toNat)) ∧ stores (.bininit f r b o) 32 (.binInit (v.setWidth 8)) ∧
      at8 (.atadd f r b o) .add ∧ at8 (.atmin f r b o) .min ∧ at8 (.atmax f r b o) .max ∧ at8 (.atand f r b o) .and ∧
      at8 (.ator f r b o) .or ∧ at8 (.atswp f r b o) .swp ∧
      swaps (.atfadd f r b o) (o.toInt * 4) 4 (.atom .fadd 4 v 0) into ∧
      swaps (.atcas r q b j) (j.toInt * 8) 8 (.atom .cas 8 (readS (cx s) q.toNat) (readS (cx s) r.toNat))
        (fun p => if ownsW s.cur.head s.cur.slot then { p with dst := .k (headWReg s.cur.head), latch := some s.cur.slot }
          else { p with dst := if r = 0 then .none else .s r.toNat, latch := some 0 }) ∧
      (∀ t, let e := bankExtra s t.core
        let L := if isC1 s then 7 + resultExtra s t.core else 7
        let claims := [2, 3, 4].map (fun k => (k + e, granAddrs t.off 32))
        let links := if isC1 s then linkSlots s.cur.core.num t.core.num none else []
        Reaches s b (o.toInt * 32) 32 claims links t → noRoom s = false →
        ∃ u, exec (.atbadd f r b o) s = .next u
          ∧ Schedules s u t.core [acc t (.binAdd (v.setWidth 32)) e 4 (L - (4 + e))] claims links [{ newPend s L with wait := 1 }])) ∧
    stores (.stv f r b o) 512 (.store (vec r.toNat)) ∧ stores (.stp f h b o) 1024 (.store (vec (2 * h.toNat) ++ vec (2 * h.toNat + 1)))) ∧
  (∀ (s : State) (f : BitVec 1) (d i : BitVec 5) (b : BitVec 4) (o : BitVec 9) (t : Target),
    let y : Bool := f = 1
    let act := activeLanes (cx s) y
    let x := lane (readV (cx s) y d.toNat)
    let e := bankExtra s t.core
    let far (a n : Nat) : Nat := if isC1 s then a + resultExtra s t.core else if (me s).profile = 1 then n else a
    let slots (L : Option Nat) : List (Nat × Nat) := if isC1 s then linkSlots s.cur.core.num t.core.num L else []
    let lanes := (laneIdx.filter (fun L => act.getLsbD L)).map (fun L => (L, t.off + 4 * (lane (readV (cx s) y i.toNat) L).toNat))
    let group (j : Nat) : List (Nat × Nat) := lanes.filter (fun l => l.1 / 32 = j)
    let claims := [0, 1, 2, 3].map (fun j => (2 + e + j, (group j).map (fun l => (l.2 / 16, l.2))))
    let acc (op : AccOp) (first last ret : Nat) : Access :=
      { serial := s.serial, src := s.cur.core, op := op, addr := t.off, first := (s.core t.core).clk.arch + first
        due := (s.core t.core).clk.arch + last, ret := ret }
    let apart : Prop := (∀ l ∈ lanes, l.2 < nearSize t.core) ∧
      ∀ j, ∀ k ∈ group j, ∀ l ∈ group j, bankOf (k.2 / 16) = bankOf (l.2 / 16) → k.2 / 16 = l.2 / 16
    (apart → noRoom s = false → Reaches s b 0 4 claims (slots (some (far 8 6))) t →
      ∃ u, exec (.ldg f d i b) s = .next u ∧ Schedules s u t.core
        ([0, 1, 2, 3].map (fun j => acc (.gather (group j)) (2 + e + j) (2 + e + j)
          (if j = 0 then (if isC1 s then far 8 6 - (2 + e) else 6) else 0)))
        claims (slots (some (far 8 6))) [{ newPend s (far 8 6) with
          wait := 4, dst := .vec y d.toNat act, val := .v (List.replicate 128 0), latch := some (if y then 2 else 1) }]) ∧
    (apart → Reaches s b 0 4 claims (slots none) t →
      ∃ u, exec (.stg f d i b) s = .next u ∧ Schedules s u t.core
        ([0, 1, 2, 3].map (fun j => acc (.scatter ((group j).map (fun l => (l.2, x l.1)))) (2 + e + j) (2 + e + j) 0)) claims (slots none) []) ∧
    (noRoom s = false →
      let held := [2, 3, 4].map (fun k => (k + e, granAddrs t.off 512))
      Reaches s b (o.toInt * 512) 512 held (slots (some (far 9 7))) t →
      ∃ u, exec (.cstv f d i b o) s = .next u ∧ Schedules s u t.core
        [acc (.cstv (readV (cx s) y d.toNat) (readV (cx s) y i.toNat) act) (2 + e) (4 + e) (if isC1 s then far 9 7 - (2 + e) else 7)]
        held (slots (some (far 9 7))) [{ newPend s (far 9 7) with
          wait := 1, dst := .vec y d.toNat act, val := .v (List.replicate 128 0), latch := some (if y then 2 else 1) }]))

/-- R109, R201, R208, R212, 17:R355, R358: ADDA and MOVA work on the address registers of their slot; a fence of a vector-matrix core
does nothing more; one of a control core holds it until what it waits for is done: a release or full fence every earlier access, at core
scope every earlier read, and an acquire or full fence then invalidates the small cache, at chip scope or wider the instruction cache too.
(Where the rules leave it open: the model's readings, log entry 37.) -/
def Obligations.AddressRegistersAndFences : Prop :=
  (∀ (s : State) (f : BitVec 3) (r : BitVec 5) (a b : BitVec 4) (c : BitVec 3) (k : BitVec 2),
    let base := readA (cx s) (isC1 s) b.toNat
    (HasRoom s →
      Sends s (.adda a b) [] { newPend s 1 with
        dst := .a (isC1 s) a.toNat, val := .w (base + s.cur.lend.signExtend 64), latch := some s.cur.slot } ∧
      Sends s (.mova f r b 0) [] { newPend s 1 with dst := cmDst s f r.toNat, val := .w base, latch := some (cmLine s f) } ∧
      Sends s (.mova f r b 1) [] { newPend s 1 with
        dst := .a (isC1 s) b.toNat, val := .w (cmData s f r.toNat), latch := some s.cur.slot }) ∧
    (isCC s = false → exec (.fence c k) s = .next s) ∧
    (isCC s = true → hasCore s s.cur.core = true → ∃ t, exec (.fence c k) s = .next t ∧ OnlyCore s t ((me s).updCtx (fun x =>
      { x with stall := some { kind := .fence, a := c.setWidth 64, b := k.setWidth 64, since := s.now } })))) ∧
  (∀ (s : State) (st : Stall), let k := s.core s.ev.core
    hasCore s s.ev.core = true → k.ctx.stall = some st → st.kind = .fence →
    let held : Prop := (∃ x ∈ k.ctl.c1, st.a = 0 → c1Reads x.kind = true)
      ∨ ∃ x ∈ k.near.accs, x.src = s.ev.core ∧ (st.a = 0 → accReads x.op = true)
    (st.b ≠ 0 → held → exec .fenceDone s = .next s) ∧
    (st.b = 0 ∨ ¬ held →
      CoreEvent s .fenceDone s.ev.core { k.updCtx (fun x => { x with stall := none, next := max x.next k.clk.arch }) with
        ctl := if st.b = 1 then k.ctl
          else if 2 ≤ st.a.toNat then { k.ctl with lines := [], icache := [], badLines := [] } else { k.ctl with lines := [] } }))

/-- R198, R383 to R385: an address that names no near memory in reach traps with 0x06, a misaligned one with 0x07, a lost bank
half-cycle with 0x02 and a lost link slot with 0x03, and no access is scheduled.
R194, R195, R198: where an address leads. A C0 address lies in the core's own memory; a C1 address names the target's vault in bits
29:23 and an offset that does not leave it, and reaches only cores of the same gang inside a phase.
(Where the rules leave it open: the model's readings, log entries 24 and 25.) -/
def Obligations.AddressesAndTraps : Prop :=
  (∀ (s : State) (f : BitVec 3) (r : BitVec 5) (h b : BitVec 4) (o : BitVec 12) (t : Target) (v : W64), isSys s = false →
    let all (n : Nat) (i : Instr) (P : Prop) : Prop := (n = 1 → i ∈ [.ldb f r b o, .stb f r b o] → P)
      ∧ (n = 2 → i ∈ [.ldh f r b o, .sth f r b o] → P) ∧ (n = 4 → i ∈ [.ldw f r b o, .stw f r b o, .atfadd f r b o] → P)
      ∧ (n = 8 → i ∈ [.ldd f r b o, .std f r b o, .ldacq f r b o, .strel f r b o, .atadd f r b o, .atmin f r b o, .atmax f r b o,
          .atand f r b o, .ator f r b o, .atswp f r b o] → P)
      ∧ (n = 32 → i ∈ [.binrd f r b o, .bininit f r b o, .atbadd f r b o] → P) ∧ (n = 64 → i = .ldvb f r b o → P)
      ∧ (n = 512 → i ∈ [.ldv f r b o, .stv f r b o] → P) ∧ (n = 1024 → i ∈ [.ldp f h b o, .stp f h b o] → P)
    ∀ (n : Nat) (i : Instr),
      (formAddr s b (o.toInt * n) = .inl v → all n i (exec i s = .next (issueFail s 0x06 v))) ∧
      (formAddr s b (o.toInt * n) = .inr t → t.off % n ≠ 0 → all n i (exec i s = .next (issueFail s 0x07 t.addr))) ∧
      (formAddr s b (o.toInt * n) = .inr t → t.off % n = 0 → t.core.cc = false → ∀ g,
        bankClash (s.core t.core) [(2 + bankExtra s t.core, granAddrs t.off n)] = some g →
        i ∈ [Instr.ldb f r b o, .stb f r b o, .ldh f r b o, .sth f r b o, .ldw f r b o, .stw f r b o, .ldd f r b o, .std f r b o,
          .ldv f r b o, .stv f r b o] → all n i (exec i s = .next (issueFail s 0x02 (BitVec.ofNat 64 (t.core.num * 2 ^ 23 + g))))) ∧
      (formAddr s b (o.toInt * n) = .inr t → t.off % n = 0 → t.core.cc = false → isC1 s = true →
        bankClash (s.core t.core) [(2 + bankExtra s t.core, granAddrs t.off n)] = none → ∀ p l,
        let lost (r : Option Nat) (is : List Instr) : Prop := linkClash s (linkSlots s.cur.core.num t.core.num r) = some (p, l) →
          i ∈ is → all n i (exec i s = .next (issueFail s 0x03 (BitVec.ofNat 64 (p % 2 ^ 20 + l * 2 ^ 20))))
        lost (some (6 + resultExtra s t.core)) [.ldb f r b o, .ldh f r b o, .ldw f r b o, .ldd f r b o, .ldv f r b o] ∧
        lost none [.stb f r b o, .sth f r b o, .stw f r b o, .std f r b o, .stv f r b o])) ∧
  (∀ (s : State) (b : BitVec 4) (d : Int),
    let r := readA (cx s) (isC1 s) b.toNat
    let v := r + BitVec.ofInt 64 d
    let off : Int := (r.toNat % 2 ^ 23 : Nat) + d
    let n := r.toNat / 2 ^ 23 % 128
    (isC1 s = false →
      (v.toNat < (if isCC s then 2 ^ 18 else 2 ^ 23) → formAddr s b d = .inr ⟨s.cur.core, v.toNat, v⟩) ∧
      ((if isCC s then 2 ^ 18 else 2 ^ 23) ≤ v.toNat → formAddr s b d = .inl v)) ∧
    (isC1 s = true →
      (r.toNat < 2 ^ 30 → 0 ≤ off → off < 2 ^ 23 → isUrg s = false → inPhase s = true → n < s.vms.length →
        (me s).ph.gang ≠ none → (s.core ⟨false, n⟩).ph.gang = (me s).ph.gang → formAddr s b d = .inr ⟨⟨false, n⟩, off.toNat, v⟩) ∧
      (2 ^ 30 ≤ r.toNat ∨ off < 0 ∨ 2 ^ 23 ≤ off ∨ isUrg s = true ∨ inPhase s = false ∨ (s.core ⟨false, n⟩).ph.gang ≠ (me s).ph.gang →
        formAddr s b d = .inl v)))
/-! ### Near memory at its bank cycle -/

/-- R44 to R46, R191, R200 to R207: what a scheduled access does when it is due, on granules without poison or errors. Each clause
names the bytes written and the value returned; every other byte of the memory keeps its value. An atomic reads at its first reserved
cycle (R204) and at its last writes what follows from the bytes it read, or nothing where one of them was poisoned; its granules stay
reserved to the end of that cycle.
R44, R46, R207: a bin counts its addends and keeps its exponent; NaN, infinite or too large an addend sets its flag and changes
no part; a flagged bin reads as NaN with invalid, a bin just initialised as +0.
R210, R411, 11:R233: a granule that a read has corrected is rewritten in a free engine half-cycle of its bank; the patrol scrub corrects
a granule and counts it for its region, and sets the poison of one with an uncorrectable error; it passes over the memory in 24 hours,
and a region with four correctable errors or more is scanned again at 16 times the rate. -/
def Obligations.BankAccessEffects : Prop :=
  ((∀ (s : State) (x : Access),
    let t := s.ev.core
    let k := s.core t
    let bytes (n : Nat) : List W8 := (List.range n).map (fun i => memGet k.near.mem (x.addr + i))
    let word (n : Nat) : W64 := BitVec.ofNat 64 (leNat (bytes n))
    let lanesOf (bs : List W8) : Lanes := (List.range 128).map (fun i => leW32 (byteSlice bs (4 * i) 4))
    let doneAt (c : Nat) (p : Pend) : Pend := { p with wait := p.wait - 1, exist := max p.exist (c + x.ret) }
    let done : Pend → Pend := doneAt k.clk.cyc
    let holds : List (Nat × Nat) := k.near.holds.filter (fun h => k.clk.arch ≤ h.2)
    let held (n : Nat) : List (Nat × Nat) := holds ++ (granules 16 x.addr n).map (fun g => (g, k.clk.arch))
    let taken (h : List (Nat × Nat)) : State := s.upd t (fun k => { k with near := { k.near with accs := [], holds := h } })
    let returns (f : Pend → Pend) : Prop := exec .bankAccess s = .next (fillPend (taken holds) x.src x.serial f)
    let loads (f : Pend → Pend) : Prop :=
      let u := fillPend (taken holds) x.src x.serial f
      exec .bankAccess s = .next (if x.acq then acquireLines u x.src else u)
    let writes (bs : List W8) : Prop := ∃ l, WritesOnly k.near.mem l x.addr bs ∧
      CoreEvent s .bankAccess t { k with near := { k.near with mem := l, accs := [], holds := holds } }
    let both (n : Nat) (bs : List W8) (f : Pend → Pend) : Prop := ∃ l, WritesOnly k.near.mem l x.addr bs ∧
      exec .bankAccess s = .next (fillPend ((taken (held n)).upd t (fun k => { k with near := { k.near with mem := l } })) x.src x.serial f)
    let atomic (n : Nat) : Prop := (∃ op v c, x.op = .atom op n v c) ∨ n = 512 ∧ (∃ d v act, x.op = .cstv d v act) ∨ n = 32 ∧ ∃ v, x.op = .binAdd v
    hasCore s t = true → k.near.accs = [x] →
    (∀ n, atomic n → x.seen = none → x.first ≤ k.clk.arch → k.clk.arch < x.due → Clean k.near x.addr n →
      CoreEvent s .bankAccess t { k with near := { k.near with
        accs := [{ x with seen := some (bytes n, none, k.clk.cyc) }], holds := holds } }) ∧
    (∀ n bs a c, atomic n → x.seen = some (bs, some a, c) → x.due ≤ k.clk.arch → exec .bankAccess s =
      .next (fillPend (taken (held n)) x.src x.serial (fun p => { done p with poison := match p.poison with | some y => some y | none => some a }))) ∧
    (x.due ≤ k.clk.arch →
    (∀ bs, x.op = .store bs → Clean k.near x.addr bs.length → writes bs) ∧
    (∀ e, x.op = .binInit e → Clean k.near x.addr 32 → writes (List.replicate 28 0 ++ [e] ++ List.replicate 3 0)) ∧
    (∀ n, x.op = .load n .zext → Clean k.near x.addr n → loads (fun p => { done p with val := .w (word n) })) ∧
    (x.op = .load 512 .lanes → Clean k.near x.addr 512 →
      loads (fun p => { done p with val := .v ((List.range 128).map (fun i => leW32 (byteSlice (bytes 512) (4 * i) 4))) })) ∧
    (x.op = .load 64 .bcast → Clean k.near x.addr 64 →
      loads (fun p => { done p with val := .v ((List.range 128).map (fun i => leW32 (byteSlice (bytes 64) (4 * (i % 16)) 4))) })) ∧
    (x.op = .load 1024 .pair → Clean k.near x.addr 1024 →
      loads (fun p => { done p with val := (.p ((List.range 128).map (fun i => leW32 (byteSlice (bytes 1024) (4 * i) 4)))
        ((List.range 128).map (fun i => leW32 (byteSlice (bytes 1024) (512 + 4 * i) 4)))) })) ∧
    (∀ op n v c bs t0, x.op = .atom op n v c → x.seen = some (bs, none, t0) → Clean k.near x.addr n →
      let old : W64 := BitVec.ofNat 64 (leNat bs)
      let new : W64 × W8 := match op with
        | .add => (old + v, 0)
        | .min => (if v.toInt < old.toInt then v else old, 0)
        | .max => (if old.toInt < v.toInt then v else old, 0)
        | .and => (old &&& v, 0)
        | .or => (old ||| v, 0)
        | .swp => (v, 0)
        | .cas => (if old = c then v else old, 0)
        | .fadd =>
          let r := fadd .f32 .rne false (fdec .f32 (old.setWidth 32)) (fdec .f32 (v.setWidth 32))
          (r.v.setWidth 64, r.f)
      both n (natBytes n new.1.toNat) (fun p => { done p with val := .w old, flags := new.2 })) ∧
    (∀ d n act bs t0, x.op = .cstv d n act → x.seen = some (bs, none, t0) → Clean k.near x.addr 512 →
      let old := lanesOf bs
      both 512 ((laneIdx.map (fun L => if act.getLsbD L && lane old L = lane d L then lane n L else lane old L)).flatMap word32Bytes)
        (fun p => { doneAt t0 p with val := .v (maskLanes act old) })) ∧
    (∀ v bs t0, x.op = .binAdd v → x.seen = some (bs, none, t0) → bs.length = 32 → Clean k.near x.addr 32 → both 32 (binPlus bs v) done) ∧
    (x.op = .binRead → Clean k.near x.addr 32 →
      returns (fun p => { done p with val := .w ((binValue (bytes 32)).v.setWidth 64), flags := (binValue (bytes 32)).f })) ∧
    (∀ a v, x.op = .scatter [(a, v)] → a % 4 = 0 → Clean k.near a 4 → ∃ l, WritesOnly k.near.mem l a (word32Bytes v) ∧
      CoreEvent s .bankAccess t { k with near := { k.near with mem := l, accs := [], holds := holds } }) ∧
    (∀ L a, x.op = .gather [(L, a)] → a % 4 = 0 → Clean k.near a 4 →
      returns (fun p => { done p with val := putLanes p.val [(L, leW32 ((List.range 4).map (fun i => memGet k.near.mem (a + i))))] })))) ∧
  ((∀ (e : W8), (binValue (binFresh e)).v = 0 ∧ (binValue (binFresh e)).f = 0 ∧ (binFresh e).length = 32) ∧
  (∀ (bs : List W8) (v : W32), bs.length = 32 → (binPlus bs v).length = 32 ∧
    (binSplit v (toSigned 8 (fieldAt bs 28 1)) = none →
      (binPlus bs v).take 29 = bs.take 29 ∧ fieldAt (binPlus bs v) 29 1 % 2 = 1 ∧ binValue (binPlus bs v) = ⟨0x7FC00000, fINV⟩) ∧
    (∀ p, binSplit v (toSigned 8 (fieldAt bs 28 1)) = some p →
      fieldAt (binPlus bs v) 24 4 = min (fieldAt bs 24 4 + 1) 0xFFFFFFFF ∧ fieldAt (binPlus bs v) 28 1 = fieldAt bs 28 1)) ∧
  (∀ (bs : List W8), fieldAt bs 29 1 % 4 ≠ 0 → binValue bs = ⟨0x7FC00000, fINV⟩) ∧
  (∀ E, binSplit 0x7FC00000 E = none ∧ binSplit 0x7F800000 E = none ∧ binSplit 0xFF800000 E = none))) ∧
  (∀ (s : State),
    let c := s.ev.core
    let m := (s.core c).near
    let g := s.ev.i
    let bank : BitVec 64 := 1#64 <<< (g % 64)
    let v := s.svc
    let left := (s.syscerr ++ s.sysuerr).filter (fun y => decide (y < 2 ^ 33))
    (hasCore s c = true →
      (g ∈ m.fixes → m.used &&& bank = 0 → CoreEvent s .eccRewrite c { s.core c with near := { m with
        cerr := m.cerr.filter (· ≠ g), fixes := m.fixes.filter (· ≠ g), used := m.used ||| bank } }) ∧
      (g ∉ m.fixes ∨ m.used &&& bank ≠ 0 → CoreEvent s .eccRewrite c (s.core c))) ∧
    (s.ev.j = 0 →
      (g ∉ s.sysuerr → g ∉ s.syscerr → exec .patrolScrub s = .next { s with syscerr := s.syscerr.filter (· ≠ g) }) ∧
      (g ∉ s.sysuerr → g ∈ s.syscerr → ∃ t, exec .patrolScrub s = .next t ∧ g ∉ t.syscerr ∧ t.syspoison = s.syspoison ∧ t.sys = s.sys
        ∧ (g / 2 ^ 22, ((v.found.find? (fun y => y.1 = g / 2 ^ 22)).map (·.2)).getD 0 + 1) ∈ t.svc.found) ∧
      (g ∈ s.sysuerr → ∃ t, exec .patrolScrub s = .next t ∧ g ∈ t.syspoison ∧ g ∉ t.sysuerr ∧ g ∉ t.syscerr
        ∧ t.sys = s.sys ∧ t.svc.elogw = v.elogw + 1)) ∧
    (s.ev.j = 1 →
      (v.patrol + dayTicks ≤ s.now → left = [] → ∃ l, exec .patrolScrub s = .next { s with svc := { v with
          patrol := s.now, found := [], hot := l } }
        ∧ (∀ y ∈ v.found, 4 ≤ y.2 → ∃ h ∈ l, h.1 = y.1) ∧ ∀ h ∈ v.hot, h ∈ l) ∧
      (s.now < v.patrol + dayTicks ∨ left ≠ [] → exec .patrolScrub s = .next s)) ∧
    (s.ev.j = 2 → ∀ r t0 n, v.hot = [(r, t0, n)] → g = r →
      (t0 + dayTicks / 16 ≤ s.now → (∀ y ∈ left, y / 2 ^ 22 ≠ r) →
        exec .patrolScrub s = .next { s with svc := { v with hot := if n = 0 then [] else [(r, s.now, 0)] } }) ∧
      (s.now < t0 + dayTicks / 16 → exec .patrolScrub s = .next s)))

/-! ### A control core's system memory -/

/-- R212, R350, R355 to R357: a C1 access of a control core is checked and translated at issue and joins the list of those to be
performed; a bad address or translation traps with 0x06, and a misaligned one that passes with 0x07 (04:R87).
R212, R353, R357: the oldest access of the list, to memory of this chip, is performed. A store writes its bytes and no others; a strongly
ordered or acquire load returns the bytes of memory, another load those or the bytes of a line that the small cache holds; an atomic
returns the bytes it replaces.
(Where the rules leave it open: the model's readings, log entry 3.) -/
def Obligations.SystemAccesses : Prop :=
  (∀ (s : State) (f : BitVec 3) (r q : BitVec 5) (b : BitVec 4) (o : BitVec 12) (j : BitVec 10) (pa e : Nat) (s1 : State),
    hasCore s s.cur.core = true → isSys s = true →
    let at_ (n : Nat) : W64 := readA (cx s) true b.toNat + BitVec.ofInt 64 (o.toInt * n)
    let v := cmData s f r.toNat
    let into (p : Pend) : Pend := { p with dst := cmDst s f r.toNat, latch := some (cmLine s f) }
    let line (p : Pend) : Pend := if ownsW s.cur.head s.cur.slot then { p with dst := .k (headWReg s.cur.head), latch := some s.cur.slot }
      else { p with dst := if r = 0 then .none else .s r.toNat, latch := some 0 }
    let joins (i : Instr) (a : W64) (n : Nat) (rd wr : Bool) (kind : C1Kind) (rel acq : Bool) (res : Option (Nat × (Pend → Pend))) : Prop :=
      (a.toNat < 2 ^ 48 → a.toNat % n = 0 → xlate s s.cur.core 20 a.toNat rd wr = (.ok pa e, s1) → noRoom s1 = false →
        ∃ t k, exec i s = .next t ∧ OnlyCore s1 t k
          ∧ k.ctl = { (me s1).ctl with c1 := (me s1).ctl.c1 ++ [{ k := s.serial, serial := s.serial, kind := kind, va := a.toNat, pa := pa
                                                                  pk := leafKind e, rel := rel, acq := acq }] }
          ∧ k.ctx.pends = (me s1).ctx.pends ++ (match res with
            | none => []
            | some (L, p) => [p { newPend s1 L with wait := 1, late := true }]) ∧ k.near = (me s1).near ∧ k.eng = (me s1).eng) ∧
      (2 ^ 48 ≤ a.toNat → exec i s = .next (issueFail s 0x06 a)) ∧
      (a.toNat < 2 ^ 48 → a.toNat % n ≠ 0 → xlate s s.cur.core 20 a.toNat rd wr = (.ok pa e, s1) →
        exec i s = .next (issueFail s1 0x07 a)) ∧
      (∀ c, a.toNat < 2 ^ 48 → xlate s s.cur.core 20 a.toNat rd wr = (.fault c, s1) → exec i s = .next (issueFail s1 0x06 a))
    joins (.ldb f r b o) (at_ 1) 1 true false (.load 1) false false (some (6, into)) ∧
    joins (.ldh f r b o) (at_ 2) 2 true false (.load 2) false false (some (6, into)) ∧
    joins (.ldw f r b o) (at_ 4) 4 true false (.load 4) false false (some (6, into)) ∧
    joins (.ldd f r b o) (at_ 8) 8 true false (.load 8) false false (some (6, into)) ∧
    joins (.ldacq f r b o) (at_ 8) 8 true false (.load 8) false true (some (6, into)) ∧
    joins (.stb f r b o) (at_ 1) 1 false true (.store (natBytes 1 v.toNat)) false false none ∧
    joins (.sth f r b o) (at_ 2) 2 false true (.store (natBytes 2 v.toNat)) false false none ∧
    joins (.stw f r b o) (at_ 4) 4 false true (.store (natBytes 4 v.toNat)) false false none ∧
    joins (.std f r b o) (at_ 8) 8 false true (.store (natBytes 8 v.toNat)) false false none ∧
    joins (.strel f r b o) (at_ 8) 8 false true (.store (natBytes 8 v.toNat)) true false none ∧
    joins (.atadd f r b o) (at_ 8) 8 true true (.atom .add 8 v 0) false false (some (7, into)) ∧
    joins (.atmin f r b o) (at_ 8) 8 true true (.atom .min 8 v 0) false false (some (7, into)) ∧
    joins (.atmax f r b o) (at_ 8) 8 true true (.atom .max 8 v 0) false false (some (7, into)) ∧
    joins (.atand f r b o) (at_ 8) 8 true true (.atom .and 8 v 0) false false (some (7, into)) ∧
    joins (.ator f r b o) (at_ 8) 8 true true (.atom .or 8 v 0) false false (some (7, into)) ∧
    joins (.atswp f r b o) (at_ 8) 8 true true (.atom .swp 8 v 0) false false (some (7, into)) ∧
    joins (.atfadd f r b o) (at_ 4) 4 true true (.atom .fadd 4 v 0) false false (some (7, into)) ∧
    joins (.atcas r q b j) (readA (cx s) true b.toNat + BitVec.ofInt 64 (j.toInt * 8)) 8 true true
      (.atom .cas 8 (readS (cx s) q.toNat) (readS (cx s) r.toNat)) false false (some (7, line)) ∧
    joins (.bininit f r b o) (at_ 32) 32 false true (.binInit (v.setWidth 8)) false false none ∧
    joins (.atbadd f r b o) (at_ 32) 32 true true (.binAdd (v.setWidth 32)) false false (some (7, id)) ∧
    joins (.binrd f r b o) (at_ 32) 32 true false .binRead false false (some (6, into))) ∧
  (∀ (s : State) (x : C1Acc),
    let c := s.ev.core
    let k := s.core c
    let word (bs : List W8) : Val := .w (BitVec.ofNat 64 (leNat bs))
    let mem (n : Nat) : List W8 := (List.range n).map (fun i => memGet s.sys (x.pa + i))
    let lands (t : State) (v : Val) (fl : W8 → W8) : Prop := (t.core c).main.pends = fillPends k.main.pends x.serial (fun p => { p with
      wait := p.wait - 1, exist := max p.exist k.clk.cyc, val := v, flags := fl p.flags })
    hasCore s c = true → s.ev.i = 0 → k.ctl.c1 = [x] → x.sent = false → isRemote x.pa = false →
    (∀ a ∈ k.near.accs, a.src ≠ c ∧ a.acq = false) →
    (∀ bs, x.kind = .store bs → bs ≠ [] → x.pa % 64 + bs.length ≤ 64 → SysClean s x.pa bs.length → evRoom s (partOf s c) 1 = true →
      (∀ d, d ∈ s.ccs → ∀ w ∈ d.ctl.watch, ∀ g b, w = some (g, b) → g ≠ x.pa / 64) →
      ∃ t, exec .c1StorePerformed s = .next t ∧ WritesOnly s.sys t.sys x.pa bs ∧ (t.core c).ctl.c1 = []
        ∧ (∀ d, (t.core d).near = (s.core d).near ∧ (t.core d).main = (s.core d).main ∧ (t.core d).urg = (s.core d).urg)) ∧
    (∀ n, x.kind = .load n → SysClean s x.pa 1 → (x.pk = 2 ∨ x.acq = true) → evRoom s (partOf s c) 1 = true →
      ∃ t, exec .c1LoadArrival s = .next t ∧ t.sys = s.sys ∧ (t.core c).ctl.c1 = [] ∧ lands t (word (mem n)) id
        ∧ (x.acq = true → c.cc = true → (t.core c).ctl.lines = [])) ∧
    (∀ n, x.kind = .load n → SysClean s x.pa 1 → x.pk ≠ 2 → x.acq = false → evRoom s (partOf s c) 1 = true →
      ∃ t bs, exec .c1LoadArrival s = .next t ∧ t.sys = s.sys ∧ (t.core c).ctl.c1 = [] ∧ lands t (word bs) id
        ∧ (bs = mem n ∨ ∃ l ∈ k.ctl.lines, l.pa = x.pa / 64 * 64 ∧ bs = byteSlice l.bytes (x.pa - l.pa) n)) ∧
    (∀ op n v cmp, x.kind = .atom op n v cmp → n ≠ 0 → x.pa % 64 + n ≤ 64 → SysClean s x.pa n → evRoom s (partOf s c) 1 = true →
      let new := atomNew op (BitVec.ofNat 64 (leNat (mem n))) v cmp
      ∃ t, exec .c1LoadArrival s = .next t ∧ (t.core c).ctl.c1 = [] ∧ lands t (word (mem n)) (fun _ => new.2)
        ∧ WritesOnly s.sys t.sys x.pa (natBytes n new.1.toNat)))
/-! ### Windows -/

/-- 11:R216, R218, R221, R222: a window operation takes the next number of its counter and joins its window; the seventeenth
outstanding fails FULL. WOPEN reserves the banks of its descriptor at c+4; WSTAT returns the status word of R222 at c+2.
11:R217 to R221, 14:R278: the oldest operation of a window completes when its work is done: the head moves by an ADV, OPEN and
CLOSE change the window, and the counter counts it. A finished row leaves the work; rows beyond NROWS are filled with zeros, a granule
at a time, where the engine half of its bank is free in this core cycle (10:R190), which it then uses. WRES.fail drops the work of a
stopped context and poisons what was not yet resident; a WRES that fails FULL changes nothing else.
(Where the rules leave it open: the model's readings, log entries 60, 82 and 99.) -/
def Obligations.WindowOperations : Prop :=
  (∀ (s : State) (w : BitVec 2) (k : BitVec 7) (b : BitVec 4) (o : BitVec 12) (f : BitVec 3) (r : BitVec 5),
    let c := s.cur.core
    let x := getWin (me s) w.toNat
    let i := (sylField s 22 2).toNat
    let y := getWin (me s) i
    let v := readA (cx s) true b.toNat + BitVec.ofInt 64 (o.toInt * 64)
    let off := v.toNat % 2 ^ 23
    hasCore s c = true →
      (∃ t, exec (.wadv w k) s = .next t ∧ OnlyCore s t (windowIssued s (me s) w.toNat (.adv k.toNat) true)) ∧
      (∃ t, exec .wclose s = .next t ∧ OnlyCore s t (windowIssued s (me s) i .close true)) ∧
      (∃ t, exec .wflush s = .next t ∧ OnlyCore s t (windowIssued s (me s) i .flush true)) ∧
      (y.fault = none → ∀ j ∈ [Instr.wresRetry, .wresFail], ∃ t, exec j s = .next t ∧ OnlyCore s t (windowIssued s (me s) i .wres true)) ∧
      (y.fault ≠ none → 16 ≤ openOps (me s) i →
        ∀ j ∈ [Instr.wresRetry, .wresFail], ∃ t, exec j s = .next t ∧ OnlyCore s t (windowIssued s (me s) i .wres true)) ∧
      (∀ g, y.fault = some g → (me s).eng.wins.length = 4 → openOps (me s) i < 16 →
        (∃ t, exec .wresRetry s = .next t ∧ (getWin (t.core c) i).fault = none
          ∧ (getWin (t.core c) i).ops = (getWin (windowIssued s (me s) i .wres true) i).ops
          ∧ ∀ e ∈ (t.core c).eng.utlb.getD i [], covers e.2.2 e.1 g.va = false) ∧
        (∃ t, exec .wresFail s = .next t ∧ (getWin (t.core c) i).fault = none ∧ (getWin (t.core c) i).work = []
          ∧ (∀ j ∈ y.work, j.fill = true → ∀ q ∈ granules 16 (y.slot j.row) y.rowlen, q ∈ (t.core c).near.poison)
          ∧ (t.core c).near.mem = (me s).near.mem
          ∧ ∀ p l, y.ops = p :: l → ((getWin (t.core c) i).ops.head?).map (·.out) = some (some (2, winDetail 12 i 0)))) ∧
      (v.toNat < 2 ^ 30 → v.toNat / 2 ^ 23 % 128 = c.num → v.toNat % 64 = 0 → c.cc = false →
        let claims := [(4, granAddrs off 64)]
        bankClash (me s) claims = none →
        ∃ t, exec (.wopen w b o) s = .next t ∧ OnlyCore s t { windowIssued s (targetAfter (me s) false
          [{ serial := s.serial, src := c, op := .desc 64, addr := off, first := cyc s + 4, due := cyc s + 4, ret := 0 }] claims)
          w.toNat .opn false with lastClaim := if isUrg s then (me s).lastClaim else max (me s).lastClaim (cyc s + 4) }) ∧
      (2 ^ 30 ≤ v.toNat ∨ v.toNat / 2 ^ 23 % 128 ≠ c.num → exec (.wopen w b o) s = .next (issueFail s 0x06 v)) ∧
      (v.toNat < 2 ^ 30 → v.toNat / 2 ^ 23 % 128 = c.num → v.toNat % 64 ≠ 0 →
        exec (.wopen w b o) s = .next (issueFail s 0x07 v)) ∧
      (x.dir < 4 → noRoom s = false → ∃ u : W64, Sends s (.wstat w f r) [] { newPend s 2 with
          dst := cmDst s f r.toNat, latch := some (cmLine s f), val := .w u } ∧
        u.getLsbD 0 = x.opn ∧ u.getLsbD 1 = x.fault.isSome ∧ u.getLsbD 2 = (me s).eng.err.getLsbD w.toNat
        ∧ (x.opn = true → (u.extractLsb' 3 2).toNat = x.dir)
        ∧ u.extractLsb' 32 32 = BitVec.ofNat 32 x.head
        ∧ (u.extractLsb' 16 5).toNat = min (openOps (me s) w.toNat) 16 ∧ ∀ g, x.fault = some g → (u.extractLsb' 8 4).toNat = g.code % 16)) ∧
  ((∀ (s : State) (op : WinOp) (rest : List WinOp),
    let c := s.ev.core
    let w := s.ev.i
    let k := s.core c
    let x := getWin k w
    let y : Win := match op.kind with
      | .opn => { x with opn := true, head := x.firstrow }
      | .adv n => { x with head := x.head + n }
      | .close => { x with opn := false }
      | _ => x
    hasCore s c = true → w < 4 → k.eng.wins.length = 4 → x.started = true → x.work = [] → x.fault = none →
      x.ops = op :: rest → op.out = none → op.num ≠ 0 → (∀ a ∈ k.eng.armed, a.ctr ≠ w) →
      CoreEvent s .windowOpComplete c (countedCore { k with eng := { k.eng with
        wins := k.eng.wins.set w { y with ops := rest, started := false, waits := [] }
        err := if op.kind = .opn ∧ x.opn = false then k.eng.err &&& ~~~ BitVec.ofNat 16 (2 ^ w) else k.eng.err } } w op.num)) ∧
  (∀ (s : State) (fill : Bool) (a b : List RowJob) (j : RowJob),
    let c := s.ev.core
    let k := s.core c
    let x := getWin k s.ev.i
    hasCore s c = true → s.ev.i < k.eng.wins.length → x.work = a ++ j :: b → j.todo = [] → j.asked = [] → j.fill = fill →
      (∀ z ∈ a, z.fill ≠ fill ∨ z.todo ≠ [] ∨ z.asked ≠ []) →
      CoreEvent s (if fill then .rowFill else .rowDrain) c
        { k with eng := { k.eng with wins := k.eng.wins.set s.ev.i { x with work := a ++ b } } }) ∧
  (∀ (s : State) (w g : Nat) (j : RowJob),
    let c := s.ev.core
    let k := s.core c
    let x := getWin k w
    let a := x.slot j.row + 64 * g
    hasCore s c = true → startWins s c = s → prepAll s c = s → winRequests k = [(w, 0, j)] → txRequests k c = [] →
      x.work = [j] → j.todo = [g] → j.fill = true → j.tail = true → k.near.accs = [] → (∀ h ∈ k.near.holds, h.2 ≠ k.clk.arch) →
      w < k.eng.wins.length → a % 16 = 0 →
      let free : Prop := ∀ q ∈ granules 16 a 64, k.near.used.getLsbD (q % 64) = false
      (free → ∃ t, exec .engineBankAccess s = .next t ∧ WritesOnly k.near.mem (t.core c).near.mem a (List.replicate 64 0)
        ∧ (getWin (t.core c) w).work = [{ j with todo := [] }] ∧ t.sys = s.sys
        ∧ (c.cc = false → ∀ q ∈ granules 16 a 64, (t.core c).near.used.getLsbD (q % 64) = true)
        ∧ (∀ d, d ≠ c → t.core d = s.core d) ∧ (t.core c).main = k.main ∧ (t.core c).urg = k.urg) ∧
      (¬ free → ∃ t, exec .engineBankAccess s = .next t ∧ t = { s with oracle := t.oracle })) ∧
  (∀ (s : State), let k := s.core s.ev.core
    startWins s s.ev.core = s → prepAll s s.ev.core = s → winRequests k = [] → txRequests k s.ev.core = [] →
      exec .engineBankAccess s = .next s))

/-- 11:R229, R230: a walk that ends in a leaf installs it, ends the stall of a C1 access that waits for its page, and no window waits
for the page any longer; one that fails stops the window that still waits for it.
R232: TLBINV stalls a control core until its earlier accesses, and what its partition's engines have translated, are performed; then
every translation it names of its partition is gone, in the TLB of both dies and in the micro-TLBs of its cores, and no other
partition's.
(Where the rules leave it open: the model's readings, log entry 13.) -/
def Obligations.WalksAndInvalidation : Prop :=
  ∀ (s : State),
    let c := s.ev.core
    let u : Bool := s.ev.j = 1
    let k := s.core c
    (∀ (w : Walk) (large : Bool) (e : Nat), s.walks[s.ev.i]? = some w → (s.walks.take s.ev.i).countP (fun x => x.die = w.die) < 32 →
      walkTable (walkMeet s w.part (w.va * 2 ^ 18)) w.part (w.va * 2 ^ 18) = .leaf large e →
      ∃ t, exec .pageWalk s = .next t ∧ t.walks = s.walks.eraseIdx s.ev.i ∧ t.sys = s.sys
        ∧ (∀ d va st, (d, 20, va) ∈ w.who → hasCore s d = true → (s.core d).main.stall = some st → st.kind = .c1 →
            st.a.toNat / 2 ^ 18 = va / 2 ^ 18 → (t.core d).main.stall = none)
        ∧ (∀ d i va, (d, i, va) ∈ w.who → i < 4 → (va / 2 ^ 18) ∉ (getWin (t.core d) i).waits)
        ∧ { die := w.die, part := w.part, base := pageBase large (w.va * 2 ^ 18), large := large, leaf := BitVec.ofNat 64 e } ∈ t.tlbs
        ∧ (∀ d, (t.core d).near = (s.core d).near ∧ (t.core d).eng.tl = (s.core d).eng.tl ∧ (t.core d).eng.txs = (s.core d).eng.txs)
        ∧ t.parts = s.parts) ∧
    (∀ (w : Walk) (code i va : Nat) (d : CoreRef) (op : WinOp) (rest : List WinOp), s.walks[s.ev.i]? = some w →
      (s.walks.take s.ev.i).countP (fun x => x.die = w.die) < 32 →
      walkTable (walkMeet s w.part (w.va * 2 ^ 18)) w.part (w.va * 2 ^ 18) = .fault code → w.who = [(d, i, va)] → i < 4 → hasCore s d = true →
      let x := getWin (s.core d) i
      partOf s d = w.part → w.part < s.parts.length → evRoom s w.part 1 = true → (s.core d).eng.wins.length = 4 →
      x.ops = op :: rest → op.num ≠ 0 → x.fault = none → va / 2 ^ 18 ∈ x.waits →
      ∃ t, exec .pageWalk s = .next t ∧ t.walks = s.walks.eraseIdx s.ev.i ∧ t.sys = s.sys
        ∧ (getWin (t.core d) i).fault = some ⟨code, va / 64 * 64, op.num⟩ ∧ (va / 2 ^ 18) ∉ (getWin (t.core d) i).waits
        ∧ (getPart t w.part).evNew.length = (getPart s w.part).evNew.length + 1 ∧ ∀ e, e ≠ d → t.core e = s.core e) ∧
    (s.walks[s.ev.i]? = none → exec .pageWalk s = .next s) ∧
    (∀ st, hasCore s c = true → c.cc = true → stallOf s c u .tlbinv = some st → coreDrained k c = true → farBusy s c.num = false →
      let gone (large : Bool) (base : Nat) : Prop := st.b = 1 ∨ pageBase large (st.a.toNat % 2 ^ 48) = base
      ∃ t, exec .tlbinvDone s = .next t ∧ (ctxOf (t.core c) u).stall = none ∧ t.sys = s.sys ∧ t.parts = s.parts
        ∧ (∀ e, e ∈ t.tlbs ↔ e ∈ s.tlbs ∧ (e.part = c.num → ¬ gone e.large e.base))
        ∧ (∀ d, hasCore s d = true → (if d.cc then d = c else (s.core d).part = some c.num) →
            ∀ l ∈ (t.core d).eng.utlb, ∀ e ∈ l, ¬ gone e.2.2 e.1)
        ∧ (∀ d, (t.core d).near = (s.core d).near)) ∧
    (∀ st, c.cc = true → stallOf s c u .tlbinv = some st → coreDrained k c = false ∨ farBusy s c.num = true → exec .tlbinvDone s = .next s) ∧
    (∀ (a : BitVec 6) (g : BitVec 3) (n : BitVec 1), hasCore s s.cur.core = true →
      let stalls (i : Instr) (srcs : List (BitVec 6)) (st : Stall) : Prop := ∃ t, exec i s = .next t ∧
        OnlyCore s t ((coreSending s srcs [] 0).updCtx (fun x => { x with stall := some { st with since := s.now, serial := s.serial } }))
      (guardOn s g n = true → stalls (.tlbinvPage a g n) [a] { kind := .tlbinv, a := srcS s a }) ∧
      (guardOn s (sylField s 4 3) (sylField s 3 1) = true → stalls .tlbinvAll [] { kind := .tlbinv, b := 1 }))

/-! ### Queues and records -/

/-- 14:R290, R291, R292, R294: QRESV and QPUSH take a number on their context; QSTAT returns a channel's, the latches' or the event
queue's status at c+2 and clears what it reports at c+1. Bits that reads of its own bundle set are neither seen nor cleared (03:R49).
(Where the rules leave it open: the model's readings, log entry 85.) -/
def Obligations.QueueOperationsIssue : Prop :=
  ∀ (s : State) (ch t : BitVec 4) (n : BitVec 8) (f : BitVec 3) (r : BitVec 5),
    let c := s.cur.core
    let p := getPart s (partOf s c)
    let i := if isCC s then t.toNat else t.toNat - 4
    let into (p : Pend) : Pend := { p with dst := cmDst s f r.toNat, latch := some (cmLine s f) }
    (hasCore s c = true →
      (∃ u, exec (.qresv ch n t) s = .next u
        ∧ OnlyCore s u (transferIssued s (me s) i t.toNat (.qresv ch.toNat (n.toNat + 1)) true 0 0)) ∧
      (∃ u, exec (.qpush ch f r t) s = .next u
        ∧ OnlyCore s u (transferIssued s (me s) i t.toNat (.qpush ch.toNat (cmData s f r.toNat)) true 0 0))) ∧
    (HasRoom s →
      ((chanEntries s (partOf s c) ch.toNat).length < 2 ^ 16 → chanResv s (partOf s c) ch.toNat < 2 ^ 16 →
        ∃ v : W64, Sends s (.qstat ch f r 0) [] (into { newPend s 2 with val := .w v }) ∧
        let x := getChan s (partOf s c) ch.toNat
        v.getLsbD 32 = x.opn ∧ v.getLsbD 33 = x.peer.isSome ∧ v.getLsbD 34 = x.prod ∧ v.getLsbD 35 = x.cons
        ∧ (v.extractLsb' 0 16).toNat = (chanEntries s (partOf s c) ch.toNat).length
        ∧ (v.extractLsb' 16 16).toNat = chanResv s (partOf s c) ch.toNat) ∧
      (∃ (v : W64) (u : State), exec (.qstat ch f r 1) s = .next u
        ∧ OnlyCore s u (coreSending s []
            [effResult s 1 (.clrQempty ((cx s).qempty &&& ~~~ s.cur.noted)), into { newPend s 2 with val := .w v }] 0)
        ∧ v.extractLsb' 4 4 = (cx s).qempty &&& ~~~ s.cur.noted ∧ ∀ j < 4, v.getLsbD j = (queueHead s j).isSome) ∧
      (∃ (v : W64) (u : State), exec (.qstat ch f r 2) s = .next u
        ∧ OnlyCore s u (coreSending s [] ((if p.evFull then [effResult s 1 .clrFull] else []) ++ [into { newPend s 2 with val := .w v }]) 0)
        ∧ (p.evCount < 2 ^ 16 → v.extractLsb' 0 16 = BitVec.ofNat 16 p.evCount)
        ∧ (p.evCount < 2 ^ 16 → p.ovCount < 2 ^ 16 → v.getLsbD 32 = p.evFull)))

/-- 14:R291: a push appends its entry to the channel's consuming side where it has room, or uses a slot that its context has reserved;
a reservation counts against the 256 entries; both wait for space, and fail with a TOKEN record on a channel that is closed, with
status 6, or that the partition may not push to, with status 2.
R286, R288, R295: a posted record enters the ring of its partition's control core at the end of the tick, and records move out of overflow
into the ring; WATCH arms the granule of a page that it may read, fires with a record of
its slot, and is disarmed.
(Where the rules leave it open: the model's readings, log entries 71, 86, 87 and 96.) -/
def Obligations.QueueAndRecordEvents : Prop :=
  (∀ (s : State) (o : TxOp) (ch : Nat),
    let c := s.ev.core
    let i := s.ev.i
    let k := s.core c
    let x := getTx k i
    let p := partOf s c
    let q := getChan s p ch
    hasCore s c = true → x.ops = [o] → o.started = true → o.out = none → x.fault = none → (∀ a ∈ k.eng.armed, a.ctr ≠ txCtr c i) →
      i < k.eng.txs.length → p < s.parts.length → ch < (getPart s p).chans.length →
      let h := chanHome s p ch
      let full := (chanEntries s p ch).length + chanResv s p ch
      let counted := countedCore { k with eng := { k.eng with txs := k.eng.txs.set i { x with ops := [] } } } (txCtr c i) o.num
      let fails (i' : Instr) (st : Nat) : Prop := ∃ t, exec i' s = .next t ∧ (getTx (t.core c) i).ops = []
        ∧ (getTL (t.core c) (txCtr c i)).val = (getTL counted (txCtr c i)).val ∧ (t.core c).eng.err.getLsbD (txCtr c i) = true
        ∧ (getPart t p).evNew = (getPart s p).evNew ++ [coreRecord s c 10 st (txCtr c i) 0 o.num ch] ∧ (getPart t p).chans = (getPart s p).chans
      (evRoom s p 1 = true → txCtr c i < 16 →
        (q.opn = false → (∀ v, o.kind = .qpush ch v → fails .qpushEnqueue 6) ∧ ∀ n, o.kind = .qresv ch n → fails .qresvComplete 6) ∧
        (q.opn = true → q.prod = false →
          (∀ v, o.kind = .qpush ch v → fails .qpushEnqueue 2) ∧ ∀ n, o.kind = .qresv ch n → fails .qresvComplete 2)) ∧
      (q.opn = true → q.prod = true → h.1 < s.parts.length → h.2 < (getPart s h.1).chans.length →
      (∀ v, o.kind = .qpush ch v → ownResv x ch = 0 → full < 256 →
        ∃ t, exec .qpushEnqueue s = .next t ∧ t.core c = counted ∧ (∀ d, d ≠ c → t.core d = s.core d) ∧ t.sys = s.sys
          ∧ (getChan t h.1 h.2).entries = chanEntries s p ch ++ [v]) ∧
      (∀ v, o.kind = .qpush ch v → ownResv x ch ≠ 0 →
        ∃ t, exec .qpushEnqueue s = .next t ∧ (getTx (t.core c) i).resv = takeResv x.resv ch ∧ (getTx (t.core c) i).ops = []
          ∧ (∀ d, d ≠ c → t.core d = s.core d) ∧ t.sys = s.sys ∧ (getChan t h.1 h.2).entries = chanEntries s p ch ++ [v]) ∧
      (∀ v, o.kind = .qpush ch v → ownResv x ch = 0 → 256 ≤ full → exec .qpushEnqueue s = .next s) ∧
      (∀ n, o.kind = .qresv ch n → full + n ≤ 256 →
        ∃ t, exec .qresvComplete s = .next t ∧ (getTx (t.core c) i).resv = x.resv ++ [(ch, n)] ∧ (getTx (t.core c) i).ops = []
          ∧ (t.core c).eng.tl = counted.eng.tl ∧ (∀ d, d ≠ c → t.core d = s.core d) ∧ t.parts = s.parts ∧ t.sys = s.sys) ∧
      (∀ n, o.kind = .qresv ch n → 256 < full + n → exec .qresvComplete s = .next s))) ∧
  (∀ (s : State), let p := s.ev.i
    let q := getPart s p
    let a := 0x20000 + 32 * ((q.evHead + q.evCount) % 4096)
    hasCore s ⟨true, p⟩ = true → p < s.parts.length → 0 < q.ovCount → q.evCount < 4096 →
      ∃ t, exec .eventOverflowMove s = .next t
        ∧ WritesOnly (s.core ⟨true, p⟩).near.mem (t.core ⟨true, p⟩).near.mem a (memRead s.sys (q.ovfl + 32 * q.ovHead) 32)
        ∧ getPart t p = { q with evCount := q.evCount + 1, ovHead := (q.ovHead + 1) % 32768, ovCount := q.ovCount - 1 }
        ∧ t.sys = s.sys ∧ ∀ d, d ≠ ⟨true, p⟩ → t.core d = s.core d) ∧
  (∀ (s : State) (d : BitVec 5) (a b : BitVec 6) (g : BitVec 3) (n : BitVec 1), Executes s g n →
    let v := srcS s a
    let s0 := noteReads s [a.toNat, b.toNat]
    (∀ pa e s1, v.toNat % 64 = 0 → xlate s0 s.cur.core 20 v.toNat true false = (.ok pa e, s1) →
      ∃ t, exec (.watchArm d a b g n) s = .next t ∧ OnlyCore s1 t ((me s1).updCtx (fun x => { x with
        stall := some { kind := .watch, a := BitVec.ofNat 64 pa, b := srcS s b, dst := dstS s d.toNat, k := s.serial, since := s1.now, serial := s1.serial } }))) ∧
    (∀ e s1, v.toNat % 64 = 0 → xlate s0 s.cur.core 20 v.toNat true false = (.fault e, s1) →
      exec (.watchArm d a b g n) s = .next (issueFail s1 0x06 v)) ∧
    (v.toNat % 64 ≠ 0 → exec (.watchArm d a b g n) s = .next (issueFail s0 0x07 v)) ∧
    (∃ t, exec (.watchDis a g n) s = .next t ∧ OnlyCore s t { coreSending s [a] [] 0 with
      ctl := { (coreSending s [a] [] 0).ctl with watch := (me s).ctl.watch.set (v.toNat % 8) none } })) ∧
  (∀ (s : State) (st : Stall), let c := s.ev.core
    let k := s.core c
    Stalled s c .watch st →
      let ends (i : Option Nat) (v : W64) : Prop := CoreEvent s .watchArmDone c (stallEnded { k with
        ctl := match i with
          | some i => { k.ctl with watch := k.ctl.watch.set i (some (st.a.toNat / 64, st.b.setWidth 24)) }
          | none => k.ctl } st v)
      (∀ i < 8, k.ctl.watch.getD i none = none → (∀ f ∈ k.ctl.fired, f.1 ≠ i) →
        (∀ j < i, k.ctl.watch.getD j none ≠ none ∨ ∃ f ∈ k.ctl.fired, f.1 = j) → ends (some i) (BitVec.ofNat 64 i)) ∧
      ((∀ j < 8, k.ctl.watch.getD j none ≠ none ∨ ∃ f ∈ k.ctl.fired, f.1 = j) → ends none (-1))) ∧
  (∀ (s : State) (f : Nat × Nat × BitVec 24) (l : List (Nat × Nat × BitVec 24)), let c := s.ev.core
    hasCore s c = true → c.cc = true → c.num < s.parts.length → (s.core c).ctl.fired = f :: l →
      (evRoom s c.num 1 = true →
        ∃ t, exec .watchFire s = .next t ∧ t.sys = s.sys ∧ (∀ d, d ≠ c → t.core d = s.core d)
          ∧ t.core c = { s.core c with ctl := { (s.core c).ctl with fired := l } }
          ∧ getPart t c.num = { getPart s c.num with
              evNew := (getPart s c.num).evNew ++ [mkRecord 11 0 c.num 0 (recSource s c) (taskOf s c) f.1 0 f.2.2.toNat] }) ∧
      (evRoom s c.num 1 = false → ∃ t, exec .watchFire s = .next t ∧ t.vms = s.vms ∧ t.ccs = s.ccs ∧ (getPart t c.num).evFull = true)) ∧
  (∀ (s : State) (p : Nat) (r : List W8), let q := getPart s p
    let a := 0x20000 + 32 * ((q.evHead + q.evCount) % 4096)
    hasCore s ⟨true, p⟩ = true → p < 8 → p < s.parts.length → q.evNew = [r] → (∀ p', p' ≠ p → (getPart s p').evNew = []) →
      q.evWait = [] → q.ovCount = 0 → q.evCount < 4096 → r ≠ [] →
      let t := flushRecords s
      WritesOnly (s.core ⟨true, p⟩).near.mem (t.core ⟨true, p⟩).near.mem a r
        ∧ getPart t p = { q with evNew := [], evCount := q.evCount + 1 } ∧ t.sys = s.sys ∧ ∀ d, d ≠ ⟨true, p⟩ → t.core d = s.core d)

/-! ### Transfers -/

/-- 16:R331 to R333, R345: TXSEND, TXCOPY, RLOAD, MCSTO and RATOM take the next number of their counter and join their context; the
descriptor is read at c+4. MCJOIN takes its group and sequence from a register. A context holds 16 operations; one more fails FULL.
16:R333, R336: TXWALK walks the core's run of the timetable inside a phase and traps outside one; a second one of a phase fails.
TXRES lets a stopped context try its fault again, or ends the faulted operation with detail 12; one that fails FULL does neither.
(Where the rules leave it open: the model's readings, log entries 39 and 82.) -/
def Obligations.TransferInstructionsIssue : Prop :=
  (∀ (s : State) (t b : BitVec 4) (o : BitVec 16) (f : BitVec 3) (r : BitVec 5),
    let c := s.cur.core
    let v := readA (cx s) true b.toNat + BitVec.ofInt 64 (o.toInt * 32)
    let off := v.toNat % 2 ^ 23
    let acc (a : Nat) : Access := { serial := s.serial, src := c, op := .desc 32, addr := a, first := cyc s + 4, due := cyc s + 4, ret := 0 }
    let claims := [(4, granAddrs off 32)]
    hasCore s c = true →
      (∀ p ∈ [(Instr.txsend t b o, TxKind.send), (.txcopy t b o, .copy), (.rload t b o, .rload), (.mcsto t b o, .mcsto),
          (.ratom t b o, .ratom)],
        (c.cc = false → v.toNat < 2 ^ 30 → v.toNat / 2 ^ 23 % 128 = c.num →
          (v.toNat % 32 ≠ 0 → exec p.1 s = .next (issueFail s 0x07 v)) ∧
          (v.toNat % 32 = 0 → bankClash (me s) claims = none → ∃ u, exec p.1 s = .next u ∧ OnlyCore s u
            { transferIssued s (targetAfter (me s) false [acc off] claims) (t.toNat - 4) t.toNat p.2 false off 0 with
              lastClaim := if isUrg s then (me s).lastClaim else max (me s).lastClaim (cyc s + 4) }) ∧
          (∀ a, v.toNat % 32 = 0 → bankClash (me s) claims = some a → exec p.1 s = .next (issueFail s 0x02 (lateralForm c a)))) ∧
        (c.cc = false → 2 ^ 30 ≤ v.toNat ∨ v.toNat / 2 ^ 23 % 128 ≠ c.num →
          exec p.1 s = .next (issueFail s 0x06 v)) ∧
        (c.cc = true → v.toNat < 0x40000 → ∃ u, exec p.1 s = .next u ∧ OnlyCore s u
          (transferIssued s (targetAfter (me s) true [acc v.toNat] []) t.toNat t.toNat p.2 false v.toNat 0)) ∧
        (c.cc = true → 0x40000 ≤ v.toNat → exec p.1 s = .next (issueFail s 0x06 v))) ∧
      (let i := if c.cc then t.toNat else t.toNat - 4
       let d := cmData s f r.toNat
       (∃ u, exec (.mcjoinJoin t f r) s = .next u ∧ OnlyCore s u
         (transferIssued s (me s) i t.toNat (.join (d.toNat % 4096) (d.toNat / 4096 % 2 ^ 48)) true 0 0)) ∧
       (∃ u, exec (.mcjoinLeave t f r) s = .next u ∧ OnlyCore s u
         (transferIssued s (me s) i t.toNat (.leave (d.toNat % 4096)) true 0 0)))) ∧
  (∀ (s : State),
    let c := s.cur.core
    let t := (sylField s 20 4).toNat
    let i := if c.cc then t else t - 4
    let k := me s
    let x := getTx k i
    let n := (getTL k t).next + 1
    hasCore s c = true →
    (inPhase s = false → exec .txwalk s = .next (issueFail s 0x01 0)) ∧
    (inPhase s = true → t < k.eng.tl.length → i < k.eng.txs.length → (∀ o ∈ x.ops, o.num < n) →
      ∃ u, exec .txwalk s = .next u ∧ (getTL (u.core c) t) = { getTL k t with next := n }
        ∧ (getTx (u.core c) i).ops = x.ops ++ [{ num := n, kind := .walk, serial := s.serial, ready := true, start := k.ph.phc + 2
                                                 after := s.cur.base
                                                 out := if 16 ≤ openOps k t then some (2, txDetail 11 t 0)
                                                   else if k.ph.txwalked then some (2, txDetail 9 t 0) else none
                                                 walk := if k.ph.txwalked then [] else runFlits (fabRun s c).1 }]
        ∧ (u.core c).ph = { k.ph with txwalked := true }
        ∧ (u.core c).near = k.near ∧ (u.core c).main = k.main ∧ (u.core c).urg = k.urg ∧ (u.core c).mx = k.mx ∧ (u.core c).ctl = k.ctl
        ∧ u.sys = s.sys ∧ ∀ d, d ≠ c → u.core d = s.core d) ∧
    (x.fault = none → ∀ j ∈ [Instr.txresRetry, .txresFail], ∃ u, exec j s = .next u ∧ OnlyCore s u (transferIssued s k i t .res true 0 0)) ∧
    (x.fault ≠ none → 16 ≤ openOps k t →
      ∀ j ∈ [Instr.txresRetry, .txresFail], ∃ u, exec j s = .next u ∧ OnlyCore s u (transferIssued s k i t .res true 0 0)) ∧
    (∀ g, x.fault = some g → i < k.eng.txs.length → openOps k t < 16 →
      (∃ u, exec .txresRetry s = .next u ∧ (getTx (u.core c) i).fault = none
        ∧ (∀ o ∈ (getTx (u.core c) i).ops, o.num = g.num → o.wait = none)
        ∧ (∀ e ∈ (u.core c).eng.utlb.getD (4 + i) [], covers e.2.2 e.1 g.va = false)
        ∧ (u.core c).near = k.near ∧ (u.core c).main = k.main ∧ u.sys = s.sys ∧ ∀ d, d ≠ c → u.core d = s.core d) ∧
      (∃ u, exec .txresFail s = .next u ∧ (getTx (u.core c) i).fault = none
        ∧ (∀ o ∈ x.ops, o.num = g.num → o.out = none →
            { o with wait := none, todo := [], out := some (2, txDetail 12 t 0) } ∈ (getTx (u.core c) i).ops)
        ∧ (u.core c).near = k.near ∧ (u.core c).main = k.main ∧ u.sys = s.sys ∧ ∀ d, d ≠ c → u.core d = s.core d)))

/-- 16:R338, R339, R344: RXARM arms a receive tile and takes a number of tl6; RXFLAG reads a tile's flags and count at c+2; MCAPPL
binds, unbinds and reads tl7. A control core has none of them.
(Where the rules leave it open: the model's readings, log entries 38 and 91.) -/
def Obligations.ReceiveTilesAndBinding : Prop :=
  ∀ (s : State) (f : BitVec 3) (r : BitVec 5) (tile : BitVec 16),
    let c := s.cur.core
    let k := me s
    let a := (cmData s f r.toNat).toNat
    let id := a % 2 ^ 16
    let n := a / 2 ^ 16 % 2 ^ 24
    let x := getRx k (id % 64)
    let y := getRx k (tile.toNat % 64)
    let num := (getTL k 6).next + 1
    let counted (e : Engines) : Core := { k with eng := { e with tl := k.eng.tl.set 6 { getTL k 6 with next := num } } }
    let g := (sylField s 10 12).toNat
    let into (p : Pend) : Pend := { p with dst := cmDst s f r.toNat, latch := some (cmLine s f) }
    (hasCore s c = true → c.cc = true →
      ∀ i ∈ [Instr.rxarm f r, .rxflag f r tile, .mcapplBind, .mcapplUnbind, .mcapplRd f r], exec i s = .next (issueFail s 0x06 0)) ∧
    (hasCore s c = true → c.cc = false →
      (id = 0 ∨ n = 0 → ∃ u, exec (.rxarm f r) s = .next u
        ∧ OnlyCore s u (counted { k.eng with rxFails := k.eng.rxFails ++ [(num, 2, txDetail 8 6 0)] })) ∧
      (id ≠ 0 → n ≠ 0 → x.armed = true → x.ready = false → ∃ u, exec (.rxarm f r) s = .next u
        ∧ OnlyCore s u (counted { k.eng with rxFails := k.eng.rxFails ++ [(num, 2, txDetail 9 6 0)] })) ∧
      (id ≠ 0 → n ≠ 0 → x.armed = false ∨ x.ready = true → ∃ u, exec (.rxarm f r) s = .next u
        ∧ OnlyCore s u (counted { k.eng with 
          rx := k.eng.rx.set (id % 64) { id := id, expected := n, armed := true, num := num, armNum := num, start := k.clk.cyc + 1 } })) ∧
      ((getGroup s g).part ≠ some (partOf s c) → exec .mcapplBind s = .next (issueFail s 0x0C 7))) ∧
    (HasRoom s → c.cc = false →
      (∃ v : W64, Sends s (.rxflag f r tile) [] (into { newPend s 2 with val := .w v }) ∧
        if y.armed = true ∧ y.id = tile.toNat ∧ y.start ≤ k.clk.cyc then
          v.getLsbD 0 = y.ready ∧ v.getLsbD 1 = true ∧ v.getLsbD 2 = y.pois ∧ v.getLsbD 3 = y.excess
            ∧ v.extractLsb' 32 24 = BitVec.ofNat 24 y.counted
        else v = 0) ∧
      ((getGroup s g).part = some (partOf s c) → Sends s .mcapplBind [] (effResult s 1 (.bindTl7 (some g)))) ∧
      Sends s .mcapplUnbind [] (effResult s 1 (.bindTl7 none)) ∧
      (k.eng.tl7 = none → Sends s (.mcapplRd f r) [] (into { newPend s 2 with val := .w 0 })) ∧
      (∀ g m, k.eng.tl7 = some g → k.eng.members.find? (fun m => m.grp = g) = some m →
        Sends s (.mcapplRd f r) [] (into { newPend s 2 with val := .w (BitVec.ofNat 16 m.gen ++ BitVec.ofNat 48 m.applied) })) ∧
      (∀ g, k.eng.tl7 = some g → (∀ m ∈ k.eng.members, m.grp ≠ g) →
        Sends s (.mcapplRd f r) [] (into { newPend s 2 with val := .w 0 })))

/-- 14:R278, 16:R333, R335, R338: an operation whose outcome is decided completes, its counter counts it, and a failed one posts its
record, with the kind that R333 gives the operation, and sets ERR; a ready tile completes its RXARM; a note is pushed once its receive queue has room.
(Where the rules leave it open: the model's readings, log entries 60 and 91.) -/
def Obligations.TransfersComplete : Prop :=
  (∀ (s : State) (o : TxOp) (st d : Nat),
    let c := s.ev.core
    let i := s.ev.i
    let k := s.core c
    let x := getTx k i
    let p := partOf s c
    let q := getPart s p
    let counted := countedCore { k with eng := { k.eng with txs := k.eng.txs.set i { x with ops := [] } } } (txCtr c i) o.num
    hasCore s c = true → i < 16 → s.ev.j = 0 → x.ops = [o] → o.started = true → o.out = some (st, d) → x.fault = none →
      (∀ a ∈ k.eng.armed, a.ctr ≠ txCtr c i) →
      (st = 0 → CoreEvent s .transferComplete c counted) ∧
      (st ≠ 0 → st ≠ 255 → p < s.parts.length → evRoom s p 1 = true →
        ∃ t, exec .transferComplete s = .next t
          ∧ (t.core c).eng.tl = counted.eng.tl ∧ (t.core c).eng.txs = counted.eng.txs
          ∧ (t.core c).eng.err = (if st = 3 ∨ st = 4 then k.eng.err else k.eng.err ||| BitVec.ofNat 16 (2 ^ txCtr c i))
          ∧ (t.core c).near = k.near ∧ t.sys = s.sys ∧ t.gangs = s.gangs
          ∧ getPart t p = { q with evNew := q.evNew ++ [mkRecord (txRecKind o.kind) st p (txCtr c i) (recSource s c) (taskOf s c)
              (match o.kind with | .qresv _ _ => 0 | .qpush _ _ => 0 | _ => o.num) o.num d] })) ∧
  (∀ (s : State) (n : Nat),
    let c := s.ev.core
    let k := s.core c
    let r := getRx k n
    hasCore s c = true → n < 64 → s.ev.i = 16 + n → n < k.eng.rx.length → r.ready = true → r.num ≠ 0 → r.pois = false → r.excess = false →
      (∀ a ∈ k.eng.armed, a.ctr ≠ 6) →
      CoreEvent s .transferComplete c (countedCore { k with eng := { k.eng with rx := k.eng.rx.set n { r with num := 0 } } } 6 r.num)) ∧
  (∀ (s : State) (n : Nat × W64 × Flit) (a b : List (Nat × W64 × Flit)),
    let c := s.ev.core
    let k := s.core c
    let l := k.eng.rqs.getD s.ev.i []
    hasCore s c = true → s.ev.i < k.eng.rqs.length → k.eng.notes = a ++ n :: b → n.1 = s.ev.i → (∀ m ∈ a, m.1 ≠ s.ev.i) →
      (64 ≤ l.length → exec .notifyPush s = .next s) ∧
      (l.length < 64 → n.2.2.srcChip ≠ s.chip → ∃ t, exec .notifyPush s = .next t
        ∧ t.core c = { k with eng := { k.eng with notes := a ++ b, rqs := k.eng.rqs.set s.ev.i (l ++ [n.2.1]) } }
        ∧ (∀ d, d ≠ c → t.core d = s.core d) ∧ t.outbox = s.outbox ++ [.flit (answer s n.2.2 .ack)] ∧ t.sys = s.sys) ∧
      (l.length < 64 → n.2.2.srcChip = s.chip → n.2.2.op = 2 → ∃ t, exec .notifyPush s = .next t
        ∧ (t.core c).eng.rqs = k.eng.rqs.set s.ev.i (l ++ [n.2.1]) ∧ (t.core c).eng.notes = a ++ b ∧ t.outbox = s.outbox ∧ t.sys = s.sys
        ∧ (∀ o ∈ (getTx (t.core (flitSrc n.2.2)) n.2.2.ctx).ops, o.num = n.2.2.num → o.note = 2)
        ∧ ∀ d, (t.core d).near = (s.core d).near ∧ (t.core d).main = (s.core d).main))

/-- 16:R320, R321, R327: the source of a timetabled flit is read, not before 32 cycles before its stamp and once its banks are free, and
its flit is queued for its slot at its port, or at the one that took over; where that is out of service it has left and is lost. A port
starts the flit whose slot has come, or an untimed one where no timed one is ready, and nothing between slots; the flit arrives after
the class latency of its path.
(Where the rules leave it open: the model's readings, log entries 45 and 99.) -/
def Obligations.TimetabledFlitsReadAndLeave : Prop :=
  (∀ (s : State) (o : TxOp) (g : Gang) (w : Nat),
    let c := s.ev.core
    let i := s.ev.i
    let k := s.core c
    let e := (fabRun s c).1.getD (w / 1024) []
    let j := w % 1024
    let a := entSrc e + 224 * j
    let n := min 224 (entLen e - 224 * j)
    let p := entPort e
    let q := match (getPort s p).detour with
      | some (q, _) => q
      | none => p
    let read (t : State) : Prop := t.sys = s.sys ∧ (t.core c).main = k.main
      ∧ (t.core c).near = { k.near with used := k.near.used ||| bankMask (granules 16 a n) } ∧ ∀ d, d ≠ c → t.core d = s.core d
    hasCore s c = true → c.cc = false → startTxs s c i = s → walkOf s c i = some (o, g) → o.walk[s.ev.j]? = some w →
      (k.ph.phc < max (entStamp e - 32) o.start → exec .timetableSourceRead s = .next s) ∧
      (engBusy k a n = true → exec .timetableSourceRead s = .next s) ∧
      (max (entStamp e - 32) o.start ≤ k.ph.phc → engBusy k a n = false → Clean k.near a n → i < k.eng.txs.length →
        (q < s.ports.length → (getPort s q).up = true → ∃ t, exec .timetableSourceRead s = .next t
          ∧ (getPort t q) = { getPort s q with timed := insFlit (
              { kind := .data, timed := true, part := partOf s c, srcChip := s.chip, srcCore := c.num, ctx := i, num := o.num
                dstChip := entChip e, dstCore := entCore e, off := entDoff e, bytes := (List.range n).map (fun b => memGet k.near.mem (a + b))
                mode := entMode e, tile := entTile e, entry := w / 1024, port := p, idx := j
                due := max (g.s + (9 * entStamp e + ninths g.step - 1) / ninths g.step + 7 * j) s.now } : Flit) (getPort s q).timed }
          ∧ (getTx (t.core c) i).ops = (getTx k i).ops.map (fun x =>
              if x.num = o.num then { x with walk := x.walk.filter (· ≠ w), flits := x.flits + 1 } else x)
          ∧ t.gangs = s.gangs ∧ read t) ∧
        ((getPort s q).up = false → ∃ t, exec .timetableSourceRead s = .next t
          ∧ (getTx (t.core c) i).ops = (getTx k i).ops.map (fun x =>
              if x.num = o.num then { x with walk := x.walk.filter (· ≠ w), lost := true } else x)
          ∧ (∀ m, k.ph.gang = some m → m < s.gangs.length → p ∈ (getGang t m).perr ∧ (getGang t m).left = bumpLeft (getGang s m).left p)
          ∧ t.ports = s.ports ∧ read t))) ∧
  (∀ (s : State),
    let p := s.ev.i
    let x := getPort s p
    let ready := dcc s % 7 = 0 ∧ x.nextSlot ≤ s.now ∧ x.up = true ∧ x.retrain ≤ s.now
    let waits := ∀ y ∈ x.timed, s.now < y.due
    let further (f : Flit) : Nat := match (getPort s f.port).detour with
      | some (_, n) => n
      | none => 0
    let goal (f : Flit) : Nat := if f.kind = .mcStore ∨ f.kind = .mcJoin ∨ f.kind = .mcLeave then 1024 + f.grp else f.dstChip
    let leaves (f : Flit) (y : Port) (t : State) : Prop := exec .timetabledFlitDepart s = .next t
      ∧ getPort t p = { y with nextSlot := s.now + 7 }
      ∧ t.flits = s.flits ++ [{ f with hop := s.now, due := s.now + (pathTicks s.chip (goal f) + further f)
                                       rerouted := f.rerouted || (getPort s f.port).detour.isSome }]
      ∧ t.sys = s.sys ∧ ∀ d, (t.core d).near = (s.core d).near ∧ (t.core d).main = (s.core d).main
    p < s.ports.length →
      (¬ ready → exec .timetabledFlitDepart s = .next s) ∧
      (∀ f l, ready → x.timed = f :: l → f.due ≤ s.now → ∃ t, leaves f { x with timed := l } t
        ∧ (∀ m, (s.core (flitSrc f)).ph.gang = some m → m < s.gangs.length → (getGang t m).left = bumpLeft (getGang s m).left f.port)
        ∧ (f.rerouted = true ∨ (getPort s f.port).detour ≠ none →
            ∀ o ∈ (getTx (t.core (flitSrc f)) f.ctx).ops, o.num = f.num → o.kind = .walk → o.moved ≠ none)) ∧
      (∀ f l, ready → waits → s.ev.j = 1 → x.untimed = f :: l → ∃ t, leaves f { x with untimed := l } t ∧ t.vms = s.vms ∧ t.ccs = s.ccs) ∧
      (ready → waits → s.ev.j ≠ 1 ∨ x.untimed = [] → exec .timetabledFlitDepart s = .next s))

/-- 16:R324, R328, R329, R360: a data flit for a core of its partition is written, its inbound bytes are counted, and it waits for
banks that are taken and for the flits that come before it; one for another partition's core writes nothing and fails. What goes to
another chip leaves the package. 16:R322, R323: a replayed flit and those behind it come 320 ticks later; the eighth failure in a row
brings in the spare lane, retrains the link for 4096 ticks and is logged. The flits of a port that has lost its link for good take
another path, with their walks marked, or fail.
(Where the rules leave it open: the model's readings, log entries 92 and 99.) -/
def Obligations.FlitsAndLinks : Prop :=
  (∀ (s : State) (f : Flit), s.ev.flit = some f →
    exec .flitArrival s = .next { s with flits := s.flits ++ [{ f with due := s.now, fill := 0 }] }) ∧
  (∀ (s : State) (f : Flit),
    let c := flitDst f
    let k := s.core c
    let a := f.off + 224 * f.idx
    let sent (t : State) : Prop := t.flits = s.flits.eraseIdx s.ev.i ∧ t.sys = s.sys ∧ t.parts = s.parts
    let before (h : Flit) : Prop := h.kind = .data ∧ h.dstChip = f.dstChip ∧ flitDst h = flitDst f ∧ h.due ≤ s.now ∧ flitKey h < flitKey f
    let turn := f.due ≤ s.now ∧ (f.kind = .data → ∀ h ∈ s.flits, ¬ before h)
    s.ev.flit = none → s.flits[s.ev.i]? = some f →
      (s.now < f.due → exec .flitArrival s = .next s) ∧
      (f.kind = .data → (∃ h ∈ s.flits, before h) → exec .flitArrival s = .next s) ∧
      (turn → f.dstChip ≠ s.chip → ∃ t, exec .flitArrival s = .next t ∧ sent t ∧ t.outbox = s.outbox ++ [.flit f]
        ∧ (∀ q, getPort t q = if crosses s f = true ∧ q = linkOf s f then { getPort s q with failures := 0 } else getPort s q)
        ∧ ∀ d, t.core d = s.core d) ∧
      (turn → f.dstChip = s.chip → f.kind = .data → f.op ≠ 1 → f.timed = true → inPart s c f.part = true →
        f.mode = 0 → f.tile = 0 → f.pois = [] → f.off % 16 = 0 → f.bytes.length % 16 = 0 → f.bytes.length ≤ 224 →
        (f.fill = 0 → engBusy k a f.bytes.length = false →
          ∃ t, exec .flitArrival s = .next t ∧ sent t ∧ WritesOnly k.near.mem (t.core c).near.mem a f.bytes
            ∧ (t.core c).eng.inbound = k.eng.inbound + f.bytes.length
            ∧ (t.core c).eng.rxErr = (k.eng.rxErr || decide ((fabRun s c).2 < k.eng.inbound + f.bytes.length))
            ∧ (∀ g, a / 16 ≤ g → g < (a + f.bytes.length) / 16 → g ∉ (t.core c).near.poison)
            ∧ (t.core c).main = k.main ∧ ∀ d, d ≠ c → t.core d = s.core d) ∧
        (f.fill < f.bytes.length / 16 → engBusy k (a + 16 * f.fill) 16 = true →
          ∃ t, exec .flitArrival s = .next t ∧ t.flits = s.flits ∧ t.sys = s.sys ∧ ∀ d, t.core d = s.core d)) ∧
      (turn → f.dstChip = s.chip → f.kind = .data → f.op ≠ 1 → inPart s c f.part = false →
        ∃ t, exec .flitArrival s = .next t ∧ sent t ∧ (∀ d, (t.core d).near = (s.core d).near ∧ (t.core d).main = (s.core d).main)
          ∧ (f.srcChip ≠ s.chip → t.outbox = s.outbox ++ [.flit (answer s f .nack)])
          ∧ (f.srcChip = s.chip → (∀ o ∈ (getTx (t.core (flitSrc f)) f.ctx).ops, o.num = f.num → o.lost = true)
            ∧ (∀ m, f.timed = true → (s.core (flitSrc f)).ph.gang = some m → m < s.gangs.length → f.port ∈ (getGang t m).perr)))) ∧
  (∀ (s : State),
    let p := s.ev.i
    let x := getPort s p
    let n := s.ev.v.toNat
    let mine (f : Flit) : Bool := crosses s f && linkOf s f = p
    let dead := x.timed ++ x.untimed ++ s.flits.filter mine
    let past := match x.detour with
      | some (_, m) => m
      | none => 0
    let beside (q : Nat) : Prop := q < 36 ∧ q ≠ p ∧ (getPort s q).up = true
      ∧ ∃ m < 8, (getPart s m).ports.getLsbD p = true ∧ (getPart s m).ports.getLsbD q = true
    let kept (t : State) : Prop := t.sys = s.sys ∧ ∀ d, (t.core d).near = (s.core d).near ∧ (t.core d).main = (s.core d).main
    let moved (t : State) : Prop := exec .linkLoss s = .next t ∧ kept t ∧ t.svc.elogw = s.svc.elogw + 1
      ∧ t.flits = s.flits.map (fun f => if mine f then { f with due := f.due + n, rerouted := true } else f)
      ∧ ∀ f ∈ s.flits, mine f = true → f.timed = true →
          ∀ o ∈ (getTx (t.core (flitSrc f)) f.ctx).ops, o.num = f.num → o.kind = .walk → o.moved ≠ none
    p < 36 → s.ports.length = 36 →
      (∃ t, exec .flitReplay s = .next t ∧
        let eighth := x.failures = 7
        getPort t p = (if eighth then { x with failures := 0, spareUsed := true, retrain := s.now + 4096, nextSlot := (getPort t p).nextSlot }
          else { x with failures := x.failures + 1, nextSlot := (getPort t p).nextSlot })
        ∧ (∀ f ∈ (t.flits.filter mine).drop n, f.hop + 7 ≤ (getPort t p).nextSlot) ∧ x.nextSlot ≤ (getPort t p).nextSlot
        ∧ t.flits.length = s.flits.length
        ∧ (∀ (i : Nat) (f : Flit), s.flits[i]? = some f → t.flits[i]? =
            if mine f = true ∧ n ≤ ((s.flits.take i).filter mine).length then
              some { f with due := f.due + (if eighth then 4416 else 320), hop := f.hop + (if eighth then 4416 else 320) }
            else some f)
        ∧ t.svc.elogw = (if eighth then s.svc.elogw + 1 else s.svc.elogw) ∧ t.sys = s.sys ∧ ∀ d, t.core d = s.core d) ∧
      (∃ t, exec .linkRetrainDone s = .next t ∧ t.sys = s.sys ∧ (∀ d, t.core d = s.core d)
        ∧ getPort t p = if x.retrain ≤ s.now then { x with retrain := 0, failures := 0 } else x) ∧
      (x.detour = none ∨ x.detour = some (p, past) →
        (s.ev.j = 1 → ∃ t, exec .linkLoss s = .next t ∧ kept t ∧ t.svc.elogw = s.svc.elogw + 1
          ∧ getPort t p = { x with up := false, timed := [], untimed := [], detour := none }
          ∧ t.flits = s.flits.filter (fun f => !mine f)
          ∧ (∀ f ∈ dead, f.timed = true ∨ (f.kind ≠ .memReply ∧ (f.kind = .memReq → f.ctx < 16) ∧ (f.kind = .data → f.op ≠ 1)) →
              ∀ o ∈ (getTx (t.core (flitSrc f)) f.ctx).ops, o.num = f.num → o.lost = true)
          ∧ (∀ f ∈ dead, ∀ m, f.timed = true → (s.core (flitSrc f)).ph.gang = some m → m < s.gangs.length → f.port ∈ (getGang t m).perr)) ∧
        (s.ev.j = 0 → (∃ q, beside q) → ∃ t r, moved t ∧ beside r
          ∧ getPort t p = { x with up := false, timed := [], untimed := [], detour := some (r, past + n) }
          ∧ (getPort t r).timed = x.timed.foldl (fun l f => insFlit f l) (getPort s r).timed
          ∧ (getPort t r).untimed = (getPort s r).untimed ++ x.untimed) ∧
        (s.ev.j = 0 → (∀ q, ¬ beside q) → ∃ t, moved t ∧ getPort t p = { x with detour := some (p, past + n) })))

/-! ### Multicast and remote atomics -/

/-- 16:R340, R342 to R345: the home stamps stores in order and sends them to every member; a member applies only the store that follows
its last, whole, in one go, and what tl7 shows moves with it; it asks for what it lacks and the home sends that again. Joins, leaves and
failures change the membership and its generation, and mark the stores that a member has still to acknowledge; a store is answered once
every member has applied it, or with status 3 where it is marked.
(Where the rules leave it open: the model's readings, log entries 14, 90 and 93.) -/
def Obligations.MulticastGroups : Prop :=
  (∀ (s : State), let g := s.ev.i
    let x := getGroup s g
    (wholeStore x.inq = none → exec .multicastStamp s = .next s) ∧
    (∀ f, x.inq = [f] → 1 < f.cnt → exec .multicastStamp s = .next s) ∧
    (∀ f, wholeStore x.inq = some f →
      let stamped (z : Flit) : Flit := { z with seqn := x.seqn + 1, gen := x.gen, grp := g }
      let parts := (x.inq.filter (fun z => sameStore z f)).map stamped
      let sent (m : Nat × Nat) (z : Flit) : Flit := { z with kind := .mcMember, dstChip := m.1, dstCc := false, dstCore := m.2, fill := 0 }
      ∃ t, exec .multicastStamp s = .next t
        ∧ getGroup t g = { x with seqn := x.seqn + 1, inq := x.inq.filter (fun z => !sameStore z f)
                                  kept := x.kept.filter (fun z => x.seqn + 1 < z.seqn + 1024) ++ parts
                                  open_ := x.open_ ++ [(stamped f, x.members, false)] }
        ∧ (∀ h, h ≠ g → getGroup t h = getGroup s h)
        ∧ t.flits = s.flits ++ (x.members.filter (fun m => m.1 = s.chip)).flatMap (fun m =>
            parts.map (fun z => { sent m z with due := s.now + homeTicks s g }))
        ∧ t.outbox = s.outbox ++ (x.members.filter (fun m => m.1 ≠ s.chip)).flatMap (fun m => parts.map (fun z => .flit (sent m z)))
        ∧ t.sys = s.sys ∧ ∀ d, t.core d = s.core d)) ∧
  (∀ (s : State) (m : Member), let c := s.ev.core
    let k := s.core c
    let lo (f : Flit) : Nat := f.off + 224 * f.idx
    hasCore s c = true → c.cc = false → k.eng.members[s.ev.i]? = some m →
      (wholeSeq m (m.applied + 1) = none → exec .multicastApply s = .next s) ∧
      (∀ l, wholeSeq m (m.applied + 1) = some l →
        (m.leaving = true ∨ (∃ f ∈ l, engBusy k (lo f) f.bytes.length = true) → exec .multicastApply s = .next s) ∧
        (m.leaving = false → (∀ f ∈ l, engBusy k (lo f) f.bytes.length = false ∧ f.pois = [] ∧ f.bytes.length % 16 = 0) →
          l.Pairwise (fun f h => lo f + f.bytes.length ≤ lo h ∨ lo h + h.bytes.length ≤ lo f) →
          k.eng.members.find? (fun y => y.grp = m.grp) = some m →
          ∃ t, exec .multicastApply s = .next t
            ∧ (Memory.wf k.near.mem = true → Memory.wf (t.core c).near.mem = true
              ∧ (∀ f ∈ l, ∀ b < f.bytes.length, memGet (t.core c).near.mem (lo f + b) = f.bytes.getD b 0)
              ∧ ∀ x, (∀ f ∈ l, ¬ (lo f ≤ x ∧ x < lo f + f.bytes.length)) → memGet (t.core c).near.mem x = memGet k.near.mem x)
            ∧ (t.core c).eng.members[s.ev.i]? =
                some { m with applied := m.applied + 1, held := m.held.filter (fun h => h.seqn ≠ m.applied + 1) }
            ∧ (k.eng.tl7 = some m.grp → 7 < k.eng.tl.length → (getTL (t.core c) 7).val = m.applied + 1)
            ∧ t.flits = s.flits ++ [{ kind := .mcAck, part := partOf s c, srcChip := s.chip, srcCore := c.num, dstChip := s.chip
                                      grp := m.grp, seqn := m.applied + 1, due := s.now + homeTicks s m.grp }]
            ∧ (t.core c).main = k.main ∧ t.sys = s.sys ∧ ∀ d, d ≠ c → t.core d = s.core d))) ∧
  (∀ (s : State) (m : Member), let c := s.ev.core
    let x := getGroup s s.ev.i
    (s.ev.j = 0 → (s.core c).eng.members[s.ev.i]? = some m →
      (lacking s c m = none → exec .multicastResend s = .next s) ∧
      (∀ q, lacking s c m = some q → exec .multicastResend s = .next { s with flits := s.flits ++ [
        { kind := .mcResend, part := partOf s c, srcChip := s.chip, srcCore := c.num, dstChip := s.chip, grp := m.grp, seqn := q
          due := s.now + homeTicks s m.grp }] })) ∧
    (∀ a l, s.ev.j = 1 → x.asks = a :: l →
      let again (f : Flit) : Flit := { f with kind := .mcMember, dstChip := a.srcChip, dstCc := false, dstCore := a.srcCore, fill := 0 }
      let wanted := x.kept.filter (fun f => f.seqn = a.seqn)
      ∃ t, exec .multicastResend s = .next t ∧ getGroup t s.ev.i = { x with asks := l } ∧ t.sys = s.sys ∧ (∀ d, t.core d = s.core d)
        ∧ if a.srcChip = s.chip then
            t.flits = s.flits ++ wanted.map (fun f => { again f with due := s.now + homeTicks s f.grp }) ∧ t.outbox = s.outbox
          else t.flits = s.flits ∧ t.outbox = s.outbox ++ wanted.map (fun f => .flit (again f)))) ∧
  (∀ (s : State) (f : Flit) (l : List Flit), let g := s.ev.i
    let x := getGroup s g
    let c := flitSrc f
    let who := (f.srcChip, f.srcCore)
    let oldest := (x.kept.map (·.seqn)).foldl min (x.seqn + 1)
    let next := (x.gen + 1) % 2 ^ 16
    let changed (t : State) (l' : List (Nat × Nat)) : Prop := getGroup t g = { x with
      joins := l, members := l', gen := next, open_ := x.open_.map (fun o => (o.1, o.2.1, o.2.2 || decide (o.2.1 ≠ []))) }
    let answered (t : State) (stat seqn gen code : Nat) : Prop :=
      let a : Flit := { answer s f .mcJoined with stat := stat, seqn := seqn, gen := gen, a := BitVec.ofNat 64 code }
      t.sys = s.sys ∧ if f.srcChip = s.chip then t.flits = s.flits ++ [{ a with due := s.now + homeTicks s f.grp }] ∧ t.outbox = s.outbox
        else t.flits = s.flits ∧ t.outbox = s.outbox ++ [.flit a]
    x.joins = f :: l → f.kind = .mcJoin ∨ f.kind = .mcLeave →
      (f.kind = .mcLeave → who ∈ x.members → ∃ t, exec .multicastJoinRecord s = .next t ∧ changed t (x.members.filter (· ≠ who))
        ∧ answered t 0 0 next 0
        ∧ (f.srcChip = s.chip → (t.core c).eng.members = (s.core c).eng.members.filter (fun m => m.grp ≠ g))) ∧
      (f.kind = .mcJoin → who ∉ x.members → f.seqn ≤ x.seqn + 1 → f.seqn ≠ 0 → x.kept = [] ∨ oldest < f.seqn → x.members.length < 64 →
        ∃ t, exec .multicastJoinRecord s = .next t ∧ changed t (x.members ++ [who]) ∧ answered t 0 f.seqn next 0
        ∧ (f.srcChip = s.chip → hasCore s c = true → (t.core c).eng.members = (s.core c).eng.members ++
            [{ grp := g, applied := f.seqn - 1, gen := next }])) ∧
      ((f.kind = .mcJoin ∧ who ∈ x.members) ∨ (f.kind = .mcLeave ∧ who ∉ x.members) → ∃ t, exec .multicastJoinRecord s = .next t
        ∧ getGroup t g = { x with joins := l } ∧ answered t 2 0 x.gen 9 ∧ ∀ d, t.core d = s.core d) ∧
      (f.kind = .mcJoin → who ∉ x.members → x.seqn + 1 < f.seqn ∨ f.seqn = 0 ∨ (x.kept ≠ [] ∧ f.seqn ≤ oldest) ∨ 64 ≤ x.members.length →
        ∃ t, exec .multicastJoinRecord s = .next t ∧ getGroup t g = { x with joins := l } ∧ answered t 2 0 x.gen 10
        ∧ ∀ d, t.core d = s.core d)) ∧
  (∀ (s : State) (m : Nat × Nat), let g := s.ev.i
    let x := getGroup s g
    x.members[s.ev.j]? = some m → ∃ t, exec .multicastMemberFailed s = .next t ∧ t.sys = s.sys
      ∧ getGroup t g = { x with members := x.members.filter (· ≠ m), gen := (x.gen + 1) % 2 ^ 16
                                open_ := x.open_.map (fun o => (o.1, o.2.1, o.2.2 || decide (o.2.1 ≠ []))) }
      ∧ (m.1 = s.chip → ∀ y ∈ (t.core ⟨false, m.2⟩).eng.members, y.grp ≠ g)) ∧
  (∀ (s : State) (f : Flit) (l : List (Nat × Nat)) (marked : Bool) (a b : List (Flit × List (Nat × Nat) × Bool)), let g := s.ev.i
    let x := getGroup s g
    ((∀ z ∈ x.open_, z.2.2 = false ∧ z.2.1 ≠ []) → exec .mcstoComplete s = .next s) ∧
    (x.open_ = a ++ (f, l, marked) :: b → l = [] ∨ marked = true → (∀ z ∈ a, z.2.2 = false ∧ z.2.1 ≠ []) →
      (∀ z ∈ a ++ b, z.1.seqn ≠ f.seqn) →
      let out : Flit := { answer s f .mcJoined with stat := if marked then 3 else 0, seqn := f.seqn, gen := x.gen, a := 0 }
      ∃ t, exec .mcstoComplete s = .next t ∧ getGroup t g = { x with open_ := a ++ b } ∧ t.sys = s.sys ∧ (∀ d, t.core d = s.core d)
        ∧ if f.srcChip = s.chip then t.flits = s.flits ++ [{ out with due := s.now + homeTicks s f.grp }] ∧ t.outbox = s.outbox
          else t.flits = s.flits ∧ t.outbox = s.outbox ++ [.flit out]))

/-- 16:R346 to R348: a packet is performed once at its target, with the operation of its code, and its source's reply is kept; a packet
that comes again is answered from what is kept and writes nothing. A packet waits for banks that are taken. The old value is written at
RESOFF; a packet without a reply is sent again when its time is up, eight times at most.
(Where the rules leave it open: the model's readings, log entries 68, 89, 93 and 99.) -/
def Obligations.RemoteAtomics : Prop :=
  (∀ (s : State) (f : Flit),
    let op := ratOp f.op
    let n := ratSize f.op
    let back (stat : Nat) (v : W64) : Flit := { answer s f .atomicReply with stat := stat, a := v, due := s.now }
    let answered (t : State) (stat : Nat) (v : W64) : Prop := t.ratoms = s.ratoms.eraseIdx s.ev.i ∧
      if f.srcChip = s.chip then t.flits = s.flits ++ [back stat v] ∧ t.outbox = s.outbox
      else t.flits = s.flits ∧ t.outbox = s.outbox ++ [.flit (back stat v)]
    s.ratoms[s.ev.i]? = some f →
      (∀ v, cachedReply s f = some v → ∃ t, exec .remoteAtomicPerform s = .next t ∧ answered t 0 v ∧ t.sys = s.sys
        ∧ ∀ d, t.core d = s.core d) ∧
      (cachedReply s f = none → f.virt = true → f.srcChip = s.chip ∨ paAllotted s f.part f.off = true → f.off % n = 0 → SysClean s f.off n →
        let old := leW64 ((List.range n).map (fun i => memGet s.sys (f.off + i)))
        ∃ t, exec .remoteAtomicPerform s = .next t ∧ answered t 0 old ∧ cachedReply t f = some old
          ∧ WritesOnly s.sys t.sys f.off (natBytes n (atomNew op old f.a f.b).1.toNat) ∧ ∀ d, (t.core d).near = (s.core d).near) ∧
      (cachedReply s f = none → f.virt = true → f.srcChip ≠ s.chip → paAllotted s f.part f.off = false →
        ∃ t, exec .remoteAtomicPerform s = .next t ∧ answered t 2 0 ∧ t.sys = s.sys ∧ ∀ d, t.core d = s.core d) ∧
      (cachedReply s f = none → f.virt = true → f.srcChip = s.chip ∨ paAllotted s f.part f.off = true →
        f.off / 64 ∈ s.syspoison → f.off / 64 ∉ s.sysuerr → f.off / 64 ∉ s.syscerr →
        ∃ t, exec .remoteAtomicPerform s = .next t ∧ answered t 1 0 ∧ t.sys = s.sys ∧ ∀ d, t.core d = s.core d) ∧
      (cachedReply s f = none → f.virt = false → inPart s (flitDst f) f.part = true →
        (engBusy (s.core (flitDst f)) f.off n = true → exec .remoteAtomicPerform s = .next s) ∧
        (engBusy (s.core (flitDst f)) f.off n = false → Clean (s.core (flitDst f)).near f.off n →
          let m := (s.core (flitDst f)).near.mem
          let old := leW64 ((List.range n).map (fun i => memGet m (f.off + i)))
          ∃ t, exec .remoteAtomicPerform s = .next t ∧ answered t 0 old ∧ cachedReply t f = some old ∧ t.sys = s.sys
            ∧ WritesOnly m (t.core (flitDst f)).near.mem f.off (natBytes n (atomNew op old f.a f.b).1.toNat)
            ∧ ∀ d, d ≠ flitDst f → t.core d = s.core d)) ∧
      (cachedReply s f = none → f.virt = false → inPart s (flitDst f) f.part = false →
        ∃ t, exec .remoteAtomicPerform s = .next t ∧ answered t 2 0 ∧ t.sys = s.sys ∧ ∀ d, t.core d = s.core d)) ∧
  (∀ (s : State) (o : TxOp),
    let c := s.ev.core
    let i := s.ev.i
    let k := s.core c
    let has (t : State) (o : TxOp) : Prop := o ∈ (getTx (t.core c) i).ops
      ∧ t.sys = s.sys ∧ ∀ x, (t.core x).near = (s.core x).near ∧ (t.core x).main = (s.core x).main
    let decides (st d : Nat) (e : Instr) : Prop := ∃ t, exec e s = .next t ∧ has t { o with out := some (st, d) }
    let resoff := fieldAt o.desc 24 4
    hasCore s c = true → (getTx k i).ops[s.ev.j]? = some o → o.out = none →
      (o.kind = .ratom → o.settled ≠ none → engBusy k resoff 8 = true → exec .ratomReply s = .next s) ∧
      (o.kind = .ratom → o.settled = some 0 → engBusy k resoff 8 = false → ∃ t, exec .ratomReply s = .next t
        ∧ { o with out := some (0, 0) } ∈ (getTx (t.core c) i).ops
        ∧ WritesOnly k.near.mem (t.core c).near.mem resoff (natBytes 8 o.old.toNat)
        ∧ t.sys = s.sys ∧ (t.core c).main = k.main ∧ ∀ d, d ≠ c → t.core d = s.core d) ∧
      (∀ st, o.kind = .ratom → o.settled = some st → st ≠ 0 → engBusy k resoff 8 = false →
        decides st (txDetail (if st = 2 then 13 else 0) (txCtr c i) 0) .ratomReply) ∧
      (∀ st, (∃ g q, o.kind = .join g q) ∨ (∃ g, o.kind = .leave g) → o.settled = some st →
        decides (if st = 0 then 0 else 2) (if st = 0 then 0 else txDetail o.old.toNat (txCtr c i) 0) .ratomReply) ∧
      (∀ st, o.kind = .mcsto → o.settled = some st →
        decides st (if st = 3 then o.seqn + o.gen * 2 ^ 48 else 0) .ratomReply) ∧
      (o.settled = none → exec .ratomReply s = .next s) ∧
      (o.kind = .ratom → o.started = true → o.loaded = true → o.settled = none → (getTx k i).fault = none →
        let tgt := BitVec.ofNat 64 (fieldAt o.desc 0 8)
        let out (n : Nat) : TxOp := { o with wait := none, sent := o.sent + 1, deadline := s.now + n }
        let packet (p : Nat) (f : Flit) : Prop := f.kind = .atomic ∧ f.num = o.num ∧ f.ctx = i ∧ flitSrc f = c ∧ f.srcChip = s.chip
          ∧ f.a = BitVec.ofNat 64 (fieldAt o.desc 8 8) ∧ f.b = BitVec.ofNat 64 (fieldAt o.desc 16 8) ∧ f.op = fieldAt o.desc 28 1 % 16
          ∧ f.dstChip = vChip tgt ∧ f.dstCore = vCore tgt ∧ f.off = vOff tgt ∧ f.virt = false ∧ f.port = p
        (s.now < o.deadline → exec .ratomResend s = .next s) ∧
        (o.deadline ≤ s.now → 9 ≤ o.sent → decides 2 (txDetail 14 (txCtr c i) 0) .ratomResend) ∧
        (o.deadline ≤ s.now → o.sent < 9 → ratomOk s c o.desc = true → isVirt tgt = false →
          (vChip tgt = s.chip → ∃ t f, exec .ratomResend s = .next t ∧ t.ratoms = s.ratoms ++ [f] ∧ packet 0 f ∧ has t (out 4096)) ∧
          (vChip tgt ≠ s.chip → s.ports.length = 36 → portsOf s (partOf s c) ≠ [] → Config.inDomain (vChip tgt) = true →
            ∃ t p f, exec .ratomResend s = .next t ∧ p ∈ portsOf s (partOf s c) ∧ packet p f
              ∧ (getPort t p).untimed = (getPort s p).untimed ++ [f] ∧ has t (out (2 * pathTicks s.chip (vChip tgt) + 4096))) ∧
          (vChip tgt ≠ s.chip → portsOf s (partOf s c) = [] → decides 2 (txDetail 13 (txCtr c i) 0) .ratomResend))))

/-! ### Phases -/

/-- 15:R298, R301, R305, R312, R315, 19:R396: at its tick the selected phase starts on every core of the gang, at its entry address or,
where it has none, going on with slack; an active urgent context ends. A gang with a save pending stops instead, and the phase is
withheld (19:R398). A core that reaches LENGTH unsigned traps; Mace's counts begin again at every 1024th cycle.
(Where the rules leave it open: the model's readings, log entries 33, 34 and 51.) -/
def Obligations.PhasesStart : Prop :=
  (∀ (s : State) (b : Bool) (i t : Nat) (r : PhRec),
    let gi := s.ev.i
    let g := getGang s gi
    let step := min g.agreed r.stepmax
    g.nextRec = some (b, i) → g.nextAt = some t → (s.now < t → exec .phaseStart s = .next s) ∧
    (t ≤ s.now → g.live = true → g.running = true → g.ending = none → g.save ≠ none → g.ens = false → gi < s.gangs.length →
      (∀ n ∈ g.cores, n < s.vms.length) →
      ∃ u, exec .phaseStart s = .next u ∧ u.sys = s.sys ∧ (getGang u gi).saving = true ∧ (getGang u gi).nextAt = none
        ∧ (getGang u gi).nextRec = g.nextRec ∧ ∀ n ∈ g.cores, (u.core ⟨false, n⟩).near = (s.core ⟨false, n⟩).near
          ∧ (u.core ⟨false, n⟩).tp.active = false
          ∧ ((u.core ⟨false, n⟩).run = .stopped ∨ ((s.core ⟨false, n⟩).run = .faulted ∧ (u.core ⟨false, n⟩).run = .faulted))) ∧
    (t ≤ s.now → g.live = true → g.running = true → g.ending = none → g.save = none ∨ g.ens = true → gi < s.gangs.length →
      ((if b then g.bufB else g.bufA).getD [])[i]? = some r → g.cores.Nodup → (∀ n ∈ g.cores, n < s.vms.length) →
      ∃ u, exec .phaseStart s = .next u ∧ u.sys = s.sys ∧ (∀ d, (∀ n ∈ g.cores, d ≠ ⟨false, n⟩) → u.core d = s.core d)
        ∧ (getGang u gi).cur = some (b, i) ∧ (getGang u gi).s = s.now ∧ (getGang u gi).step = step ∧ (getGang u gi).nextRec = none
        ∧ (getGang u gi).msgs = [] ∧ (∀ n ∈ g.cores, (0, n) ∈ (getGang u gi).awaited)
        ∧ ∀ (j n : Nat), g.cores[j]? = some n →
          let k := s.core ⟨false, n⟩
          let k' := u.core ⟨false, n⟩
          let e := r.entry.getD j 0
          k'.ph.phc = 0 ∧ k'.ph.length = r.length ∧ k'.ph.prof = r.prof ∧ k'.ph.solo = r.solo ∧ k'.ph.phnum = BitVec.ofNat 8 r.phnum
          ∧ k'.ph.p = 0 ∧ k'.ph.mCount = 0 ∧ k'.ph.vCount = 0 ∧ (k'.ph.grantM, k'.ph.grantV) = r.grant.getD j (0, 0)
          ∧ k'.ph.inph = decide (e ≠ 0) ∧ k'.ph.signed = decide (e = 0) ∧ k'.ph.sigPend = decide (e = 0)
          ∧ k'.main.pc = (if e ≠ 0 then BitVec.ofNat 64 e else if k.tp.active then k.tr.tpc else k.main.pc)
          ∧ (e ≠ 0 → k.run ≠ .faulted → k'.run = .running) ∧ k'.main.loops = [] ∧ k'.main.stall = none ∧ k'.tp.active = false
          ∧ k'.clk.due = true ∧ k'.clk.step = step ∧ k'.eng.inbound = 0 ∧ k'.main.s = k.main.s
          ∧ k'.near = { k.near with used := if k.clk.due then k.near.used else 0 } ∧ k'.main.x = k.main.x)) ∧
  (∀ (s : State), let c := s.ev.core
    let k := s.core c
    hasCore s c = true →
    (k.ph.inph = true → k.ph.signed = false → k.ph.length ≤ k.ph.phc → k.tp.active = false → k.run = .running →
      handlerOk c k (tvecAt k k.clk.arch) = true →
      ∃ t, exec .missedSignoff s = .next t ∧ (t.core c).tr.tcause = 0xF001 ∧ (t.core c).tr.tpc = k.main.pc ∧ (t.core c).tp.active = true
        ∧ (t.core c).urg.pc = tvecAt k k.clk.arch ∧ (t.core c).near = k.near ∧ t.sys = s.sys ∧ ∀ d, d ≠ c → t.core d = s.core d) ∧
    (k.ph.inph = false ∨ k.ph.signed = true ∨ k.ph.phc < k.ph.length → exec .missedSignoff s = .next s) ∧
    CoreEvent s .maceWindow c (if k.ph.phc % 1024 = 0 ∧ k.clk.due = true then { k with ph := { k.ph with mCount := 0, vCount := 0 } } else k))

/-- 15:R306, R307, R309, 16:R330: a core sends its message once LENGTH is reached, its conditions hold and its array is done, or LENGTH
alone where a handler or a core fault forces it; a port once its stamped flits have left, and a receive controller once its bytes have
come. Messages carry P, the step and stretch, and ERR; those of an ensemble leave the package too.
(Where the rules leave it open: the model's readings, log entries 31 and 41.) -/
def Obligations.SignOffMessages : Prop :=
  ∀ (s : State) (gi : Nat) (r : PhRec),
    let g := getGang s gi
    let ends := g.s + (9 * r.length + ninths g.step - 1) / ninths g.step
    let travel := (if g.ens = true ∨ spans g.cores = true then 40 else 16) + (if g.ens then pathTicks s.chip 512 else 0)
    let sends (i : Instr) (left : List Nat) (m : SigMsg) : Prop := ∃ t, exec i s = .next t ∧ (getGang t gi).msgs = g.msgs ++ [m]
      ∧ (getGang t gi).awaited = g.awaited ∧ (getGang t gi).perr = left ∧ t.sys = s.sys
      ∧ t.outbox = (if g.ens then s.outbox ++ [.signoff m] else s.outbox) ∧ ∀ d, (t.core d).near = (s.core d).near ∧ (t.core d).main = (s.core d).main
    gi < s.gangs.length → runRec g = some r →
      (let c := s.ev.core
       let k := s.core c
       hasCore s c = true → k.ph.gang = some gi → k.ph.sigPend = true →
         (k.ph.phc < k.ph.length → exec .signoffMessage s = .next s) ∧
         (k.ph.sigReplay = false → k.ph.sigFail = false →
           (k.mx.evts ≠ [] ∨ k.mx.rows ≠ [] ∨ (∃ x ∈ k.ph.sigConds, counterValue s c x.1 < x.2) → exec .signoffMessage s = .next s)) ∧
         (k.ph.length ≤ k.ph.phc → k.ph.sigReplay = true ∨ k.ph.sigFail = true
             ∨ (k.mx.evts = [] ∧ k.mx.rows = [] ∧ ∀ x ∈ k.ph.sigConds, x.2 ≤ counterValue s c x.1) →
           sends .signoffMessage g.perr { who := 0, idx := c.num, p := if r.entry.getD k.ph.gpos 0 = 0 then none else some k.ph.sigP
                                          step := s.stepReq, cool := s.cool, err := decide (k.ph.sigErr &&& k.eng.err ≠ 0) || k.ph.sigFail
                                          replay := k.ph.sigReplay, due := s.now + travel } ∧
           ∀ t, exec .signoffMessage s = .next t → (t.core c).ph.sigPend = false)) ∧
      (let q := s.ev.j
       s.ev.i = gi → (1, q) ∈ g.awaited → (∀ m ∈ g.msgs, m.who = 1 → m.idx ≠ q) →
         (s.now < ends ∨ portLeft g q < portFlits r q → exec .portSignoff s = .next s) ∧
         (ends ≤ s.now → portFlits r q ≤ portLeft g q →
           sends .portSignoff (g.perr.filter (· ≠ q)) { who := 1, idx := q, p := none, step := s.stepReq, cool := s.cool
                                                        err := g.perr.contains q, replay := false
                                                        due := s.now + travel })) ∧
      (let c := s.ev.core
       let k := s.core c
       k.ph.gang = some gi → (2, c.num) ∈ g.awaited → (∀ m ∈ g.msgs, m.who = 2 → m.idx ≠ c.num) →
         (s.now < ends ∨ k.eng.inbound < (fabRun s c).2 → exec .receiveSignoff s = .next s) ∧
         (ends ≤ s.now → (fabRun s c).2 ≤ k.eng.inbound →
           sends .receiveSignoff g.perr { who := 2, idx := c.num, p := none, step := s.stepReq, cool := s.cool, err := k.eng.rxErr, replay := false
                                          due := s.now + travel }))

/-- 15:R296, R299, R309 to R311, R313, R319: the last message to arrive, the other chips' among them, forms the reduction. An
over-current ends the task with status 7, an error or a lost alignment with status 2, a replay repeats the phase three times at most, a
final record ends the task, and else the reductions select the successor, which starts D and the stretch later. A gang that stays in
slack posts a record at the bound and fails at 1000 times it.
(Where the rules leave it open: the model's readings, log entries 14, 18, 54, 55, 56 and 58.) -/
def Obligations.CloveDecides : Prop :=
  (∀ (s : State) (r : PhRec) (here : Bool × Nat),
    let gi := s.ev.i
    let g := getGang s gi
    let becomes (P : Gang → Prop) : Prop := ∃ t, exec .cloveArrival s = .next t ∧ P (getGang t gi) ∧ t.sys = s.sys ∧ ∀ d, t.core d = s.core d
    let reduces (l : List SigMsg) : Prop :=
      let bit (sel : Nat) : Nat := if (if sel < 8 then l.all (fun m => match m.p with | some p => p.getLsbD sel | none => true)
        else l.any (fun m => m.por.getLsbD (sel - 8) || match m.p with | some p => p.getLsbD (sel - 8) | none => false)) then 1 else 0
      let n := r.succ.getD (2 * bit r.sel1 + bit r.sel0) (0, false)
      let start := s.now + g.d + 1024 * l.foldl (fun a m => max a m.cool) 0
      let chosen (x : Bool × Nat) (again : Nat) (q : Gang) : Prop := q.nextRec = some x ∧ q.nextMin = start ∧ q.replays = again
        ∧ q.agreed = l.foldl (fun a m => max a m.step) 0 ∧ q.ending = none
        ∧ q.nextAt = if x.2 < ((if x.1 then g.bufB else g.bufA).getD []).length then some start else none
      let ends (st : Nat) : Prop := becomes (fun q => ∃ d, q.ending = some (st, d))
      let unaligned := g.ens = true ∧ s.alignLost = true
      (l.any (·.thermal) = true → becomes (fun q => q.ending = some (7, 0))) ∧
      (l.any (·.thermal) = false → unaligned → ends 2) ∧
      (l.any (·.thermal) = false → ¬ unaligned →
        let failed := l.any (·.err)
        let again := l.any (·.replay)
        (failed = true → ends 2) ∧
        (failed = false → again = true → r.repl = true → g.replays < 3 → becomes (chosen here (g.replays + 1))) ∧
        (failed = false → again = true → r.repl = false ∨ 3 ≤ g.replays → ends 2) ∧
        (failed = false → again = false → r.fin = true → becomes (fun q => q.ending = some (0, 0))) ∧
        (failed = false → again = false → r.fin = false → becomes (chosen (n.2, n.1) 0)))
    gi < s.gangs.length →
      (∀ m, s.ev.bytes = [] → g.msgs[s.ev.j]? = some m →
        (s.now < m.due ∨ (m.who, m.idx) ∉ g.awaited → exec .cloveArrival s = .next s) ∧
        (m.due ≤ s.now → (m.who, m.idx) ∈ g.awaited → (∃ x ∈ g.awaited, x ≠ (m.who, m.idx)) →
          becomes (fun q => q = { g with awaited := g.awaited.filter (· ≠ (m.who, m.idx)) })) ∧
        (m.due ≤ s.now → g.awaited = [(m.who, m.idx)] → runRec g = some r → g.cur = some here → g.ending = none →
          r.sel0 < 16 → r.sel1 < 16 → reduces g.msgs)) ∧
      (s.ev.bytes ≠ [] → let f (n : Nat) : Nat := fieldAt s.ev.bytes n 1
        let m : SigMsg := { who := 3, idx := 0, p := if f 0 = 0 then none else some (BitVec.ofNat 8 (f 1)), step := f 3, cool := f 4
                            err := decide (f 5 ≠ 0), replay := decide (f 6 ≠ 0), due := s.now
                            por := if f 0 = 0 then 0 else BitVec.ofNat 8 (f 2), thermal := decide (f 7 ≠ 0) }
        (g.live = false ∨ (3, 0) ∉ g.awaited → exec .cloveArrival s = .next s) ∧
        (g.live = true → (3, 0) ∈ g.awaited → (∃ x ∈ g.awaited, x ≠ (3, 0)) →
          becomes (fun q => q = { g with msgs := g.msgs ++ [m], awaited := g.awaited.filter (· ≠ (3, 0)) })) ∧
        (g.live = true → g.awaited = [(3, 0)] → runRec g = some r → g.cur = some here → g.ending = none →
          r.sel0 < 16 → r.sel1 < 16 → reduces (g.msgs ++ [m])))) ∧
  (∀ (s : State) (r : PhRec),
    let gi := s.ev.i
    let g := getGang s gi
    let q := getPart s g.part
    let ends := g.s + (9 * r.length + ninths g.step - 1) / ninths g.step
    let late := g.live = true ∧ g.ending = none ∧ (g.arrived = false ∨ gangWaits g = true ∨ g.saving = true)
    let posts (i : Instr) (status detail : Nat) (P : Gang → Prop) : Prop := ∃ t, exec i s = .next t ∧ P (getGang t gi) ∧ t.sys = s.sys
      ∧ getPart t g.part = { q with evNew := q.evNew ++
          [mkRecord 8 status g.part 0 (recSource s ⟨false, g.cores.headD 0⟩) g.taskid g.lastPh (g.s - s.dccBase) detail] }
      ∧ ∀ d, t.core d = s.core d
    let full (i : Instr) : Prop := ∃ t, exec i s = .next t ∧ getPart t g.part = { q with evFull := true } ∧ t.gangs = s.gangs
    runRec g = some r → gi < s.gangs.length → g.part < s.parts.length →
      (¬ late → exec .slackOverrun s = .next s ∧ exec .slackHardLimit s = .next s) ∧
      (s.now < ends + r.slack → exec .slackOverrun s = .next s) ∧ (s.now < ends + 1000 * r.slack → exec .slackHardLimit s = .next s) ∧
      (late → evRoom s g.part 1 = true →
        (g.slackPosted = false → ends + r.slack ≤ s.now → posts .slackOverrun 0 1 (fun x => x = { g with slackPosted := true })) ∧
        (ends + 1000 * r.slack ≤ s.now → posts .slackHardLimit 5 2 (fun x => x.ending = some (5, 0)))) ∧
      (late → evRoom s g.part 1 = false →
        (g.slackPosted = false → ends + r.slack ≤ s.now → full .slackOverrun) ∧
        (ends + 1000 * r.slack ≤ s.now → full .slackHardLimit)))

/-! ### Instructions that stall until an engine has done its work -/

/-- 13:R270, 15:R302, 18:R366, 19:R398, R400, 20:R406, R410: MCODE, PHLOAD, LAUNCH, SAVECTX, RESTCTX, REPAIR and HOSTIRQ stall their
context with the operands they read; PHLOAD and SAVECTX trap in a phase, RESTCTX on a vector-matrix core; a refused SAVECTX returns its
status at once.
(Where the rules leave it open: the model's readings, log entries 38, 48, 49, 50 and 67.) -/
def Obligations.StallingInstructionsIssue : Prop :=
  ∀ (s : State) (d : BitVec 5) (a b : BitVec 6) (g : BitVec 3) (n : BitVec 1), Executes s g n →
    let c := s.cur.core
    let stalled (srcs : List (BitVec 6)) (st : Stall) : Core :=
      (coreSending s srcs [] 0).updCtx (fun x => { x with stall := some { st with since := s.now, serial := s.serial } })
    let stalls (i : Instr) (srcs : List (BitVec 6)) (st : Stall) : Prop := ∃ t, exec i s = .next t ∧ OnlyCore s t (stalled srcs st)
    let two (kind : StallKind) (k : Nat) : Stall := { kind := kind, a := srcS s a, b := srcS s b, dst := dstS s d.toNat, k := k }
    let det : Nat := if (cx s).fmt.getLsbD 19 then 1 else 0
    let r := saveCheck s c (srcS s a) (srcS s b)
    stalls (.mcode d a b g n) [a, b] (two .mcode s.serial) ∧
    stalls (.repair d a b g n) [a, b] (two .repair s.serial) ∧
    stalls (.launch d a b g n) [a, b] (two .launch det) ∧
    stalls (.hostirq a g n) [a] { kind := .hostirq, a := srcS s a } ∧
    (isCC s = true → stalls (.restctx d a b g n) [a, b] (two .restctx det)) ∧
    (isCC s = false → exec (.restctx d a b g n) s = .next (issueFail s 0x06 0)) ∧
    (isCC s = false → inPhase s = true →
      exec (.phload d a b g n) s = .next (issueFail s 0x01 0) ∧ exec (.savectx d a b g n) s = .next (issueFail s 0x01 0)) ∧
    (isCC s = true ∨ inPhase s = false →
      stalls (.phload d a b g n) [a, b] (two .phload (phloadEarly s c (srcS s a) (srcS s b))) ∧
      (r.1 ≠ 0 → Sends s (.savectx d a b g n) [a, b] (wordResult s 1 d (BitVec.ofNat 64 r.1))) ∧
      (r.1 = 0 → r.2 < s.gangs.length → ∃ t, exec (.savectx d a b g n) s = .next t
        ∧ t.core c = (if isCC s then stalled [a, b] (two .savectx r.2) else coreSending s [a, b] [wordResult s 1 d 0] 0)
        ∧ getGang t r.2 = { getGang s r.2 with
            save := some ((srcS s a).toNat, (srcS s b).getLsbD 0, if isCC s then some c.num else none) }
        ∧ t.sys = s.sys ∧ (∀ d, d ≠ c → t.core d = s.core d)))

/-- 13:R270, R271, 15:R302 to R304: PHLOAD and MCODE complete with the status of the first check that fails, and change nothing then;
else the buffer is replaced, and a routine reaches a target's store once the target is outside phases. PHLOADs of a core complete in
the order of issue, also those whose stall a phase start has ended (15:R304, R312). The context's next bundle may issue in the following
cycle.
(Where the rules leave it open: the model's readings, log entries 30, 48, 49, 50, 51 and 52.) -/
def Obligations.TablesAndRoutinesLoad : Prop :=
  (∀ (s : State) (c : CoreRef) (st : Stall), Stalled s c .phload st →
    let k := s.core c
    let ends (v : W64) : Prop := CoreEvent s .phloadDone c (stallEnded k st v)
    let e := if st.k ≠ 0 then st.k else phloadEarly s c st.a st.b
    let first := k.loads = [] ∧ (k.tp.active = true → ∀ m, k.main.stall = some m → m.kind ≠ .phload)
    (¬ first → exec .phloadDone s = .next s) ∧
    (first → SysQuiet s →
      (e ≠ 0 → ends (BitVec.ofNat 64 e)) ∧
      (∀ i, e = 0 → gangByHandle s c (st.b.toNat / 2 ^ 16 % 2 ^ 16) = some i →
        let q := getGang s i
        let p := partOf s c
        let hi := st.b.getLsbD 0
        let t := loadTable s p q.cores.length (s.core ⟨false, q.cores.headD 0⟩).codelen hi st.a.toNat (st.b.toNat / 2 % 256 + 1)
        let other := (if hi then q.bufA else q.bufB).getD []
        let excess := powerOf s p < bufCharge t.val ∨ powerOf s p < otherResv s p (some i) + max (bufCharge t.val) (bufCharge other)
        (t.errs ≠ [] → (∀ x ∈ t.errs, x ≠ 0) → ¬ excess → ∃ v ∈ t.errs, (∀ x ∈ t.errs, v ≤ x) ∧ ends (BitVec.ofNat 64 v)) ∧
        (excess → t.errs = [] → ends 5) ∧
        (t.errs = [] → ¬ excess → i < s.gangs.length → ∃ u, exec .phloadDone s = .next u ∧ u.core c = stallEnded k st 0
          ∧ (if hi then (getGang u i).bufB = some t.val ∧ (getGang u i).bufA = q.bufA
              else (getGang u i).bufA = some t.val ∧ (getGang u i).bufB = q.bufB)
          ∧ (getGang u i).resv = max (bufCharge t.val) (bufCharge other) ∧ u.sys = s.sys ∧ ∀ d, d ≠ c → u.core d = s.core d)))) ∧
  (∀ (s : State) (st : Stall) (l : List Stall),
    let c := s.ev.core
    let k := s.core c
    let e := if st.k ≠ 0 then st.k else phloadEarly s c st.a st.b
    let p (due : Nat) : Pend := { serial := st.serial, slot := 0, due := due, dst := st.dst, val := .w (BitVec.ofNat 64 e), latch := some 0
                                  ten := fmtTen k.main.fmt }
    hasCore s c = true → s.ev.j = 2 → k.loads = st :: l → e ≠ 0 → CoreEvent s .phloadDone c (
      if st.dst = .none then { k with loads := l }
      else if k.tp.active then { k with loads := l, tp := { k.tp with shadow := k.tp.shadow ++ [p 1] } }
      else { k with loads := l, main := { k.main with pends := k.main.pends ++ [p (k.clk.arch + 1)] } })) ∧
  (∀ (s : State) (c : CoreRef) (st : Stall), Stalled s c .mcode st →
    let k := s.core c
    let u := k.tp.active
    let ends (v : W64) : Prop := CoreEvent s .mcodeDone c (stallEnded k st v)
    let mine (l : List MJob) : List MJob := l.filter (fun j => j.urg = u)
    (mine k.ctl.mcode = [] → SysQuiet s →
      (st.a.toNat % 64 ≠ 0 ∨ st.b.toNat / 2 ^ 25 % 8 ≠ 0 ∨ 2 ^ 40 ≤ st.b.toNat → ends 1) ∧
      (∀ v, mcodeCheck s (partOf s c) st.a st.b = .inl v → ends (BitVec.ofNat 64 v)) ∧
      (∀ img l, mcodeCheck s (partOf s c) st.a st.b = .inr (img, l) →
        CoreEvent s .mcodeDone c { k with ctl := { k.ctl with mcode := k.ctl.mcode ++ [⟨u, img, l⟩] } })) ∧
    (∀ j, mine k.ctl.mcode = [j] →
      (j.left ≠ [] → exec .mcodeDone s = .next s) ∧
      (j.left = [] → CoreEvent s .mcodeDone c (stallEnded { k with ctl := { k.ctl with mcode := k.ctl.mcode.filter (fun j => j.urg ≠ u) } }
        st 0)) ∧
      (let t : CoreRef := ⟨false, s.ev.i⟩
       (s.ev.i ∉ j.left ∨ (s.core t).timed = true → exec .mcodeTargetLoad s = .next s) ∧
       (s.ev.i ∈ j.left → (s.core t).timed = false → c.cc = true → hasCore s t = true → ∃ w, exec .mcodeTargetLoad s = .next w
         ∧ w.core t = { s.core t with mx := loadRoutine (s.core t).mx (st.b.toNat / 2 ^ 16 % 512) (st.b.toNat / 2 ^ 28 % 4096) j.img }
         ∧ w.core c = { k with ctl := { k.ctl with mcode := k.ctl.mcode.map (fun y =>
             if y.urg = u then { y with left := y.left.filter (· ≠ s.ev.i) } else y) } }
         ∧ (∀ d, d ≠ c → d ≠ t → w.core d = s.core d) ∧ w.sys = s.sys))) ∧
    (∀ (m : Matrix) (i start j : Nat) (img : List W96), j < img.length →
      (i, start, img.length - 1) ∈ (loadRoutine m i start img).udir ∧
      ((loadRoutine m i start img).ucode.find? (fun x => x.1 = start + j)) = some (start + j, img.getD j 0)))

/-! ### Tasks -/

/-- 18:R366 to R369, 19:R400: LAUNCH and RESTCTX wait for the control core's earlier accesses, and return the status of the first check
that fails, or the task's identifier; an accepted launch joins the queue, takes its identifiers, and a number of its counter where it
names one. An indirect count is read when it is due; a launch that it leaves without tasks posts one record and is gone.
(Where the rules leave it open: the model's readings, log entries 48 and 65.) -/
def Obligations.LaunchesAreAccepted : Prop :=
  (∀ (s : State) (c : CoreRef) (st : Stall),
    let k := s.core c
    let p := partOf s c
    let q := getPart s p
    let status (i : Instr) (e : Nat) : Prop := CoreEvent s i c (stallEnded k st (BitVec.ofNat 64 (e * 2 ^ 56)))
    let accepted (i : Instr) (n : Nat) (l : Launch) : Prop := ∃ t, exec i s = .next t
      ∧ t.launches = s.launches ++ [{ l with
          id := s.launchId, task0 := q.nextTask
          num := if st.b.getLsbD 4 then some (st.b.toNat % 16, (getTL k (st.b.toNat % 16)).next + 1) else none }]
      ∧ (getPart t p).nextTask = (q.nextTask - 1 + n) % (2 ^ 32 - 1) + 1 ∧ t.launchId = s.launchId + 1
      ∧ t.core c = stallEnded (if st.b.getLsbD 4 then
          setTL k (st.b.toNat % 16) { getTL k (st.b.toNat % 16) with next := (getTL k (st.b.toNat % 16)).next + 1 } else k)
          st (BitVec.ofNat 64 q.nextTask)
      ∧ t.sys = s.sys ∧ t.gangs = s.gangs ∧ ∀ d, d ≠ c → t.core d = s.core d
    (Stalled s c .launch st →
      (coreDrained k c = false → exec .launchDone s = .next s) ∧
      (coreDrained k c = true →
        (32 ≤ st.b.toNat ∨ st.a.toNat % 64 ≠ 0 → status .launchDone 1) ∧
        (st.b.toNat < 32 → st.a.toNat % 64 = 0 → SysQuiet s →
          ((∀ bs, vread s p st.a.toNat 128 ≠ .bytes bs) → status .launchDone 2) ∧
          (∀ bs, vread s p st.a.toNat 128 = .bytes bs →
            let ind := recFlag bs 3
            let e := placeStatus s p (fieldAt bs 3 1 % 128 + 1) (fieldAt bs 24 8 ≠ 0) (recFlag bs 5) (if ind then 1 else fieldAt bs 4 4)
            (badTask bs = true → status .launchDone 1) ∧
            (badTask bs = false → e ≠ 0 → status .launchDone e) ∧
            (badTask bs = false → e = 0 → p < s.parts.length →
              accepted .launchDone (if ind then 65536 else fieldAt bs 4 4)
                { id := 0, part := p, rcd := bs, prio := fieldAt bs 2 1 % 4, det := recFlag bs 2 || st.k = 1, num := none, task0 := 0
                  g := if ind then none else some (fieldAt bs 4 4), left := if ind then 0 else fieldAt bs 4 4 }))))) ∧
    (Stalled s c .restctx st →
      (coreDrained k c = false → exec .restctxDone s = .next s) ∧
      (coreDrained k c = true →
        (256 ≤ st.b.toNat ∨ st.a.toNat % 4096 ≠ 0 → status .restctxDone 1) ∧
        (st.b.toNat < 256 → st.a.toNat % 4096 = 0 → SysQuiet s →
          ((∀ bs, vread s p st.a.toNat 64 ≠ .bytes bs) → status .restctxDone 2) ∧
          (∀ bs, vread s p st.a.toNat 64 = .bytes bs →
            let e := placeStatus s p (fieldAt bs 2 1 % 128 + 1) true false 1
            (fieldAt bs 0 1 ≠ 1 ∨ bitOf (fieldAt bs 1 1) 1 = false → status .restctxDone 1) ∧
            (fieldAt bs 0 1 = 1 → bitOf (fieldAt bs 1 1) 1 = true → e ≠ 0 → status .restctxDone e) ∧
            (fieldAt bs 0 1 = 1 → bitOf (fieldAt bs 1 1) 1 = true → e = 0 → p < s.parts.length →
              accepted .restctxDone 1
                { id := 0, part := p, rcd := [], prio := st.b.toNat / 32 % 4, det := st.b.getLsbD 7 || st.k = 1, num := none, task0 := 0
                  g := some 1, left := 1, area := some st.a.toNat, hdr := bs })))))) ∧
  (∀ (s : State) (l : Launch), s.launches[s.ev.i]? = some l →
    (countReady s l = false → exec .indirectCountRead s = .next s) ∧
    (countReady s l = true → SysQuiet s →
      let va := fieldAt l.rcd 48 8
      let q := getPart s l.part
      let n := l.num.getD (0, 0)
      let empty (st d : Nat) : Prop :=
        (evRoom s l.part (1 + launchFires s { l with left := 1 }) = true → l.part < s.parts.length →
          ∃ t, exec .indirectCountRead s = .next t ∧ t.launches = s.launches.filter (fun x => x.id ≠ l.id) ∧ t.sys = s.sys
            ∧ q.evNew ++ [mkRecord 4 st l.part n.1 (recSource s ⟨true, l.part⟩) l.task0 0xFFFFFFFF n.2 d] <+: (getPart t l.part).evNew) ∧
        (evRoom s l.part (1 + launchFires s { l with left := 1 }) = false → exec .indirectCountRead s = .next (evSetFull s l.part))
      ((∃ c a, vread s l.part va 4 = .fault c a) → empty 2 0) ∧
      ((∃ a, vread s l.part va 4 = .poison a) → empty 1 0) ∧
      (∀ bs, vread s l.part va 4 = .bytes bs →
        (leNat bs = 0 → empty 0 0) ∧
        (leNat bs ≠ 0 → tidClash s l.part l.task0 (leNat bs) (some l.id) = true → empty 2 (4 * 2 ^ 16)) ∧
        (leNat bs ≠ 0 → tidClash s l.part l.task0 (leNat bs) (some l.id) = false →
          exec .indirectCountRead s = .next { s with
            launches := s.launches.map (fun x => if x.id = l.id then { x with g := some (leNat bs), left := leNat bs } else x) }))))

/-- 18:R363, R365, R370 to R373, R375, R378: the head task is placed on free cores of its partition when it fits, which are reset and given
its code and launch block; else it waits, and after 64 microseconds nothing overtakes it. A task's cores start together at its entry; a
task of an ensemble starts at the time that its partners' admissions give, or fails where one is missing.
(Where the rules leave it open: the model's readings, log entries 53, 61, 62 and 64.) -/
def Obligations.TasksArePlacedAndStart : Prop :=
  (∀ (s : State) (l : Launch) (rest : List Launch) (cores : List Nat),
    let tid := (l.task0 - 1 + l.nextIx) % (2 ^ 32 - 1) + 1
    let gi := s.gangs.length
    dissolving s s.ev.i = false → queueOf s s.ev.i = l :: rest →
      (l.g = none → l.det = true ∨ l.noBackfill = true ∨ rest = [] → exec .taskAdmission s = .next s) ∧
      (l.g ≠ none → decideTask s l = .wait → l.det = true ∨ l.noBackfill = true ∨ rest = [] →
        exec .taskAdmission s = .next { s with
          launches := s.launches.map (fun x => if x.id = l.id then { x with waitSince := some (x.waitSince.getD s.now) } else x) }) ∧
      (∀ st b, l.g ≠ none → decideTask s l = .fail st b → SysQuiet s → l.part < s.parts.length →
        let n := l.num.getD (0, 0)
        (evRoom s l.part (1 + launchFires s l) = true → ∃ t, exec .taskAdmission s = .next t ∧ t.sys = s.sys ∧ t.gangs = s.gangs
          ∧ (getPart s l.part).evNew ++ [mkRecord 4 st l.part n.1 (recSource s ⟨true, l.part⟩) tid l.index n.2 (b * 2 ^ 16)]
              <+: (getPart t l.part).evNew) ∧
        (evRoom s l.part (1 + launchFires s l) = false → exec .taskAdmission s = .next (evSetFull s l.part))) ∧
      (l.g ≠ none → decideTask s l = .place cores → SysQuiet s →
        (∀ n ∈ cores, n < s.vms.length ∧ (s.core ⟨false, n⟩).part = some l.part ∧ (s.core ⟨false, n⟩).ph.gang = none) ∧
        (l.area = none → cores.Nodup → ∃ t, exec .taskAdmission s = .next t ∧ t.sys = s.sys ∧ t.gangs.length = gi + 1
          ∧ (∀ j < gi, getGang t j = getGang s j) ∧ (getGang t gi).live = true ∧ (getGang t gi).running = false
          ∧ (getGang t gi).taskid = tid ∧ (getGang t gi).index = l.nextIx ∧ (getGang t gi).cores = cores ∧ (getGang t gi).part = l.part
          ∧ (getGang t gi).ending = none ∧ (getGang t gi).cur = none
          ∧ (∀ d, (∀ n ∈ cores, d ≠ ⟨false, n⟩) → t.core d = s.core d)
          ∧ ∀ (j n : Nat), cores[j]? = some n →
            let k := s.core ⟨false, n⟩
            let k' := t.core ⟨false, n⟩
            WritesOnly k.near.mem k'.near.mem 0x7FFFC0 (natBytes 4 tid ++ natBytes 4 l.nextIx ++ natBytes 4 (l.g.getD 1) ++ natBytes 1 j
              ++ natBytes 1 (fieldAt l.rcd 3 1 % 128) ++ natBytes 2 0 ++ natBytes 8 (fieldAt l.rcd 56 8) ++ natBytes 8 (fieldAt l.rcd 64 8)
              ++ natBytes 32 0)
            ∧ k'.main = {} ∧ k'.urg = {} ∧ k'.tr = {} ∧ k'.tp = {} ∧ k'.run = .stopped ∧ k'.ph.gang = some gi ∧ k'.ph.gpos = j
            ∧ k'.ph.prof = fieldAt l.rcd 1 1 % 4 ∧ k'.part = k.part))) ∧
  (∀ s : State, s.ev.bytes ≠ [] → exec .taskStart s = .next { s with notices := s.notices ++
    [(s.ev.i, s.ev.j, fieldAt s.ev.bytes 0 4, fieldAt s.ev.bytes 4 4, s.ev.v.toNat + s.dccBase)] }) ∧
  (∀ (s : State) (g : Gang) (l : Launch), let gi := s.ev.i
    let apart := g.ens = true ∧ ∀ u, ensembleStart s g l = some u → s.now < u
    getGang s gi = g → gi < s.gangs.length → getLaunch s g.launch = some l →
    (s.ev.bytes = [] → g.live = false ∨ g.running = true ∨ g.ending ≠ none ∨ apart → exec .taskStart s = .next s) ∧
    (s.ev.bytes = [] → g.live = true → g.running = false → g.ending = none → ¬ apart → l.area ≠ none → g.cores.Nodup →
      (∀ n ∈ g.cores, n < s.vms.length) → ∃ t, exec .taskStart s = .next t ∧ t.sys = s.sys
      ∧ (getGang t gi).running = true ∧ (getGang t gi).startT = s.now ∧ (getGang t gi).restored = true
      ∧ (getGang t gi).nextRec = some (bitOf (fieldAt l.hdr 3 1) 0, fieldAt l.hdr 4 1) ∧ (getGang t gi).nextMin = s.now + g.d
      ∧ ∀ n ∈ g.cores, (t.core ⟨false, n⟩).clk.cyc = 0 ∧ (t.core ⟨false, n⟩).run = (s.core ⟨false, n⟩).run
        ∧ (t.core ⟨false, n⟩).main = (s.core ⟨false, n⟩).main) ∧
    (s.ev.bytes = [] → g.live = true → g.running = false → g.ending = none → ¬ apart → l.area = none → g.cores.Nodup →
      (∀ n ∈ g.cores, n < s.vms.length) → ∃ t, exec .taskStart s = .next t ∧ t.sys = s.sys
      ∧ (getGang t gi).running = true ∧ (getGang t gi).startT = s.now
      ∧ (getGang t gi).nextAt = (if fieldAt l.rcd 24 8 ≠ 0 then some (s.now + max (fieldAt l.rcd 72 4) g.d) else none)
      ∧ (getGang t gi).nextRec = (if fieldAt l.rcd 24 8 ≠ 0 then some (false, 0) else none)
      ∧ ∀ n ∈ g.cores, (t.core ⟨false, n⟩).run = .running ∧ (t.core ⟨false, n⟩).main.pc = BitVec.ofNat 64 (fieldAt l.rcd 12 4)
        ∧ (t.core ⟨false, n⟩).main.next = 0 ∧ (t.core ⟨false, n⟩).clk.cyc = 0 ∧ (t.core ⟨false, n⟩).clk.due = true
        ∧ (t.core ⟨false, n⟩).near = { (s.core ⟨false, n⟩).near with used := 0 }
        ∧ (t.core ⟨false, n⟩).main.s = (s.core ⟨false, n⟩).main.s) ∧
    (g.live = true → g.ens = true → g.running = false → g.ending = none → ensembleFails s g l = true →
      ∃ t, exec .ensemblePartnerTimeout s = .next t ∧ (getGang t gi) = { g with ending := some (2, 0) } ∧ t.sys = s.sys
        ∧ ∀ d, t.core d = s.core d) ∧
    (g.ens = false ∨ g.running = true ∨ ensembleFails s g l = false → exec .ensemblePartnerTimeout s = .next s)) ∧
  (∀ (s : State) (l : Launch), s.launches[s.ev.i]? = some l →
    (∀ t, l.waitSince = some t → t + 172800 ≤ s.now → exec .backfillCutoff s = .next { s with
      launches := s.launches.map (fun x => if x.id = l.id then { x with noBackfill := true } else x) }) ∧
    (l.waitSince = none ∨ (∃ t, l.waitSince = some t ∧ s.now < t + 172800) → exec .backfillCutoff s = .next s))

/-- 18:R372, 19:R398, R401: an ending task first stops its cores, then, once its work is settled, closes its windows, and then posts its
record and releases its cores; one without phases ends when every core has halted. A save that is ready writes the area and ends the
task with status 6.
(Where the rules leave it open: the model's readings, log entries 46, 66 and 67.) -/
def Obligations.TasksEnd : Prop :=
  ∀ (s : State) (g : Gang),
    let gi := s.ev.i
    let ref (n : Nat) : CoreRef := ⟨false, n⟩
    getGang s gi = g → gi < s.gangs.length → g.cores.Nodup → (∀ n ∈ g.cores, n < s.vms.length) →
      (g.live = false → exec .taskEnd s = .next s) ∧
      (g.live = true → g.ending = none →
        (∃ n ∈ g.cores, (s.core (ref n)).run ≠ .halted ∨ (s.core (ref n)).main.pends ≠ []) ∨ g.bufA ≠ none → exec .taskEnd s = .next s) ∧
      (g.live = true → g.save = none →
        (∃ e, g.ending = some e ∧ g.stage = 0) ∨ (g.ending = none ∧ g.running = true ∧ g.bufA = none ∧ ∀ n ∈ g.cores,
          (s.core (ref n)).run = .halted ∧ (s.core (ref n)).main.pends = [] ∧ (s.core (ref n)).tp.active = false
            ∧ (s.core (ref n)).tp.shadow = []) →
        ∃ t, exec .taskEnd s = .next t ∧ (getGang t gi).stage = 1 ∧ (getGang t gi).ending = some (g.ending.getD (0, 0)) ∧ t.sys = s.sys
          ∧ (∀ n ∈ g.cores, let k := s.core (ref n)
            (t.core (ref n)).run = .stopped ∧ (t.core (ref n)).main.stall = none
            ∧ (t.core (ref n)).main.pends = (if (g.ending.getD (0, 0)).1 = 7 then [] else k.main.pends ++
                (if k.tp.active then k.tp.shadow.map (fun p => { p with due := k.clk.arch + p.due }) else k.tp.shadow))
            ∧ (t.core (ref n)).main.q = List.replicate 4 none ∧ (t.core (ref n)).tp.active = false
            ∧ (t.core (ref n)).near.mem = (s.core (ref n)).near.mem)
          ∧ ∀ d, (∀ n ∈ g.cores, d ≠ ref n) → t.core d = s.core d) ∧
      (∀ st x, g.live = true → g.ending = some (st, x) → (∀ n ∈ g.cores, anyStopped (s.core (ref n)) = false) →
        (g.stage = 1 → gangQuiet s g = false → exec .taskEnd s = .next s) ∧
        (g.stage = 1 → gangQuiet s g = true → (st, x) ≠ (6, 0xFF) → ∃ t, exec .taskEnd s = .next t ∧ (getGang t gi).stage = 2
          ∧ t.sys = s.sys ∧ ∀ n ∈ g.cores, (t.core (ref n)).near = (s.core (ref n)).near
            ∧ (t.core (ref n)).eng.wins = (s.core (ref n)).eng.wins.map (fun w =>
                if w.opn then { w with ops := w.ops ++ [{ num := 0, kind := .close }] } else w)) ∧
        (g.stage = 1 → gangQuiet s g = true → (st, x) = (6, 0xFF) → ∃ t, exec .taskEnd s = .next t ∧ (getGang t gi).stage = 2
          ∧ t.sys = s.sys ∧ ∀ d, t.core d = s.core d) ∧
        (2 ≤ g.stage → (∃ n ∈ g.cores, ∃ w ∈ (s.core (ref n)).eng.wins, w.ops ≠ []) → exec .taskEnd s = .next s) ∧
        (∀ l, let q := getPart s l.part
          2 ≤ g.stage → (∀ n ∈ g.cores, ∀ w ∈ (s.core (ref n)).eng.wins, w.ops = []) → getLaunch s g.launch = some l →
          l.part < s.parts.length →
          (evRoom s l.part (1 + launchFires s l) = true → ∃ t, exec .taskEnd s = .next t ∧ (getGang t gi).live = false
            ∧ (getGang t gi).resv = 0 ∧ t.sys = s.sys
            ∧ (∀ n ∈ g.cores, (t.core (ref n)).run = .idle ∧ (t.core (ref n)).ph.gang = none
              ∧ (t.core (ref n)).near.mem = (s.core (ref n)).near.mem)
            ∧ q.evNew ++ [mkRecord 4 (if g.resolved then 2 else if st = 0 then g.worst else st) l.part (l.num.getD (0, 0)).1
                (recSource s ⟨true, l.part⟩) g.taskid g.index (l.num.getD (0, 0)).2
                (g.lastPh + (if g.lastBuf then 2 ^ 8 else 0) + x * 2 ^ 16)] <+: (getPart t l.part).evNew) ∧
          (evRoom s l.part (1 + launchFires s l) = false → exec .taskEnd s = .next (evSetFull s l.part)))) ∧
      (∀ a v w l r, g.save = some (a, v, w) → getLaunch s g.launch = some l → g.nextRec = some r →
        (saveReady s g = false ∨ g.ending ≠ none → exec .savePoint s = .next s) ∧
        (saveReady s g = true → g.ending = none →
          (vwritable s g.part a (areaSize v g.cores.length) = false → ∃ t, exec .savePoint s = .next t
            ∧ t.sys = (if vwritable s g.part a 64 then
                (vput s g.part (a + 1) (natBytes 1 (fieldAt (vbytes s g.part a 64) 1 1 % 2))).sys else s.sys)
            ∧ (getGang t gi).save = none ∧ (getGang t gi).saving = false ∧ (getGang t gi).ending = none ∧ (getGang t gi).nextAt ≠ none) ∧
          (vwritable s g.part a (areaSize v g.cores.length) = true → ∃ t, exec .savePoint s = .next t
            ∧ (getGang t gi).ending = some (6, 0xFF) ∧ (getGang t gi).save = none
            ∧ ∀ n, (t.core (ref n)).near = (s.core (ref n)).near ∧ (t.core (ref n)).main = (s.core (ref n)).main)))

/-! ### Service and the host -/

/-- 18:R362, 20:R403 to R405, R408, 16:R340: what each mailbox command does when its arguments are sound, and the result that it ends with
where they are not; a command that fails changes nothing else. A finished command writes its result, and vector 0 is raised.
(Where the rules leave it open: the model's readings, log entries 9, 69, 70, 71, 72, 73, 74, 75 and 76.) -/
def Obligations.ServiceCommands : Prop :=
  (∀ (s : State), let v := s.svc
    let p := v.part.toNat
    let q := getPart s p
    let cc : CoreRef := ⟨true, p⟩
    let runs (code : Nat) : Prop := v.busy = true ∧ v.code.toNat = code ∧ v.done = none
    let ended (t : State) (r : W8) : State := { t with svc := { t.svc with done := some r } }
    let ends (i : Instr) (r : W8) : Prop := exec i s = .next (ended s r)
    (runs 1 →
      let bs := memRead s.sys v.arg0.toNat 64
      let d := descPart bs
      let others := s.parts.filter (·.formed)
      let clash := v.ucodeOk = false ∨ ∃ o ∈ others, o.cores &&& d.cores ≠ 0 ∨ o.stores &&& d.stores ≠ 0 ∨ o.ports &&& d.ports ≠ 0
      let power := others.foldl (fun a o => a + o.power) d.power
      (8 ≤ p → ends .form 1) ∧
      (p < 8 → q.formed = true → ends .form 4) ∧
      (p < 8 → q.formed = false → 2 ^ 39 < v.arg0.toNat + 64 → ends .form 1) ∧
      (p < 8 → q.formed = false → v.arg0.toNat + 64 ≤ 2 ^ 39 → SysClean s v.arg0.toNat 64 → badDesc bs = true → ends .form 1) ∧
      (p < 8 → q.formed = false → v.arg0.toNat + 64 ≤ 2 ^ 39 → SysClean s v.arg0.toNat 64 → badDesc bs = false →
        (clash → ends .form 2) ∧
        (¬ clash → 1600 < power → ends .form 3) ∧
        (¬ clash → power ≤ 1600 → s.parts.length = 8 → s.vms.length = 128 → s.ccs.length = 8 → ∃ t, exec .form s = .next t
          ∧ t.svc = { v with done := some 0 } ∧ t.sys = s.sys ∧ t.gangs = s.gangs ∧ getPart t p = d ∧ (∀ x, x ≠ p → getPart t x = getPart s x)
          ∧ (∀ n < 128, if d.cores.getLsbD n then (t.core ⟨false, n⟩).part = some p ∧ (t.core ⟨false, n⟩).near.mem = []
                ∧ (t.core ⟨false, n⟩).main = {} ∧ (t.core ⟨false, n⟩).mx.udir = [(0, 0, 0), (1, 0, 0), (2, 0, 0), (3, 0, 0), (4, 0, 0)]
              else t.core ⟨false, n⟩ = s.core ⟨false, n⟩)
          ∧ (t.core cc).run = .running ∧ (t.core cc).main.pc = d.dispatch ∧ (t.core cc).main.s = List.replicate 32 0
          ∧ (t.core cc).near.mem = (s.core cc).near.mem ∧ (t.core cc).clk.cyc = 0
          ∧ ∀ x, x ≠ p → t.core ⟨true, x⟩ = s.core ⟨true, x⟩))) ∧
    (runs 2 →
      (8 ≤ p ∨ q.formed = false → ends .dissolve 1) ∧
      (p < 8 → q.formed = true → (∃ i < s.gangs.length, (getGang s i).live = true ∧ (getGang s i).part = p) → ∃ t, exec .dissolve s = .next t
        ∧ (∀ i < s.gangs.length, getGang t i = if (getGang s i).live = true ∧ (getGang s i).part = p ∧ (getGang s i).ending = none
            then { getGang s i with ending := some (6, 0) } else getGang s i) ∧ t.sys = s.sys ∧ t.svc = v ∧ ∀ d, t.core d = s.core d) ∧
      (p < 8 → q.formed = true → (∀ i < s.gangs.length, (getGang s i).live = true → (getGang s i).part ≠ p) →
        (∀ l ∈ s.launches, l.part ≠ p) → ccQuiet (stopCc s p) p = false → evRoom (stopCc s p) p 1 = true →
        ∃ t, exec .dissolve s = .next t ∧ t.svc = v ∧ t.sys = s.sys ∧ (hasCore s cc = true → (t.core cc).run = .stopped)
          ∧ ∀ d, d ≠ cc → t.core d = s.core d) ∧
      (p < 8 → q.formed = true → (∀ i < s.gangs.length, (getGang s i).live = true → (getGang s i).part ≠ p) →
        (∀ l ∈ s.launches, l.part ≠ p) → ccQuiet (stopCc s p) p = true ∨ evRoom (stopCc s p) p 1 = false →
        ∃ t, exec .dissolve s = .next t ∧ getPart t p = {} ∧ t.sys = s.sys ∧ t.svc.done = some 0
        ∧ (∀ i, t.svc.allot.getD i 0 = if (v.allot.getD i 0).toNat = 128 + p then v.allot.getD i 0 &&& 0x7F else v.allot.getD i 0)
        ∧ (∀ n, (s.core ⟨false, n⟩).part = some p → (t.core ⟨false, n⟩).part = none) ∧ (∀ e ∈ t.tlbs, e.part ≠ p) ∧ ∀ w ∈ t.walks, w.part ≠ p)) ∧
    (let a := v.arg0.toNat
     let x := (a / 16 % 8, a % 16)
     let y := (a / 4096 % 8, a / 256 % 16)
     let usable (z : Nat × Nat) : Prop := (getPart s z.1).formed = true ∧ z.2 < (getPart s z.1).chans.length
     (runs 3 → usable x → usable y → x ≠ y → ∃ t, exec .opench s = .next t ∧ t.svc = { v with done := some 0 } ∧ t.sys = s.sys
       ∧ getChan t x.1 x.2 = { opn := true, prod := true, peer := some y } ∧ getChan t y.1 y.2 = { opn := true, cons := true, peer := some x }) ∧
     (runs 3 → (getPart s x.1).formed = false ∨ (getPart s y.1).formed = false ∨ x = y → ends .opench 1) ∧
     (runs 4 → (getChan s x.1 x.2).opn = true → (getChan s x.1 x.2).peer = some y → (getChan s x.1 x.2).prod = true → usable y →
       ∃ t, exec .closech s = .next t ∧ t.svc = { v with done := some 0 } ∧ t.sys = s.sys
         ∧ getChan t x.1 x.2 = { opn := false } ∧ getChan t y.1 y.2 = { opn := false }) ∧
     (runs 4 → (getChan s x.1 x.2).opn = false ∨ (getChan s x.1 x.2).peer ≠ some y ∨ (getChan s x.1 x.2).prod = false → ends .closech 1)) ∧
    (runs 5 →
      let a := v.arg1.toNat
      let g := v.arg0.toNat % 4096
      let n := (memGet s.sys a).toNat
      let es := (List.range n).map (fun i => leNat (memRead s.sys (a + 1 + 4 * i) 4))
      (8 ≤ p ∨ q.formed = false → ends .group 1) ∧
      (p < 8 → q.formed = true → a + 1 + 4 * n ≤ 2 ^ 39 → SysClean s a (1 + 4 * n) → 0 < n → n ≤ 64 → (∀ e ∈ es, e < 2 ^ 16) → es.Nodup →
        (∀ e ∈ es, e % 512 = s.chip → (s.core ⟨false, e / 512 % 128⟩).part = some p) →
        (∀ r, (getGroup s g).part = some r → r ≠ p → ends .group 2) ∧
        ((getGroup s g).part = none ∨ (getGroup s g).part = some p → ∃ t, exec .group s = .next t ∧ t.svc = { v with done := some 0 }
          ∧ getGroup t g = { part := some p, members := es.map (fun e => (e % 512, e / 512 % 128)) } ∧ t.sys = s.sys
          ∧ (∀ h, h ≠ g → getGroup t h = getGroup s h)
          ∧ ∀ e ∈ es, e % 512 = s.chip → { grp := g, applied := 0, gen := 0 } ∈ (t.core ⟨false, e / 512 % 128⟩).eng.members))) ∧
    (runs 6 →
      (8 ≤ p ∨ q.formed = false → ends .restart 1) ∧
      (p < 8 → q.formed = true → (s.core cc).run = .running → q.thermal = false → ends .restart 4) ∧
      (p < 8 → q.formed = true → (s.core cc).run ≠ .running ∨ q.thermal = true → hasCore s cc = true → ∃ t, exec .restart s = .next t
        ∧ t.svc = { v with done := some 0 } ∧ getPart t p = { q with thermal := false } ∧ t.sys = s.sys ∧ (t.core cc).run = .running
        ∧ (t.core cc).main.pc = q.dispatch ∧ (t.core cc).main.s = List.replicate 32 0 ∧ (t.core cc).near = (s.core cc).near
        ∧ (t.core cc).clk.cyc = 0 ∧ (t.core cc).tr = {} ∧ ∀ d, d ≠ cc → t.core d = s.core d)) ∧
    (runs 7 → exec .domain s = .next (ended { s with chip := v.arg0.toNat % 512, dccBase := s.now, domain := true, alignLost := false } 0)) ∧
    (runs 8 → let d := v.arg0.toNat % 2
      (8 ≤ p → ends .sparecc 1) ∧ (p < 8 → q.formed = true → ends .sparecc 4) ∧
      (p < 8 → q.formed = false → v.spareCc.getD d 0 = 0 → ends .sparecc 2) ∧
      (p < 8 → q.formed = false → v.spareCc.getD d 0 ≠ 0 → hasCore s cc = true → ∃ t, exec .sparecc s = .next t
        ∧ t.svc = { v with done := some 0, spareCc := v.spareCc.set d (v.spareCc.getD d 0 - 1), ccSpared := insNat p v.ccSpared }
        ∧ t.core cc = { spared := true } ∧ t.sys = s.sys ∧ ∀ x, x ≠ cc → t.core x = s.core x)) ∧
    (runs 9 → let bs := memRead s.sys v.arg0.toNat v.arg1.toNat
      (2 ^ 39 < v.arg0.toNat + v.arg1.toNat → ends .fwstage 1) ∧
      (v.arg0.toNat + v.arg1.toNat ≤ 2 ^ 39 → SysClean s v.arg0.toNat v.arg1.toNat →
        (s.ev.i < v.rollback ∨ Config.verifies bs = false → ends .fwstage 1) ∧
        (v.rollback ≤ s.ev.i → Config.verifies bs = true → exec .fwstage s = .next { s with svc :=
          if v.running then { v with slotA := s.ev.i, staged := some false, fresh := some false, done := some 0 }
          else { v with slotB := s.ev.i, staged := some true, fresh := some true, done := some 0 } }))) ∧
    (runs 10 →
      (v.staged = none → ends .fwact 1) ∧
      (∀ b, v.staged = some b → exec .fwact s = .next { s with svc := { v with running := b, staged := none, done := some 0 } }))) ∧
  (∀ (s : State), let v := s.svc
    (∀ r, v.done = some r → exec .serviceCommandComplete s = .next { s with
      svc := { v with busy := false, result := r, done := none }, outbox := s.outbox ++ [.vec0 s.now] }) ∧
    (v.done = none → exec .serviceCommandComplete s = .next s) ∧
    (v.busy = false ∨ v.done ≠ none →
      ∀ i ∈ [Instr.form, .dissolve, .opench, .closech, .group, .restart, .domain, .sparecc, .fwstage, .fwact], exec i s = .next s))

/-- 17:R361, 20:R402, R403, R406, R413 to R415: the host's register writes and accesses to partition memory; a write of CMD starts a
command only where none runs and the mailbox accepts one; an access that faults, or that meets poison, is recorded; a completion interrupt is sent at once or when its window expires, and held
while its vector is masked.
(Where the rules leave it open: the model's readings, log entries 44, 76, 78, 79 and 81.) -/
def Obligations.HostLink : Prop :=
  (∀ (s : State), let v := s.svc
    let w := s.ev.v
    let writes (i : Nat) (x : Service) : Prop := s.ev.i = i → exec .registerWrite s = .next { s with svc := x }
    writes 0x00 (if v.bootst.getLsbD 0 = false then v else if v.busy then { v with ovr := true }
      else { v with argc := w.extractLsb' 16 48, part := w.extractLsb' 8 8, code := w.extractLsb' 0 8, busy := true
                    done := if 1 ≤ w.toNat % 256 ∧ w.toNat % 256 ≤ 10 then none else some 1 }) ∧
    writes 0x08 { v with arg0 := w } ∧ writes 0x10 { v with arg1 := w } ∧
    writes 0x18 (if w.getLsbD 16 then { v with ovr := false } else v) ∧
    writes 0x3008 { v with elogr := w.extractLsb' 0 16 } ∧
    writes 0x3010 (if w.getLsbD 0 then { v with elogOvf := false } else v) ∧
    (s.ev.i ∉ [0x00, 0x08, 0x10, 0x18, 0x3008, 0x3010] → exec .registerWrite s = .next s) ∧
    exec .irqwinWrite s = .next { s with svc := { v with
      irqwin := v.irqwin.set s.ev.i (BitVec.ofNat 10 (max 1 (min 1000 (w.toNat % 1024)))) } } ∧
    (let old := v.allot.getD s.ev.i 0
     let new := w.extractLsb' 0 8 &&& 0x87
     let held := old.getLsbD 7 = true ∧ (getPart s (old.toNat % 8)).formed = true
     (held → new ≠ old → exec .allotWrite s = .next s) ∧
     (¬ held → exec .allotWrite s = .next { s with svc := { v with allot := v.allot.set s.ev.i new } }))) ∧
  (∀ (s : State) (pa e : Nat),
    let p := s.ev.i
    let va := s.ev.v.toNat
    let inside (n : Nat) : Prop := (getPart s p).formed = true ∧ 0 < n ∧ va % 64 + n ≤ 64 ∧ va + n ≤ 2 ^ 40
    let n := s.ev.bytes.length
    let ones := List.replicate s.ev.j (0xFF : W8)
    let noted (s : State) (status detail : Nat) : State := { s with parts := s.parts.set p { getPart s p with
      evNew := (getPart s p).evNew ++ [mkRecord 9 status p 0 (recSource s ⟨true, p⟩) 0 0 0 detail] } }
    ((getPart s p).formed = false ∨ 2 ^ 40 < va + n → exec .hostWrite s = .next s) ∧
    (inside n → xlateWalk s p va false true = .ok pa e → pa % 64 = va % 64 → SysClean s pa n →
      ∃ t, exec .hostWrite s = .next t ∧ WritesOnly s.sys t.sys pa s.ev.bytes ∧ t.svc = s.svc ∧ t.parts = s.parts ∧ t.vms = s.vms
        ∧ ∀ d, (t.core d).near = (s.core d).near ∧ (t.core d).main = (s.core d).main) ∧
    ((getPart s p).formed = false ∨ 2 ^ 40 < va + s.ev.j → exec .hostRead s = .next s) ∧
    (∀ code, inside n → xlateWalk s p va false true = .fault code → exec .hostWrite s = .next (noted s 2 (winDetail code 0 va))) ∧
    (inside s.ev.j → xlateWalk s p va true false = .ok pa e → xlateWalk s p (64 * (va / 64)) true false = .ok (64 * (pa / 64)) e →
        pa % 64 = va % 64 → SysQuiet s →
      (pa / 64 ∉ s.syspoison →
        exec .hostRead s = .next { s with outbox := s.outbox ++ [.readDone (memRead s.sys pa s.ev.j) false] }) ∧
      (pa / 64 ∈ s.syspoison →
        exec .hostRead s = .next { noted s 1 (64 * (va / 64)) with outbox := s.outbox ++ [.readDone ones true] })) ∧
    (∀ code, inside s.ev.j → xlateWalk s p va true false = .fault code →
      exec .hostRead s = .next { noted s 2 (winDetail code 0 va) with outbox := s.outbox ++ [.readDone ones false] })) ∧
  (∀ (s : State) (st : Stall),
    let c := s.ev.core
    let k := s.core c
    let i := 8 * c.num + st.a.toNat % 8
    let v := s.svc
    let fired (v : Service) (i : Nat) : State := { s with
      svc := { v with
        pend := v.pend.set i false, timer := v.timer.set i (some (s.now + (v.irqwin.getD i 1).toNat * 2700))
        pba := if v.masked.getD i false then v.pba.set i true else v.pba }
      outbox := if v.masked.getD i false then s.outbox else s.outbox ++ [.msix (i / 8 + 1) (i % 8) s.now] }
    (Stalled s c .hostirq st →
      (coreDrained k c = false → exec .hostirqRelease s = .next s) ∧
      (coreDrained k c = true → ∃ t, exec .hostirqRelease s = .next t
        ∧ t.core c = k.updCtx (fun x => { x with stall := none, next := max x.next (k.clk.arch + 1) })
        ∧ (∀ d, d ≠ c → t.core d = s.core d) ∧ t.sys = s.sys
        ∧ (v.timer.getD i none = none → t.svc = (fired v i).svc ∧ t.outbox = (fired v i).outbox)
        ∧ (v.timer.getD i none ≠ none → t.svc = { v with pend := v.pend.set i true } ∧ t.outbox = s.outbox))) ∧
    (let i := s.ev.i
     (v.timer.getD i none = none → exec .irqWindowExpiry s = .next s) ∧
     (∀ e, v.timer.getD i none = some e →
       (s.now < e → exec .irqWindowExpiry s = .next s) ∧
       (e ≤ s.now → v.pend.getD i false = false → exec .irqWindowExpiry s = .next { s with svc := { v with timer := v.timer.set i none } }) ∧
       (e ≤ s.now → v.pend.getD i false = true → exec .irqWindowExpiry s = .next (fired v i))) ∧
     (s.ev.j = 1 → exec .msixUnmask s = .next { s with svc := { v with masked := v.masked.set i true } }) ∧
     (s.ev.j ≠ 1 → i < v.masked.length → exec .msixUnmask s = .next { s with
       svc := { v with masked := v.masked.set i false, pba := v.pba.set i false }
       outbox := if v.pba.getD i false then s.outbox ++ [.msix (i / 8 + 1) (i % 8) s.now] else s.outbox })))

/-- 20:R410: a repair ends with the status of the first check that fails, or does what its kind says: a spare takes a core's number with a
zeroed vault, a bank or a lane is replaced, a page returns to service or is retired.
(Where the rules leave it open: the model's readings, log entries 48 and 80.) -/
def Obligations.Repairs : Prop :=
  ∀ (s : State) (c : CoreRef) (st : Stall), Stalled s c .repair st →
    let k := s.core c
    let p := partOf s c
    let a := st.a.toNat
    let b := st.b.toNat
    let v := s.svc
    let n := a / 2 ^ 8 % 2 ^ 7
    let m := s.core ⟨false, n⟩
    let page := b / 2 ^ 18
    let ends (v : W64) : Prop := CoreEvent s .repairDone c (stallEnded k st v)
    let does (P : State → Prop) : Prop := ∃ t, exec .repairDone s = .next t ∧ t.core c = stallEnded k st 0 ∧ t.sys = s.sys ∧ P t
    c.cc = true →
      (repairReserved a = true ∨ 4 < a % 16 → ends 1) ∧
      (repairReserved a = false → a % 16 = 0 →
        (m.part ≠ some p → ends 2) ∧ (m.part = some p → m.ph.gang ≠ none → ends 3) ∧
        (m.part = some p → m.ph.gang = none → v.spares.getD (n / 64) 0 = 0 → ends 4) ∧
        (m.part = some p → m.ph.gang = none → v.spares.getD (n / 64) 0 ≠ 0 →
          (s.ev.i = 1 → ends 5) ∧ (s.ev.i ≠ 1 → does (fun t => (t.core ⟨false, n⟩).part = some p ∧ (t.core ⟨false, n⟩).near.mem = []
            ∧ (t.core ⟨false, n⟩).spared = true ∧ t.svc = { v with spares := v.spares.set (n / 64) (v.spares.getD (n / 64) 0 - 1) })))) ∧
      (repairReserved a = false → a % 16 = 1 → m.part ≠ some p → ends 2) ∧
      (repairReserved a = false → a % 16 = 1 → m.part = some p → m.ph.gang ≠ none → ends 3) ∧
      (repairReserved a = false → a % 16 = 1 → m.part = some p → m.ph.gang = none →
        (m.near.spared.length < 4 → s.ev.i = 1 → ends 5) ∧
        (4 ≤ m.near.spared.length → ends 4) ∧
        (m.near.spared.length < 4 → s.ev.i ≠ 1 → does (fun t =>
          (t.core ⟨false, n⟩).near.mem = m.near.mem ∧ (t.core ⟨false, n⟩).near.spared = m.near.spared ++ [a / 2 ^ 16 % 2 ^ 6]
          ∧ (∀ g, g % 64 = a / 2 ^ 16 % 2 ^ 6 → g ∉ (t.core ⟨false, n⟩).near.cerr ∧ g ∉ (t.core ⟨false, n⟩).near.uerr)
          ∧ (∀ g, g ∈ m.near.poison → g ∈ (t.core ⟨false, n⟩).near.poison) ∧ t.svc = v))) ∧
      (let q := a / 2 ^ 8 % 2 ^ 6
       repairReserved a = false → a % 16 = 2 →
        (36 ≤ q ∨ 4 < a / 2 ^ 16 % 8 → ends 1) ∧
        (q < 36 → a / 2 ^ 16 % 8 ≤ 4 →
          ((getPart s p).ports.getLsbD q = false → ends 2) ∧
          ((getPart s p).ports.getLsbD q = true → (getPort s q).spareUsed = true → ends 4) ∧
          ((getPart s p).ports.getLsbD q = true → (getPort s q).spareUsed = false → s.ev.i ≠ 1 → q < s.ports.length → does (fun t =>
            getPort t q = { getPort s q with
              spareUsed := true, failures := 0, retrain := s.now + 4096, nextSlot := (getPort t q).nextSlot }
            ∧ (getPort s q).nextSlot ≤ (getPort t q).nextSlot ∧ t.svc.elogw = v.elogw + 1 ∧ t.flits = s.flits.map (fun f =>
              if crosses s f = true ∧ linkOf s f = q then { f with due := f.due + 4096, hop := f.hop + 4096 } else f))))) ∧
      (repairReserved a = false → a % 16 = 3 ∨ a % 16 = 4 →
        (b % 2 ^ 18 ≠ 0 ∨ 2 ^ 39 ≤ b → ends 1) ∧
        (b % 2 ^ 18 = 0 → b < 2 ^ 39 → (v.allot.getD (b / 2 ^ 28) 0).toNat ≠ 128 + p → ends 2) ∧
        (b % 2 ^ 18 = 0 → b < 2 ^ 39 → (v.allot.getD (b / 2 ^ 28) 0).toNat = 128 + p →
          (a % 16 = 3 → page ∉ v.retired → ends 1) ∧ (a % 16 = 4 → page ∈ v.retired → ends 1) ∧
          (a % 16 = 4 → page ∉ v.retired → 4096 ≤ v.retired.length → ends 4) ∧
          (a % 16 = 4 → page ∉ v.retired → v.retired.length < 4096 → coreDrained k c = false ∨ farBusy s p = true →
            exec .repairDone s = .next s) ∧
          (a % 16 = 4 → page ∉ v.retired → v.retired.length < 4096 → coreDrained k c = true → farBusy s p = false → s.ev.i ≠ 1 →
            does (fun t => t.svc = { v with retired := v.retired ++ [page] })) ∧
          (a % 16 = 3 → page ∈ v.retired → s.ev.i ≠ 1 → does (fun t => t.svc = { v with retired := v.retired.filter (· ≠ page) }))))

/-- 15:R296, R313, R318, R319, 18:R376, 20:R407, R409, R412: a reset clears what it clears and keeps what it keeps, and boots the slot that
is sound; the chip's own events; and an SPDM request is answered. The bytes of SPDM answers beyond the request's number are the
model's (free values, entry 10 of the log).
(Where the rules leave it open: the model's readings, log entries 57, 58, 59 and 77.) -/
def Obligations.ResetsAndTheChip : Prop :=
  (∀ (s : State), let v := s.svc
    let sound (slot : Nat) : Prop := (s.ev.bytes.getD slot 0).toNat % 4 = 0 ∧ v.rollback ≤ (if slot = 0 then v.slotA else v.slotB)
    let cleared (t : State) : Prop := t.gangs = [] ∧ t.launches = [] ∧ t.parts = List.replicate 8 {} ∧ t.tlbs = [] ∧ t.walks = []
      ∧ t.flits = [] ∧ t.groups = [] ∧ t.links = [] ∧ t.svc.busy = false ∧ t.svc.allot = List.replicate 2048 0 ∧ t.svc.retired = v.retired
      ∧ t.now = s.now ∧ t.vms.length = s.vms.length ∧ t.ccs.length = s.ccs.length
      ∧ (∀ k ∈ t.vms ++ t.ccs, k.near.mem = [] ∧ k.main = {} ∧ k.part = none ∧ k.istore = [])
    let boots (t : State) (slotB : Bool) : Prop := t.svc.running = slotB ∧ t.svc.bootst.getLsbD 0 = true ∧ t.svc.bootst.getLsbD 2 = slotB
      ∧ t.svc.ucodeOk = decide (s.ev.bytes.getD 3 0 = 0) ∧ t.ports.length = 36
      ∧ (∀ i < 36, (getPort t i).up = !s.ev.v.getLsbD i
        ∧ (getPort t i).spareUsed = ((getPort s i).spareUsed || decide (s.ev.bytes.getD (4 + i) 0 ≠ 0)))
      ∧ t.svc.staged = (if slotB then none else v.staged.filter (fun b => b))
    let counter (cold slotB : Bool) : Nat :=
      if cold ∧ v.fresh = some slotB then max v.rollback (if slotB then v.slotB else v.slotA) else v.rollback
    let keeps (t : State) (cold : Bool) : Prop := t.sys = (if cold then s.sys.filter (fun x => 2 ^ 39 ≤ x.1) else s.sys)
      ∧ t.chip = (if cold then 0 else s.chip) ∧ t.domain = (if cold then false else s.domain)
      ∧ t.dccBase = (if cold then s.now else s.dccBase)
    ∀ p ∈ [(Instr.coldReset, true), (.warmReset, false)],
      ∃ t, exec p.1 s = .next t ∧ cleared t ∧ keeps t p.2
        ∧ (sound 0 → boots t false ∧ t.svc.rollback = counter p.2 false)
        ∧ (¬ sound 0 → sound 1 → boots t true ∧ t.svc.rollback = counter p.2 true)
        ∧ (¬ sound 0 → ¬ sound 1 → t.svc.bootst.getLsbD 0 = false ∧ t.svc.rollback = v.rollback)) ∧
  (∀ (s : State),
    let answers (i : Instr) (n : Nat) (pre : List W8) : Prop := ∃ body : List W8, body.length = 64 ∧ exec i s = .next { s with
      oracle := s.oracle + 1, outbox := s.outbox ++ [.spdm ([BitVec.ofNat 8 n] ++ pre ++ body)] }
    answers .getVersion 0 [0x12] ∧ answers .getCapabilities 1 [] ∧ answers .negotiateAlgorithms 2 [0, 1, 0, 0, 4, 0, 0, 0] ∧ answers .getDigests 3 [] ∧
    answers .getCertificate 4 [] ∧ answers .challenge 5 [] ∧ answers .getMeasurements 6 [1, 2, 3, 4] ∧
    exec .alignmentLost s = .next { s with alignLost := true } ∧
    exec .thermalLimitReached s = .next { s with stepReq := min s.ev.i 4, cool := min s.ev.j 255 } ∧
    (∃ t, exec .hbmRefresh s = .next t ∧ t = { s with refresh := t.refresh } ∧ (s.ev.i, s.now + s.ev.j) ∈ t.refresh) ∧
    (∃ t, exec .thermalStop s = .next t ∧ t.sys = s.sys ∧ t.ccs = s.ccs ∧ t.vms = s.vms.map (fun k => { k with thermal := 255 })
      ∧ t.parts = s.parts.map (fun p => if p.formed then { p with thermal := true } else p)
      ∧ ∀ i < s.gangs.length, let g := getGang s i
        getGang t i = if g.live = false ∨ g.cur = none then g
          else if g.ens then { g with
            awaited := (4, 0) :: g.awaited.filter (fun x => x.1 = 3)
            msgs := g.msgs ++ [{ who := 4, idx := 0, p := none, step := s.stepReq, cool := s.cool, err := true, replay := false
                                 thermal := true, due := s.now + 40 + pathTicks s.chip 512 }] }
          else if g.ending = none then { g with ending := some (7, 0) } else g) ∧
    (let k := s.core s.ev.core
     hasCore s s.ev.core = true →
       ((∀ p, k.part = some p → (getPart s p).thermal = false) →
         CoreEvent s .thermalIndexUpdate s.ev.core { k with thermal := BitVec.ofNat 8 (min s.ev.i 255) }) ∧
       (∀ p, k.part = some p → (getPart s p).thermal = true → CoreEvent s .thermalIndexUpdate s.ev.core { k with thermal := 255 })))

/-! ### Results that land, and traps -/

/-- R91, R96, R98, R62, R73, 19:R388, R389: a result that falls due writes its register, enters its latch line and sets its flags; a write
to s0, g0, xh0 or yh0 is discarded, while its result still enters the latch line; of two results for one register, due together, the one
issued later stands. The shadow is delivered to the main context. Control effects take their place when they fall due.
(Where the rules leave it open: the model's readings, log entries 16, 17, 19 and 20.) -/
def Obligations.ResultsLand : Prop :=
  ∀ (s : State) (p : Pend),
    let c := s.ev.core
    let k := s.core c
    let x := k.ctx
    let plain (p : Pend) : Prop := p.due ≤ k.clk.arch ∧ p.late = false ∧ p.poison = none ∧ p.swtrap = none ∧ trappingFlags p.flags p.ten = 0
    let w := valWord p.val
    hasCore s c = true →
    (x.pends = [p] → shadowDue k = [] → plain p → p.effs = [] →
      ∃ t, exec .resultLanding s = .next t ∧ (∀ d, d ≠ c → t.core d = s.core d) ∧ t.sys = s.sys
      ∧ (let k' := t.core c
         let y := k'.ctx
         k'.near = k.near ∧ k'.eng = k.eng ∧ k'.tr = k.tr ∧ k'.tp = k.tp ∧ y.pends = [] ∧ y.fflags = x.fflags ||| p.flags
         ∧ y.istat = x.istat ||| p.istat ∧ y.pc = x.pc ∧ y.fmt = x.fmt
         ∧ (∀ l, p.latch = some l → l < x.latch.length → x.latchBase ≤ p.due → latchAt y l 0 p.due = some p.val)
         ∧ (p.latch = none → y.latch = x.latch)
         ∧ (p.dst ∈ [.none, .s 0, .g 0, .mask false 0, .mask true 0] → y.s = x.s ∧ y.g = x.g ∧ y.xh = x.xh ∧ y.yh = x.yh ∧ y.x = x.x ∧ y.y = x.y
             ∧ y.m = x.m ∧ y.n = x.n ∧ k'.k = k.k ∧ k'.mp = k.mp)
         ∧ (∀ r, r ≠ 0 → p.dst = .s r → y.s = x.s.set r w ∧ y.g = x.g ∧ y.x = x.x ∧ y.m = x.m ∧ k'.k = k.k)
         ∧ (∀ r, p.dst = .k r → k'.k = k.k.set r w ∧ y.s = x.s ∧ y.g = x.g)
         ∧ (∀ r, p.dst = .mp r → k'.mp = k.mp.set r w ∧ y.s = x.s ∧ k'.k = k.k)
         ∧ (∀ n r, p.dst = .a n r → y.n = (if n then x.n.set r w else x.n) ∧ y.m = (if n then x.m else x.m.set r w) ∧ y.s = x.s)
         ∧ (∀ r, 0 < r → r < 8 → p.dst = .g r → ∀ i < 8, y.g.getLsbD i = if i = r then w.getLsbD 0 else x.g.getLsbD i)
         ∧ (∀ r b, 0 < r → r < 8 → p.dst = .mask false r → p.val = .m b → y.xh = x.xh.set r b ∧ y.yh = x.yh)
         ∧ (∀ r b, 0 < r → r < 8 → p.dst = .mask true r → p.val = .m b → y.yh = x.yh.set r b ∧ y.xh = x.xh)
         ∧ (∀ r l act, r < x.x.length → p.dst = .vec false r act → p.val = .v l → y.y = x.y ∧ y.s = x.s ∧ (∀ q, q ≠ r → y.x.getD q [] = x.x.getD q [])
             ∧ ∀ L < 128, lane (y.x.getD r []) L = if act.getLsbD L then lane l L else lane (x.x.getD r []) L)
         ∧ (∀ r l act, r < x.y.length → p.dst = .vec true r act → p.val = .v l → y.x = x.x ∧ (∀ q, q ≠ r → y.y.getD q [] = x.y.getD q [])
             ∧ ∀ L < 128, lane (y.y.getD r []) L = if act.getLsbD L then lane l L else lane (x.y.getD r []) L)
         ∧ (∀ r a b act, r + 1 < x.x.length → p.dst = .pair false r act → p.val = .p a b → y.y = x.y ∧ ∀ L < 128,
             lane (y.x.getD r []) L = (if act.getLsbD L then lane a L else lane (x.x.getD r []) L)
             ∧ lane (y.x.getD (r + 1) []) L = if act.getLsbD L then lane b L else lane (x.x.getD (r + 1) []) L))) ∧
    (∀ q r, (x.pends = [p, q] ∧ p.serial ≤ q.serial) ∨ (x.pends = [q, p] ∧ p.serial < q.serial) → shadowDue k = [] → plain p → plain q → p.effs = [] → q.effs = [] → r ≠ 0 → p.dst = .s r → q.dst = .s r →
      ∃ t, exec .resultLanding s = .next t ∧ (t.core c).ctx.s = x.s.set r (valWord q.val)
        ∧ (∀ l, p.latch = some l → l < x.latch.length → x.latchBase ≤ p.due → q.latch ≠ some l → latchAt (t.core c).ctx l 0 p.due = some p.val)
        ∧ (∀ l, q.latch = some l → l < x.latch.length → x.latchBase ≤ q.due → latchAt (t.core c).ctx l 0 q.due = some q.val)) ∧
    (∀ r, k.tp.active = false → k.tp.resumed ≠ none → k.tp.shadow = [p] → pendsDue k = [] → plain p → p.effs = [] → r ≠ 0 → p.dst = .s r →
      ∃ t, exec .shadowDelivery s = .next t ∧ (t.core c).main.s = k.main.s.set r w ∧ (t.core c).tp.shadow = [] ∧ t.sys = s.sys
        ∧ (t.core c).main.pends = k.main.pends ∧ ∀ d, d ≠ c → t.core d = s.core d) ∧
    (∀ e, x.pends = [p] → shadowDue k = [] → plain p → p.effs = [e] → p.dst = .none → p.latch = none → p.flags = 0 → p.istat = 0 →
      let y : Ctx := { x with pends := [] }
      let becomes (k' : Core) : Prop := CoreEvent s .resultLanding c k'
      let ctx (y : Ctx) : Prop := becomes (k.updCtx (fun _ => y))
      (∀ v, e = .fmt v → ctx { y with fmt := v }) ∧ (∀ v, e = .clmask v → ctx { y with clmask := v }) ∧
      (∀ i, e = .sel false i → ctx { y with sel0 := i }) ∧ (∀ i, e = .sel true i → ctx { y with sel1 := i }) ∧
      (∀ v, e = .csr 0 v → ctx { y with fflags := x.fflags &&& ~~~ v.extractLsb' 0 8 }) ∧
      (∀ v, e = .csr 1 v → ctx { y with istat := x.istat &&& ~~~ v.extractLsb' 0 2 }) ∧
      (∀ v, e = .csr 2 v → ctx { y with g := v.extractLsb' 0 8 ||| 1 }) ∧
      (∀ i v, e = .skey i v → ctx { y with ks := x.ks.set i (v, (x.ks.getD i (0, 0)).2) }) ∧
      (∀ i v, e = .sctr i v → ctx { y with ks := x.ks.set i ((x.ks.getD i (0, 0)).1, v) }) ∧
      (∀ i q, e = .bind i q → ctx { y with q := x.q.set i q }) ∧
      (∀ v, e = .clrQempty v → ctx { y with qempty := x.qempty &&& ~~~ v }) ∧
      (∀ v, e = .csr 0x11 v → becomes { k.updCtx (fun _ => y) with tr := { k.tr with tpc := v } }) ∧
      (∀ v, e = .csr 0x15 v → becomes { k.updCtx (fun _ => y) with tr := { k.tr with tvec := v } }) ∧
      (∀ v, e = .csr 0x16 v → becomes { k.updCtx (fun _ => y) with tr := { k.tr with tscr := v } }) ∧
      (∀ v, e = .pred v → becomes { k.updCtx (fun _ => y) with ph := { k.ph with p := v } }) ∧
      (∀ v, e = .clrErr v → becomes { k.updCtx (fun _ => y) with eng := { k.eng with err := k.eng.err &&& ~~~ v } }) ∧
      (e = .clrFull → partOf s c < s.parts.length → ∃ t, exec .resultLanding s = .next t ∧ t.core c = k.updCtx (fun _ => y) ∧ t.sys = s.sys
        ∧ (∀ d, d ≠ c → t.core d = s.core d) ∧ getPart t (partOf s c) = { getPart s (partOf s c) with evFull := false }
        ∧ ∀ r, r ≠ partOf s c → getPart t r = getPart s r))

/-- 19:R386, R387, R391, R397: a trap writes the trap registers, sends results due from then on to the shadow, stops the main context and
starts the urgent one at TVEC, no sooner than 8 cycles later; without a possible handler, and inside the urgent context, it is a core
fault, which stops the core, posts its record and fails the task.
(Where the rules leave it open: the model's readings, log entry 41.) -/
def Obligations.TrapsAreTaken : Prop :=
  ∀ (s : State) (c : CoreRef) (cause : W8) (info : W64) (slot : Nat) (rt : Bool) (drop : List Nat),
    let k := s.core c
    let a := k.clk.arch
    let tvec := tvecAt k a
    let ok := tvec ≠ 0 ∧ tvec.toNat % 4 = 0 ∧ tvec.toNat < 2 ^ 48 ∧ (c.cc = true ∨ tvec.toNat < k.codelen)
    let t := takeTrap s c cause info slot rt drop
    let frame : Prop := t.sys = s.sys ∧ (∀ d, d ≠ c → t.core d = s.core d) ∧ (t.core c).near = k.near ∧ (t.core c).mx = k.mx
      ∧ (t.core c).main.s = k.main.s ∧ (t.core c).main.x = k.main.x ∧ (t.core c).k = k.k ∧ t.parts = s.parts ∧ t.gangs = s.gangs
    let faults (urgent main : W8) (addr : W64) (k : Core) : Prop :=
      let p := partOf s c
      let q := getPart s p
      (t.core c).run = .faulted ∧ (t.core c).main.pends = [] ∧ (t.core c).urg.pends = [] ∧ (t.core c).tp.active = false
      ∧ (k.ph.inph = true → (t.core c).ph.sigPend = true ∧ (t.core c).ph.sigFail = true ∧ t.gangs = s.gangs)
      ∧ (∀ g, k.ph.inph = false → k.ph.gang = some g → g < s.gangs.length → (getGang s g).ending = none →
          (getGang t g).ending = some (2, (if urgent = 0 then main else urgent).toNat))
      ∧ t.sys = s.sys ∧ (∀ d, d ≠ c → t.core d = s.core d)
      ∧ (p < s.parts.length → getPart t p = { q with evNew := q.evNew ++ [mkRecord 12 2 p 0 (recSource s c) (taskOf s c) (itemOf s c)
          k.tr.ttime.toNat (urgent.toNat + main.toNat * 256 + addr.toNat % 2 ^ 48 * 65536)] })
      ∧ ∀ r, r ≠ p → getPart t r = getPart s r
    hasCore s c = true → slot < 16 →
      (k.tp.active = false → ok → frame ∧
        (t.core c).tr.tcause = BitVec.ofNat 64 (slot * 4096 + (if rt then 256 else 0) + cause.toNat) ∧ (t.core c).tr.tpc = k.main.pc
        ∧ (t.core c).tr.tinfo = info ∧ (t.core c).tr.ttime = BitVec.ofNat 64 k.clk.cyc ∧ (t.core c).tr.tvec = k.tr.tvec
        ∧ (t.core c).tr.tscr = k.tr.tscr ∧ (t.core c).tr.tstate.getLsbD 0 = k.ph.inph
        ∧ (t.core c).tr.tstate.getLsbD 1 = (k.ph.inph && !k.ph.solo)
        ∧ (t.core c).tp.active = true ∧ (t.core c).tp.entered = false ∧ (t.core c).tp.t = a ∧ (t.core c).run = .running
        ∧ (t.core c).urg.pc = tvec ∧ (t.core c).urg.next = max (a + 8) (k.lastClaim + 1)
        ∧ (t.core c).main.pends = [] ∧ (t.core c).main.pc = k.main.pc ∧ (t.core c).main.redirs = k.main.redirs
        ∧ (t.core c).main.loops = k.main.loops ∧ (t.core c).main.latch = List.replicate 6 []
        ∧ (k.tp.resumed = none → (t.core c).tp.shadow =
            (k.main.pends.filter (fun p => (a ≤ p.due || p.late && decide (p.wait ≠ 0)) && !drop.contains p.serial)).map
              (fun p => { p with due := p.due - a }))) ∧
      (k.tp.active = true → faults cause (k.tr.tcause.setWidth 8) k.urg.pc k) ∧
      (k.tp.active = false → ¬ ok → faults 0 cause k.main.pc { k with tr := { k.tr with ttime := BitVec.ofNat 64 k.clk.cyc } })

/-- 19:R392 to R394, 15:R317, 19:R387: TRAP lands as a trap with cause 0x0B one cycle later; ERET returns to the main context at TPC, or has
the phase replayed or failed; PREEMPT queues a request for a core of the partition, delivered as cause 0x0F outside the urgent context
and outside phases that are not solo, and between bundles only; FCST writes the forecast as its core's next cycle begins.
(Where the rules leave it open: the model's readings, log entries 16, 17, 21, 31 and 40.) -/
def Obligations.TrapInstructions : Prop :=
  (∀ (s : State) (d : BitVec 5) (a b : BitVec 6) (g : BitVec 3) (n : BitVec 1), Executes s g n →
    let v := srcS s a
    let x : CoreRef := ⟨v.getLsbD 8, v.toNat % 256⟩
    let mine := hasCore s x = true ∧ partOf s x = partOf s s.cur.core ∧ (x.cc = true ∨ (s.core x).part ≠ none)
    (∃ t, exec (.trap a g n) s = .next t ∧ OnlyCore s t (coreSending s [a] [{ newPend s 1 with swtrap := some (v.extractLsb' 0 16) }] 0)) ∧
    (∃ t, exec (.fcst a g n) s = .next t ∧ OnlyCore s t { coreSending s [a] [] 0 with
      ctl := { (coreSending s [a] [] 0).ctl with fcst := some (v.extractLsb' 0 16) } }) ∧
    (∀ (r p : Nat) (old new : Core), r < s.parts.length → old.clk.cyc ≠ new.clk.cyc → new.ctl.fcst = some (v.extractLsb' 0 16) →
      getPart (takeFcst s r old new) p = if p = r then { getPart s r with forecast := v.extractLsb' 0 16 } else getPart s p) ∧
    (¬ mine → Sends s (.preempt d a b g n) [a, b] (wordResult s 1 d 1)) ∧
    (mine → (s.core x).tp.preempt ≠ none → Sends s (.preempt d a b g n) [a, b] (wordResult s 1 d 2)) ∧
    (mine → (s.core x).tp.preempt = none → (s.core x).run = .idle ∨ (s.core x).run = .faulted →
      Sends s (.preempt d a b g n) [a, b] (wordResult s 1 d 0)) ∧
    (mine → (s.core x).tp.preempt = none → (s.core x).run ≠ .idle → (s.core x).run ≠ .faulted → x ≠ s.cur.core →
      ∃ t, exec (.preempt d a b g n) s = .next t ∧ t.core s.cur.core = coreSending s [a, b] [wordResult s 1 d 0] 0
        ∧ t.core x = { s.core x with tp := { (s.core x).tp with preempt := some (srcS s b, s.now + ticksTo (me s).clk 32) } }
        ∧ t.sys = s.sys ∧ ∀ d, d ≠ s.cur.core → d ≠ x → t.core d = s.core d) ∧
    (mine → (s.core x).tp.preempt = none → (s.core x).run ≠ .idle → (s.core x).run ≠ .faulted → x = s.cur.core →
      ∃ t, exec (.preempt d a b g n) s = .next t ∧ t.core x = { coreSending s [a, b] [wordResult s 1 d 0] 0 with
          tp := { (me s).tp with preempt := some (srcS s b, s.now + ticksTo (me s).clk 32) } }
        ∧ t.sys = s.sys ∧ ∀ d, d ≠ x → t.core d = s.core d)) ∧
  (∀ (s : State) (p : Pend) (code : W16), let c := s.ev.core
    let k := s.core c
    hasCore s c = true → k.ctx.pends = [p] → shadowDue k = [] → p.due ≤ k.clk.arch → p.late = false → p.poison = none → ended s c = false →
      (p.swtrap = some code → exec .resultLanding s = .next (takeTrap s c 0x0B (code.setWidth 64) 0 false [p.serial])) ∧
      (∀ v, p.swtrap = none → trappingFlags p.flags p.ten = v → v ≠ 0 → k.tp.active = false → handlerOk c k (tvecAt k k.clk.arch) = true →
        ∃ t, exec .resultLanding s = .next t ∧ (t.core c).tr.tcause = BitVec.ofNat 64 (p.slot * 4096 + 256 + 0x0D)
          ∧ (t.core c).tr.tinfo = p.flags.setWidth 64 ∧ (t.core c).main.fflags = k.main.fflags ||| p.flags ∧ (t.core c).main.s = k.main.s
          ∧ (k.tp.resumed = none → (t.core c).tp.shadow = []))) ∧
  (∀ (s : State), let c := s.cur.core
    let k := me s
    let ts := k.tr.tstate
    let tpc := k.tr.tpc
    let stops (i : Instr) (again : Bool) : Prop := ∃ t, exec i s = .next t ∧ t.sys = s.sys ∧ (t.core c).tp.active = false
      ∧ (t.core c).run = .stopped ∧ (t.core c).main.redirs = [] ∧ (t.core c).tp.shadow = [] ∧ (t.core c).ph.sigP = 0
      ∧ (t.core c).ph.sigConds = [] ∧ (t.core c).near = k.near ∧ (t.core c).main.s = k.main.s
      ∧ (if again then (t.core c).ph.sigReplay = true else (t.core c).ph.sigFail = true)
      ∧ (∀ g, again = false → ts.getLsbD 0 = false → k.ph.gang = some g → g < s.gangs.length → (getGang s g).ending = none →
          (getGang t g).ending = some (2, k.tr.tcause.toNat % 256))
    hasCore s c = true →
    (isUrg s = false → ∀ i ∈ [Instr.eret, .eretReplay, .eretFail], exec i s = .next (issueFail s 0x01 0)) ∧
    (isUrg s = true → guardOn s (sylField s 4 3) (sylField s 3 1) = false → ∀ i ∈ [Instr.eret, .eretReplay, .eretFail], exec i s = .next s) ∧
    (isUrg s = true → guardOn s (sylField s 4 3) (sylField s 3 1) = true → headPop s.cur.head = 0 →
      (ts.getLsbD 1 = false → tpc.toNat % 4 = 0 → tpc.toNat < 2 ^ 48 → ∃ t, exec .eret s = .next t ∧ t.sys = s.sys
        ∧ (t.core c).tp.active = false ∧ (t.core c).tp.resumed = some (cyc s + 1) ∧ (t.core c).main.pc = tpc ∧ (t.core c).main.next = cyc s + 1
        ∧ (t.core c).tp.shadow = k.tp.shadow.map (fun p => { p with due := p.due + (cyc s + 1) }) ∧ (t.core c).urg.pends = []
        ∧ (t.core c).main.redirs = k.main.redirs ∧ (t.core c).main.loops = k.main.loops
        ∧ (t.core c).run = (if k.tp.halted then .halted else .running) ∧ (t.core c).near = k.near ∧ (t.core c).main.s = k.main.s
        ∧ ∀ d, d ≠ c → t.core d = s.core d) ∧
      (ts.getLsbD 1 = false → tpc.toNat % 4 ≠ 0 ∨ 2 ^ 48 ≤ tpc.toNat → ∃ t, exec .eret s = .next t ∧ (t.core c).run = .faulted) ∧
      (ts.getLsbD 1 = true → stops .eret false) ∧ stops .eretFail false ∧
      (ts.getLsbD 0 = true → stops .eretReplay true) ∧ (ts.getLsbD 0 = false → stops .eretReplay false))) ∧
  (∀ (s : State) (v : W64) (w : Nat), let c := s.ev.core
    let k := s.core c
    let open_ := k.tp.active = false ∧ (k.run = .halted ∨ k.run = .running ∧ k.main.next ≤ k.clk.arch)
      ∧ (k.ph.inph = false ∧ ¬ (k.ph.absent = true ∧ k.ph.phc < k.ph.length) ∨ k.ph.solo = true)
    hasCore s c = true →
    (k.tp.preempt = none → exec .preemptDelivery s = .next s) ∧
    (k.tp.preempt = some (v, w) →
      (s.now < w ∨ ¬ open_ → exec .preemptDelivery s = .next s) ∧
      (w ≤ s.now → open_ → handlerOk c k (tvecAt k k.clk.arch) = true → ∃ t, exec .preemptDelivery s = .next t
        ∧ (t.core c).tr.tcause = 0xF00F ∧ (t.core c).tr.tinfo = v ∧ (t.core c).tr.tpc = k.main.pc ∧ (t.core c).tp.active = true
        ∧ (t.core c).tp.preempt = none ∧ (t.core c).tp.halted = decide (k.run = .halted) ∧ (t.core c).near = k.near ∧ t.sys = s.sys
        ∧ ∀ d, d ≠ c → t.core d = s.core d)) ∧
    (k.tp.active = true → k.tp.entered = false → k.urg.next ≤ k.clk.arch → CoreEvent s .urgentContextEntry c { k with
      tp := { k.tp with entered := true }
      urg := { pc := k.urg.pc, next := k.urg.next, latchBase := k.clk.arch, qempty := k.urg.qempty, fflags := k.urg.fflags
               istat := k.urg.istat } }) ∧
    (k.tp.active = false ∨ k.tp.entered = true ∨ k.clk.arch < k.urg.next → exec .urgentContextEntry s = .next s))

/-! ### Bundles as a whole -/

/-- 03:R50, R63, 04:R75 to R78, 06:R121 to R123: a bundle ends in its cycle. Its queues advance once each; the address that follows
is the next bundle's, that of a redirection whose two delay bundles have issued, or the first of a loop body.
18:R364, 10:R210, 19:R387: a control core fetches lines of 64 bytes through its partition's tables. The line that a stalled fetch
waits for enters the cache, and issue goes on in the next cycle; a fetch that the tables refuse, or that meets poison, traps at the
bundle, is a core fault for the first bundle of a handler, and is only noted where it runs ahead of issue.
(Where the rules leave it open: the model's readings, log entries 26, 32 and 43.) -/
def Obligations.BundlesEndAndFetch : Prop :=
  (∀ (s : State),
    let c := s.cur.core
    let k := me s
    let x := cx s
    let pop := headPop s.cur.head
    let nx := if x.next ≤ cyc s then cyc s + 1 else x.next
    let seq := s.cur.pc + BitVec.ofNat 64 (4 * s.cur.len)
    let moves (f : Ctx → Ctx) : Prop := ∃ t, exec .emptyBundle s = .next t ∧ CoreBecomes s t c { k.updCtx f with clk := { k.clk with due := false } }
    hasCore s c = true → s.cur.left = false → waiting x = false → s.cur.skip = none →
      (pop = 0 →
        (x.redirs = [] → x.loops = [] → moves (fun x => { x with pc := seq, next := nx })) ∧
        (∀ l ls, x.redirs = [] → x.loops = l :: ls →
          (l.pos < l.len → moves (fun x => { x with pc := seq, next := nx, loops := { l with pos := l.pos + 1 } :: ls })) ∧
          (l.len ≤ l.pos → 0 < l.remain →
            moves (fun x => { x with pc := l.body, next := nx, loops := { l with pos := 1, remain := l.remain - 1 } :: ls })) ∧
          (l.len ≤ l.pos → l.remain = 0 → ls = [] → moves (fun x => { x with pc := seq, next := nx, loops := [] })) ∧
          (∀ o os, l.len ≤ l.pos → l.remain = 0 → ls = o :: os → o.pos < o.len →
            moves (fun x => { x with pc := seq, next := nx, loops := { o with pos := o.pos + 1 } :: os })) ∧
          (∀ o os, l.len ≤ l.pos → l.remain = 0 → ls = o :: os → o.len ≤ o.pos → 0 < o.remain →
            moves (fun x => { x with pc := o.body, next := nx, loops := { o with pos := 1, remain := o.remain - 1 } :: os }))) ∧
        (∀ n a, x.redirs = [(n + 2, a)] → moves (fun x => { x with pc := seq, next := nx, redirs := [(n + 1, a)] })) ∧
        (∀ a, x.redirs = [(1, a)] → moves (fun x => { x with pc := a, next := nx, redirs := [], latchBase := nx })) ∧
        (∀ n a b, x.redirs = [(1, a), (n + 2, b)] →
          moves (fun x => { x with pc := a, next := nx, redirs := [(n + 1, b)], latchBase := nx }))) ∧
      (∀ i, x.redirs = [] → x.loops = [] →
        ((pop = 1 ∧ x.q.getD 0 none = some (.rq i)) ∨ (pop = 3 ∧ x.q.getD 0 none = some (.rq i) ∧ x.q.getD 1 none = some (.rq i)) →
          ∃ t, exec .emptyBundle s = .next t ∧ (t.core c).eng.rqs = k.eng.rqs.set i (k.eng.rqs.getD i []).tail ∧ (t.core c).ctx.pc = seq
            ∧ t.parts = s.parts ∧ t.sys = s.sys ∧ ∀ d, d ≠ c → t.core d = s.core d) ∧
        (pop = 2 → x.q.getD 1 none = some (.chan i) → partOf s c < s.parts.length → i < (getPart s (partOf s c)).chans.length →
          ∃ t, exec .emptyBundle s = .next t ∧ (t.core c).ctx.pc = seq ∧ t.sys = s.sys
            ∧ ((getPart t (partOf s c)).chans.getD i {}).entries = ((getPart s (partOf s c)).chans.getD i {}).entries.tail
            ∧ ∀ j, j ≠ i → (getPart t (partOf s c)).chans.getD j {} = (getPart s (partOf s c)).chans.getD j {}) ∧
        (pop = 8 → x.q.getD 3 none = some .evq → partOf s c < s.parts.length → ∃ t, exec .emptyBundle s = .next t ∧ (t.core c).ctx.pc = seq
          ∧ (let q := getPart s (partOf s c)
             getPart t (partOf s c) = if q.evCount = 0 then q else { q with evHead := (q.evHead + 1) % 4096, evCount := q.evCount - 1 })))) ∧
  (∀ (s s1 : State) (st : Stall),
    let c := s.ev.core
    let k := s.core c
    let a := st.a.toNat
    let x := xlate s c 21 (64 * (a / 64)) true false
    let handler := k.tp.active = true ∧ k.urg.pc = k.tr.tvec
    hasCore s c = true →
      (k.ctx.stall = none → exec .fetchMissFill s = .next s) ∧
      (k.ctx.stall = some st → st.kind = .fetch →
        (∀ pa e, x = (.ok pa e, s1) → pa % 64 = 0 → SysClean s1 pa 64 → ∃ t, exec .fetchMissFill s = .next t
          ∧ (t.core c).ctx.stall = none ∧ (t.core c).ctx.next = max k.ctx.next (k.clk.arch + 1) ∧ (t.core c).ctx.pc = k.ctx.pc
          ∧ (t.core c).tr = k.tr ∧ (t.core c).main.s = k.main.s ∧ t.sys = s1.sys
          ∧ (c.cc = true → ∀ b, b / 64 = a / 64 → b % 4 = 0 → fetchWord t c b = some (leW32 (memRead s1.sys (pa + b % 64) 4)))) ∧
        (∀ f, x = (.fault f, s1) →
          (st.b = 1 → ∃ t, exec .fetchMissFill s = .next t ∧ a / 64 ∈ (t.core c).ctl.badLines ∧ (t.core c).ctx.stall = none
            ∧ (t.core c).tr = k.tr ∧ (t.core c).tp = k.tp ∧ t.sys = s1.sys) ∧
          (st.b ≠ 1 → ¬ handler → exec .fetchMissFill s = .next (takeTrap (endFetch s1 c) c 0x06 st.a 15 false [])) ∧
          (st.b ≠ 1 → handler → ∃ t, exec .fetchMissFill s = .next t ∧ (t.core c).run = .faulted)) ∧
        (∀ pa e, x = (.ok pa e, s1) → pa % 64 = 0 → pa / 64 ∈ s1.syspoison → pa / 64 ∉ s1.syscerr → pa / 64 ∉ s1.sysuerr → st.b ≠ 1 → ¬ handler →
          exec .fetchMissFill s = .next (takeTrap (endFetch s1 c) c 0x05 st.a 15 false []))))

/-- 03:R64, R63, 04:R85, R87, 19:R386: where a check of a bundle fails, whatever its slot, the core takes one trap, with the lowest cause
among the failures, and no slot of the bundle has any effect: no register, memory, queue or engine changes.
(Where the rules leave it open: the model's readings, log entries 3, 23 and 47.) -/
def Obligations.FailedChecksStopTheBundle : Prop :=
  ∀ (s : State) (c : CoreRef) (pc : W64),
    let k := s.core c
    let trapsAs (r : Host.Outcome State Fault Refusal) (fs : List (W8 × W64 × Nat)) : Prop :=
      ∃ t f, r = .next t ∧ f ∈ fs ∧ (∀ g ∈ fs, f.1.toNat ≤ g.1.toNat)
        ∧ (t.core c).tr.tcause = BitVec.ofNat 64 (f.2.2 * 4096 + f.1.toNat) ∧ (t.core c).tr.tinfo = f.2.1 ∧ (t.core c).tr.tpc = k.main.pc
        ∧ (t.core c).tp.active = true ∧ (t.core c).near = k.near ∧ (t.core c).mx = k.mx ∧ (t.core c).eng = k.eng ∧ (t.core c).k = k.k
        ∧ (t.core c).mp = k.mp ∧ (t.core c).ph = k.ph ∧ (t.core c).ctl = k.ctl ∧ (t.core c).main.s = k.main.s ∧ (t.core c).main.x = k.main.x
        ∧ (t.core c).main.y = k.main.y ∧ (t.core c).main.g = k.main.g ∧ (t.core c).main.m = k.main.m ∧ (t.core c).main.n = k.main.n
        ∧ (t.core c).main.fflags = k.main.fflags ∧ (t.core c).main.loops = k.main.loops ∧ (t.core c).main.redirs = k.main.redirs
        ∧ (∀ d, d ≠ c → t.core d = s.core d) ∧ t.sys = s.sys ∧ t.parts = s.parts ∧ t.gangs = s.gangs ∧ t.links = s.links ∧ t.flits = s.flits
    hasCore s c = true → k.tp.active = false → handlerOk c k (tvecAt k k.clk.arch) = true →
      (∀ ws why l, fetchBundle s c k.ctx.pc.toNat = .words ws → decodeBundle c.cc false ws = .illegal why l →
        trapsAs (issueAt exec s c) (l.map (fun x => (illegalCause why, 0, x)))) ∧
      (∀ b i, b.ops = [] → i < 4 → (headPop b.head).getLsbD i = true → k.main.q.getD i none = none →
        ∃ fs, trapsAs (runBundle exec s c pc b) fs ∧ (0x0C, BitVec.ofNat 64 i, 15) ∈ fs ∧ ∀ f ∈ fs, f.1 = 0x0C) ∧
      (∀ b t, b.ops ≠ [] → runOps exec (eretLast b.ops)
          { beginBundle s c pc b with cur := { (beginBundle s c pc b).cur with
            fails := (unboundPops (beginBundle s c pc b) (headPop b.head)).map (fun i => ((0x0C : W8), BitVec.ofNat 64 i, 15)) } } = .next t →
        t.cur.fails ≠ [] → trapsAs (runBundle exec s c pc b) t.cur.fails)

/-- 03:R53, 15:R305: an SR or SB operation whose guard is false has no effect; g0 is true, so that gn = 1 with g0 never executes. SIGNOFF
at phase cycle LENGTH - 1 is the exception: it is the core's sign-off, and a false guard takes its conditions away.
(Where the rules leave it open: the model's readings, log entry 29.) -/
def Obligations.FalseGuardsDoNothing : Prop :=
  ∀ (s : State) (d : BitVec 5) (e g i : BitVec 3) (a b : BitVec 6) (n z : BitVec 1) (k : BitVec 2) (p : BitVec 20),
    guardOn s 0 0 = true ∧ guardOn s 0 1 = false ∧ (guardOn s g n = ((g = 0 || (cx s).g.getLsbD g.toNat) != (n = 1))) ∧
    (guardOn s g n = false →
      (∀ j ∈ [
        .add d a b g n, .sub d a b g n, .mul d a b g n, .mulh d a b g n z, .div d a b g n z, .rem d a b g n z, .and d a b g n,
        .or d a b g n, .xor d a b g n, .andn d a b g n, .shl d a b g n, .shr d a b g n z, .rot d a b g n, .min d a b g n z,
        .max d a b g n z, .clz d a g n, .ctz d a g n, .popc d a g n, .bswap d a g n, .ext d a b g n z, .ins d a b g n,
        .sel d a b g n i, .cmp e a b g n i, .gand e a b g n k, .br g n p, .call g n p, .bri d a g n, .setfmt a g n,
        .setcl a g n, .vmsel i g n z, .phpred a g n k, .tlreadV d a g n, .tlwait a b g n, .tlarm a b g n, .qbind k a g n,
        .gtime d g n i, .csrr d a g n, .csrw a b g n, .putk a g n, .rkey a b g n k, .rkeyS a b g n k, .rctr a b g n k,
        .rctrRd d a g n k, .rskip a b g n k, .rdraw d g n k, .stov d a g n z, .stom d a g n, .trap a g n, .preempt d a b g n,
        .launch d a b g n, .phload d a b g n, .savectx d a b g n, .restctx d a b g n, .fcst a g n, .watchArm d a b g n,
        .watchDis a g n, .mcode d a b g n, .tlbinvPage a g n, .repair d a b g n, .hostirq a g n],
        exec j s = .next s) ∧
      ((me s).ph.inph = false ∨ (me s).ph.phc + 1 ≠ (me s).ph.length → exec (.signoff a b g n) s = .next s) ∧
      (hasCore s s.cur.core = true → (me s).ph.inph = true → (me s).ph.phc + 1 = (me s).ph.length → ∃ t, exec (.signoff a b g n) s = .next t
        ∧ OnlyCore s t { me s with ph := { (me s).ph with
            signed := true, sigPend := true, sigP := (me s).ph.p, sigConds := [], sigErr := 0 } })) ∧
    (guardOn s (sylField s 4 3) (sylField s 3 1) = false →
      (∀ j ∈ [.ret, .halt, .getfmt, .tlreadE, .tlreadEc, .tlbinvAll], exec j s = .next s) ∧
      (isUrg s = true → ∀ j ∈ [.eret, .eretReplay, .eretFail], exec j s = .next s))

/-- 03:R48, R52 to R56 and the encoding tables of the home chapters: these words, written out from them, decode to the operations that
they stand for, and a reserved field or an unlisted opcode decodes to nothing. -/
def Obligations.DecodesSpecWords : Prop :=
  decodeSlot 0 0x00000000 = some .nop ∧
  decodeSlot 0 0xC2188280 = some (.preempt 3 4 5 0 0) ∧
  decodeSlot 0 0xC006A000 = some (.trap 53 0 0) ∧
  decodeSlot 0 0xC1000000 = some .eret ∧
  decodeSlot 0 0xC5188280 = some (.savectx 3 4 5 0 0) ∧
  decodeSlot 1 0x062410BF = some (.vmad 0 9 1 2 63) ∧
  decodeSlot 2 0x60143000 = some (.vrcp 0 5 3) ∧
  decodeSlot 1 0x50143CB0 = some (.vcvt 0 5 3 2 0) ∧
  decodeSlot 1 0x33288300 = some (.dwadd 5 4 6) ∧
  decodeSlot 5 0x50420000 = some (.txsend 4 2 0) ∧
  decodeSlot 5 0x51400000 = some .txwalk ∧
  decodeSlot 5 0x56530001 = some (.mcsto 5 3 1) ∧
  decodeSlot 5 0x59510002 = some (.ratom 5 1 2) ∧
  decodeSlot 5 0x57001C00 = some .mcapplBind ∧
  decodeSlot 5 0x54060000 = some (.rxarm 0 6) ∧
  decodeSlot 5 0x55050009 = some (.rxflag 0 5 9) ∧
  decodeSlot 1 0x00000000 = none ∧ decodeSlot 3 0x00000000 = none ∧ decodeSlot 4 0x00000000 = none ∧
  decodeSlot 0 0x00000001 = none ∧ decodeSlot 0 0x01000001 = none ∧
  decodeBundle false false [0x00000000] = .legal ⟨0x00000000, 0, 1, []⟩ ∧
  decodeBundle true true [0x80000000, 0x00000000] = .legal ⟨0x80000000, 0, 2, [⟨0, 0x00000000, .nop⟩]⟩ ∧
  decodeBundle false false [0x00000001] = .illegal [.portOwner] [15] ∧
  decodeBundle false false [0x80000000, 0xC1000000] = .illegal [.eretMain] [0] ∧
  decodeBundle false true [0x80000000, 0xC1000000] = .legal ⟨0x80000000, 0, 2, [⟨0, 0xC1000000, .eret⟩]⟩

/-- 03:R47, R48, R51 to R57, R64, R65: decoding is the inverse of encoding. A bundle of any head with operations of the classes of its
slots, encoded field by field with every operand at any value, decodes to exactly those operations, the lend value and the length, unless
one of the conditions of R64 makes it illegal; what follows it in memory does not matter. -/
def Obligations.BundlesDecodeBack : Prop :=
  ∀ (cc urg : Bool) (h lend : W32) (ops : List Op) (more : List W32),
    ops.map (·.slot) = presentSlots h →
    (∀ o ∈ ops, classOf o.ins = some (slotClass o.slot) ∧ ∃ w, encode w o.ins = some o.syl) →
    let l := if headL h then [lend] else []
    let shapes := ops.map (fun o => (o.slot, shape o.syl o.ins))
    (bundleIllegal cc urg h shapes = [] →
      decodeBundle cc urg (h :: (l ++ (ops.map (·.syl) ++ more))) = .legal ⟨h, if headL h then lend else 0, 1 + l.length + ops.length, ops⟩) ∧
    (bundleIllegal cc urg h shapes ≠ [] →
      ∃ at_, decodeBundle cc urg (h :: (l ++ (ops.map (·.syl) ++ more))) = .illegal (bundleIllegal cc urg h shapes) at_ ∧ at_ ≠ [])

/-- 03:R47 to R50, 04:R73, 00:R2: a step is one action. Where it is a core's issue, the words at the program counter are decoded and the
operations of their bundle are executed in slot order, each as exec says, after which the bundle ends; a bundle of the main context that
ends in a trap takes it before anything due in its cycle has landed (19:R386); the one action of a step that is an event is exec of that
event.
(Where the rules leave it open: the model's readings, log entries 3 and 15.) -/
def Obligations.StepIssuesDecodedBundle : Prop :=
  ∀ (s : State) (c : CoreRef),
    let k := s.core c
    let pc := k.ctx.pc
    let bundleOf (b : Bundle) : Prop := ∃ ws, fetchBundle s c pc.toNat = .words ws ∧ decodeBundle c.cc k.tp.active ws = .legal b
    let free (b : Bundle) : Prop := c.cc = true → heldBack k b = false ∧ aheadMiss (beginBundle s c pc b) b = none ∧ c1Miss s c b = none ∧ k.ctx.stall = none
    let at_ (s : State) (o : Op) : State := { s with cur := { s.cur with slot := o.slot, syl := o.syl } }
    (mandatory s = some (.issue c) → ∀ b, bundleOf b → free b → unboundPops (beginBundle s c pc b) (headPop b.head) = [] →
      (b.ops = [] → step s = exec .emptyBundle (beginBundle s c pc b)) ∧
      (∀ o t, b.ops = [o] → exec o.ins (at_ (beginBundle s c pc b) o) = .next t → t.cur.fails = [] → step s = .next (endBundle t)) ∧
      (∀ o p t u, b.ops = [o, p] → (∀ q ∈ b.ops, q.ins ≠ .eret ∧ q.ins ≠ .eretReplay ∧ q.ins ≠ .eretFail) →
        exec o.ins (at_ (beginBundle s c pc b) o) = .next t → t.cur.fails = [] → exec p.ins (at_ t p) = .next u → u.cur.fails = [] →
        step s = .next (endBundle u)) ∧
      (∀ o t, b.ops = [o] → exec o.ins (at_ (beginBundle s c pc b) o) = .next t → t.cur.fails ≠ [] →
        step s = .next (bundleFail s c t.cur.fails))) ∧
    (let u := trialIssue (trialBase s c) c
     let r := (u.core c).tr
     mandatory s = some (.early c) → trapped u c = true ∧ step s = .next (bundleTrap { s with oracle := u.oracle } c
       (r.tcause.setWidth 8, r.tinfo, (r.tcause.extractLsb' 12 4).toNat))) ∧
    (c.cc = false → ∀ a, fetchWord s c a = some (leW32 (memRead k.istore a 4))) ∧
    (∀ i e s1, nextAct s = (.event i e, s1) → step s = exec i { s1 with ev := e }) ∧
    (∀ x l, s.half = false → s.inputs = x :: l → x.1 ≤ s.now → outside x.2.1 = true → unitOk s x.2.1 x.2.2 = true →
      step s = exec x.2.1 { s with inputs := l, ev := x.2.2 }) ∧
    (mandatory s = some (.pass c) → step s = .next (s.upd c (fun k => { k with clk := { k.clk with due := false } }))) ∧
    (mandatory s = some .half → step s = .next { s with half := true }) ∧
    (mandatory s = none → optional s = [] → lastDue s = none →
      ∃ t, step s = .next t ∧ t.now = s.now + 1 ∧ t.half = false ∧ t.sys = s.sys ∧ t.gangs = s.gangs)

/-- R133: GUARDS reads g1 to g7 over a constant 1 for g0; a CSRW to it takes effect at c+1, as a guard result does, writes g1 to g7 and
leaves g0; no bundle holds two S operations; g1 to g7 are 0 at reset. -/
def Obligations.GuardsRegister : Prop :=
  (∀ (s : State) (d : BitVec 5) (e : BitVec 3) (a b : BitVec 6) (g : BitVec 3) (n : BitVec 1), Executes s g n → srcS s a = 0x02 →
    (∃ v, Sends s (.csrr d a g n) [a] (wordResult s 1 d v)
      ∧ ∀ i < 64, v.getLsbD i = if i = 0 then true else if i ≤ 7 then (cx s).g.getLsbD i else false) ∧
    Sends s (.csrw a b g n) [a, b] (effResult s 1 (.csr 2 (srcS s b))) ∧
    (∀ r, (effResult s 1 (.csr 2 (srcS s b))).due = (guardResult s e r).due)) ∧
  (∀ (s : State) (p : Pend) (v : W64), let c := s.ev.core
    let k := s.core c
    hasCore s c = true → k.ctx.pends = [p] → shadowDue k = [] → p.due ≤ k.clk.arch → p.late = false → lateTrap p = none →
      p = { p with effs := [.csr 2 v], dst := .none, latch := none } →
      ∃ t, exec .resultLanding s = .next t ∧ t.sys = s.sys ∧ (t.core c).ctx.s = k.ctx.s ∧ (∀ d, d ≠ c → t.core d = s.core d)
        ∧ (t.core c).ctx.g.getLsbD 0 = true ∧ ∀ i, 1 ≤ i → i ≤ 7 → (t.core c).ctx.g.getLsbD i = v.getLsbD i) ∧
  (∀ cc urg ws b, decodeBundle cc urg ws = .legal b → (b.ops.filter (fun o => o.slot = 0)).length ≤ 1) ∧
  (∀ c, hasCore State.reset c = true → ∀ i, 1 ≤ i → i ≤ 7 →
    (State.reset.core c).main.g.getLsbD i = false ∧ (State.reset.core c).urg.g.getLsbD i = false)

/-- R134, R135: LOOPST reads the depth and the iterations left of the innermost loop level, IDENT the partition, chip, context, kind and
number of the core, each with its reserved bits 0; writes to them are ignored; LOOPST reads 0 at reset. -/
def Obligations.LoopstAndIdent : Prop :=
  (∀ (s : State) (d : BitVec 5) (a : BitVec 6) (g : BitVec 3) (n : BitVec 1), Executes s g n →
    let x := cx s
    (srcS s a = 0x05 →
      ∃ v, Sends s (.csrr d a g n) [a] (wordResult s 1 d v) ∧ v.extractLsb' 40 24 = 0 ∧ v.extractLsb' 3 5 = 0
        ∧ v.extractLsb' 0 3 = BitVec.ofNat 3 x.loops.length
        ∧ v.extractLsb' 8 32 = match x.loops with | [] => 0 | l :: _ => BitVec.ofNat 32 l.remain) ∧
    (srcS s a = 0x06 →
      ∃ v, Sends s (.csrr d a g n) [a] (wordResult s 1 d v) ∧ v.extractLsb' 35 29 = 0 ∧ v.extractLsb' 32 3 = BitVec.ofNat 3 (partOf s s.cur.core)
        ∧ v.extractLsb' 25 7 = 0 ∧ v.extractLsb' 16 9 = BitVec.ofNat 9 s.chip ∧ v.extractLsb' 10 6 = 0 ∧ v.getLsbD 9 = (me s).tp.active
        ∧ v.getLsbD 8 = s.cur.core.cc ∧ v.extractLsb' 0 8 = BitVec.ofNat 8 s.cur.core.num)) ∧
  (∀ (s : State) (p : Pend) (v : W64) (r : Nat), let c := s.ev.core
    let k := s.core c
    hasCore s c = true → k.ctx.pends = [p] → shadowDue k = [] → p.due ≤ k.clk.arch → p.late = false → lateTrap p = none →
      p = { p with effs := [.csr r v], dst := .none, latch := none, flags := 0, istat := 0 } → r = 0x05 ∨ r = 0x06 →
      CoreEvent s .resultLanding c (k.updCtx (fun x => { x with pends := [] }))) ∧
  (∀ c, hasCore State.reset c = true → (State.reset.core c).main.loops = [] ∧ (State.reset.core c).urg.loops = [])

/-- 01:R13, R14, R16, 05:R90, R94, R102, 19:R391, 20:R403, R405: the machine right after reset: its units are there, every core idle and of
no partition, every register of R90 0 but the fixed ones, FMT 0, CLMASK 0xFF, no handler and no trap, no partition formed, no task, and
every memory empty, which is the canonical form. (That registers and memories stand so before the first task is the model's choice: log
entries 1 and 5.) -/
def Obligations.ResetState : Prop :=
  let r := State.reset
  Units r ∧ MemoriesCanonical r ∧ r.sys = [] ∧ r.gangs = [] ∧ r.launches = [] ∧ r.flits = [] ∧ r.inputs = [] ∧ r.svc.busy = false ∧
  (∀ p < 8, (getPart r p).formed = false ∧ (getPart r p).evCount = 0 ∧ (getPart r p).ovCount = 0 ∧ (getPart r p).evFull = false) ∧
  (∀ c, hasCore r c = true → let k := r.core c
    k.run = .idle ∧ k.part = none ∧ k.ph.gang = none ∧ k.ph.inph = false ∧ k.tp.active = false ∧ k.tp.shadow = [] ∧ k.tr.tvec = 0 ∧ k.tr.tcause = 0
    ∧ k.near.mem = [] ∧ k.near.poison = [] ∧ (∀ i < 16, readK k i = 0) ∧ (∀ i < 8, k.mp.getD i 0 = 0)
    ∧ ∀ x ∈ [k.main, k.urg], (∀ i < 32, readS x i = 0) ∧ (∀ y i, i < 32 → ∀ l < 128, lane (readV x y i) l = 0)
      ∧ (∀ n i, i < 16 → readA x n i = 0) ∧ (∀ i < 8, readG x i = decide (i = 0))
      ∧ (∀ y i, i < 8 → readMask x y i = if i = 0 then BitVec.allOnes 128 else 0)
      ∧ (∀ l < 6, ∀ i < 4, ∀ t, latchAt x l i t = none)
      ∧ x.fmt = 0 ∧ x.clmask = 0xFF ∧ x.sel0 = 0 ∧ x.sel1 = 0 ∧ x.fflags = 0 ∧ x.istat = 0 ∧ x.loops = [] ∧ x.redirs = [] ∧ x.pends = [])

/-- 01:R13, R14, 10:R188, R191: every step keeps the units of the package, and keeps every memory of the chip (system memory, the vaults and
data memories, the instruction stores) in its one canonical form, whatever the step is: an instruction, an event of an engine, an input. -/
def Obligations.StepKeepsMemoriesCanonical : Prop :=
  ∀ s t, Units s → MemoriesCanonical s → step s = .next t → Units t ∧ MemoriesCanonical t
end

