-- ==== Sys2Proof/Laws/State.lean ====
section
/-!
SUPPORT. One lemma per field of State for each update that the meanings share: what it changes and what it leaves.
-/

namespace Sys2Proof.Machine

/-! ### Replacing a core -/

@[simp] theorem setCore_now (s : State) (c : CoreRef) (k : Core) : (s.setCore c k).now = s.now := by
  unfold State.setCore; split <;> rfl

@[simp] theorem setCore_half (s : State) (c : CoreRef) (k : Core) : (s.setCore c k).half = s.half := by
  unfold State.setCore; split <;> rfl

@[simp] theorem setCore_dccBase (s : State) (c : CoreRef) (k : Core) : (s.setCore c k).dccBase = s.dccBase := by
  unfold State.setCore; split <;> rfl

@[simp] theorem setCore_oracle (s : State) (c : CoreRef) (k : Core) : (s.setCore c k).oracle = s.oracle := by
  unfold State.setCore; split <;> rfl

@[simp] theorem setCore_serial (s : State) (c : CoreRef) (k : Core) : (s.setCore c k).serial = s.serial := by
  unfold State.setCore; split <;> rfl

@[simp] theorem setCore_cur (s : State) (c : CoreRef) (k : Core) : (s.setCore c k).cur = s.cur := by
  unfold State.setCore; split <;> rfl

@[simp] theorem setCore_ev (s : State) (c : CoreRef) (k : Core) : (s.setCore c k).ev = s.ev := by
  unfold State.setCore; split <;> rfl

@[simp] theorem setCore_inputs (s : State) (c : CoreRef) (k : Core) : (s.setCore c k).inputs = s.inputs := by
  unfold State.setCore; split <;> rfl

@[simp] theorem setCore_outbox (s : State) (c : CoreRef) (k : Core) : (s.setCore c k).outbox = s.outbox := by
  unfold State.setCore; split <;> rfl

@[simp] theorem setCore_chip (s : State) (c : CoreRef) (k : Core) : (s.setCore c k).chip = s.chip := by
  unfold State.setCore; split <;> rfl

@[simp] theorem setCore_domain (s : State) (c : CoreRef) (k : Core) : (s.setCore c k).domain = s.domain := by
  unfold State.setCore; split <;> rfl

@[simp] theorem setCore_alignLost (s : State) (c : CoreRef) (k : Core) : (s.setCore c k).alignLost = s.alignLost := by
  unfold State.setCore; split <;> rfl

@[simp] theorem setCore_sys (s : State) (c : CoreRef) (k : Core) : (s.setCore c k).sys = s.sys := by
  unfold State.setCore; split <;> rfl

@[simp] theorem setCore_syspoison (s : State) (c : CoreRef) (k : Core) : (s.setCore c k).syspoison = s.syspoison := by
  unfold State.setCore; split <;> rfl

@[simp] theorem setCore_syscerr (s : State) (c : CoreRef) (k : Core) : (s.setCore c k).syscerr = s.syscerr := by
  unfold State.setCore; split <;> rfl

@[simp] theorem setCore_sysuerr (s : State) (c : CoreRef) (k : Core) : (s.setCore c k).sysuerr = s.sysuerr := by
  unfold State.setCore; split <;> rfl

@[simp] theorem setCore_links (s : State) (c : CoreRef) (k : Core) : (s.setCore c k).links = s.links := by
  unfold State.setCore; split <;> rfl

@[simp] theorem setCore_tlbs (s : State) (c : CoreRef) (k : Core) : (s.setCore c k).tlbs = s.tlbs := by
  unfold State.setCore; split <;> rfl

@[simp] theorem setCore_walks (s : State) (c : CoreRef) (k : Core) : (s.setCore c k).walks = s.walks := by
  unfold State.setCore; split <;> rfl

@[simp] theorem setCore_parts (s : State) (c : CoreRef) (k : Core) : (s.setCore c k).parts = s.parts := by
  unfold State.setCore; split <;> rfl

@[simp] theorem setCore_gangs (s : State) (c : CoreRef) (k : Core) : (s.setCore c k).gangs = s.gangs := by
  unfold State.setCore; split <;> rfl

@[simp] theorem setCore_launches (s : State) (c : CoreRef) (k : Core) : (s.setCore c k).launches = s.launches := by
  unfold State.setCore; split <;> rfl

@[simp] theorem setCore_launchId (s : State) (c : CoreRef) (k : Core) : (s.setCore c k).launchId = s.launchId := by
  unfold State.setCore; split <;> rfl

@[simp] theorem setCore_ports (s : State) (c : CoreRef) (k : Core) : (s.setCore c k).ports = s.ports := by
  unfold State.setCore; split <;> rfl

@[simp] theorem setCore_flits (s : State) (c : CoreRef) (k : Core) : (s.setCore c k).flits = s.flits := by
  unfold State.setCore; split <;> rfl

@[simp] theorem setCore_groups (s : State) (c : CoreRef) (k : Core) : (s.setCore c k).groups = s.groups := by
  unfold State.setCore; split <;> rfl

@[simp] theorem setCore_replies (s : State) (c : CoreRef) (k : Core) : (s.setCore c k).replies = s.replies := by
  unfold State.setCore; split <;> rfl

@[simp] theorem setCore_ratoms (s : State) (c : CoreRef) (k : Core) : (s.setCore c k).ratoms = s.ratoms := by
  unfold State.setCore; split <;> rfl

@[simp] theorem setCore_svc (s : State) (c : CoreRef) (k : Core) : (s.setCore c k).svc = s.svc := by
  unfold State.setCore; split <;> rfl

@[simp] theorem setCore_stepReq (s : State) (c : CoreRef) (k : Core) : (s.setCore c k).stepReq = s.stepReq := by
  unfold State.setCore; split <;> rfl

@[simp] theorem setCore_cool (s : State) (c : CoreRef) (k : Core) : (s.setCore c k).cool = s.cool := by
  unfold State.setCore; split <;> rfl

@[simp] theorem setCore_refresh (s : State) (c : CoreRef) (k : Core) : (s.setCore c k).refresh = s.refresh := by
  unfold State.setCore; split <;> rfl

@[simp] theorem setCore_notices (s : State) (c : CoreRef) (k : Core) : (s.setCore c k).notices = s.notices := by
  unfold State.setCore; split <;> rfl

@[simp] theorem setCore_vms_length (s : State) (c : CoreRef) (k : Core) : (s.setCore c k).vms.length = s.vms.length := by
  unfold State.setCore; split <;> simp

@[simp] theorem setCore_ccs_length (s : State) (c : CoreRef) (k : Core) : (s.setCore c k).ccs.length = s.ccs.length := by
  unfold State.setCore; split <;> simp

@[simp] theorem hasCore_setCore (s : State) (c d : CoreRef) (k : Core) : hasCore (s.setCore c k) d = hasCore s d := by
  unfold hasCore; cases d.cc <;> simp

theorem getD_set_self {α : Type} (l : List α) (i : Nat) (x d : α) (h : i < l.length) : (l.set i x).getD i d = x := by
  rw [List.getD_eq_getElem?_getD, List.getElem?_set_self h, Option.getD_some]

theorem getD_set_other {α : Type} (l : List α) (i j : Nat) (x d : α) (h : i ≠ j) : (l.set i x).getD j d = l.getD j d := by
  rw [List.getD_eq_getElem?_getD, List.getElem?_set_ne h, List.getD_eq_getElem?_getD]

theorem core_setCore_self (s : State) (c : CoreRef) (k : Core) (h : hasCore s c = true) : (s.setCore c k).core c = k := by
  obtain ⟨cc, n⟩ := c
  cases cc
  · exact getD_set_self _ _ _ _ (of_decide_eq_true h)
  · exact getD_set_self _ _ _ _ (of_decide_eq_true h)

theorem core_setCore_other (s : State) (c d : CoreRef) (k : Core) (h : d ≠ c) : (s.setCore c k).core d = s.core d := by
  obtain ⟨cc, n⟩ := c
  obtain ⟨cd, m⟩ := d
  cases cc <;> cases cd
  · exact getD_set_other _ _ _ _ _ (fun e : n = m => h (by rw [e]))
  · rfl
  · rfl
  · exact getD_set_other _ _ _ _ _ (fun e : n = m => h (by rw [e]))

/-! ### Changing a core -/

@[simp] theorem upd_now (s : State) (c : CoreRef) (f : Core → Core) : (s.upd c f).now = s.now := setCore_now _ _ _

@[simp] theorem upd_half (s : State) (c : CoreRef) (f : Core → Core) : (s.upd c f).half = s.half := setCore_half _ _ _

@[simp] theorem upd_dccBase (s : State) (c : CoreRef) (f : Core → Core) : (s.upd c f).dccBase = s.dccBase := setCore_dccBase _ _ _

@[simp] theorem upd_oracle (s : State) (c : CoreRef) (f : Core → Core) : (s.upd c f).oracle = s.oracle := setCore_oracle _ _ _

@[simp] theorem upd_serial (s : State) (c : CoreRef) (f : Core → Core) : (s.upd c f).serial = s.serial := setCore_serial _ _ _

@[simp] theorem upd_cur (s : State) (c : CoreRef) (f : Core → Core) : (s.upd c f).cur = s.cur := setCore_cur _ _ _

@[simp] theorem upd_ev (s : State) (c : CoreRef) (f : Core → Core) : (s.upd c f).ev = s.ev := setCore_ev _ _ _

@[simp] theorem upd_inputs (s : State) (c : CoreRef) (f : Core → Core) : (s.upd c f).inputs = s.inputs := setCore_inputs _ _ _

@[simp] theorem upd_outbox (s : State) (c : CoreRef) (f : Core → Core) : (s.upd c f).outbox = s.outbox := setCore_outbox _ _ _

@[simp] theorem upd_chip (s : State) (c : CoreRef) (f : Core → Core) : (s.upd c f).chip = s.chip := setCore_chip _ _ _

@[simp] theorem upd_domain (s : State) (c : CoreRef) (f : Core → Core) : (s.upd c f).domain = s.domain := setCore_domain _ _ _

@[simp] theorem upd_alignLost (s : State) (c : CoreRef) (f : Core → Core) : (s.upd c f).alignLost = s.alignLost := setCore_alignLost _ _ _

@[simp] theorem upd_sys (s : State) (c : CoreRef) (f : Core → Core) : (s.upd c f).sys = s.sys := setCore_sys _ _ _

@[simp] theorem upd_syspoison (s : State) (c : CoreRef) (f : Core → Core) : (s.upd c f).syspoison = s.syspoison := setCore_syspoison _ _ _

@[simp] theorem upd_syscerr (s : State) (c : CoreRef) (f : Core → Core) : (s.upd c f).syscerr = s.syscerr := setCore_syscerr _ _ _

@[simp] theorem upd_sysuerr (s : State) (c : CoreRef) (f : Core → Core) : (s.upd c f).sysuerr = s.sysuerr := setCore_sysuerr _ _ _

@[simp] theorem upd_links (s : State) (c : CoreRef) (f : Core → Core) : (s.upd c f).links = s.links := setCore_links _ _ _

@[simp] theorem upd_tlbs (s : State) (c : CoreRef) (f : Core → Core) : (s.upd c f).tlbs = s.tlbs := setCore_tlbs _ _ _

@[simp] theorem upd_walks (s : State) (c : CoreRef) (f : Core → Core) : (s.upd c f).walks = s.walks := setCore_walks _ _ _

@[simp] theorem upd_parts (s : State) (c : CoreRef) (f : Core → Core) : (s.upd c f).parts = s.parts := setCore_parts _ _ _

@[simp] theorem upd_gangs (s : State) (c : CoreRef) (f : Core → Core) : (s.upd c f).gangs = s.gangs := setCore_gangs _ _ _

@[simp] theorem upd_launches (s : State) (c : CoreRef) (f : Core → Core) : (s.upd c f).launches = s.launches := setCore_launches _ _ _

@[simp] theorem upd_launchId (s : State) (c : CoreRef) (f : Core → Core) : (s.upd c f).launchId = s.launchId := setCore_launchId _ _ _

@[simp] theorem upd_ports (s : State) (c : CoreRef) (f : Core → Core) : (s.upd c f).ports = s.ports := setCore_ports _ _ _

@[simp] theorem upd_flits (s : State) (c : CoreRef) (f : Core → Core) : (s.upd c f).flits = s.flits := setCore_flits _ _ _

@[simp] theorem upd_groups (s : State) (c : CoreRef) (f : Core → Core) : (s.upd c f).groups = s.groups := setCore_groups _ _ _

@[simp] theorem upd_replies (s : State) (c : CoreRef) (f : Core → Core) : (s.upd c f).replies = s.replies := setCore_replies _ _ _

@[simp] theorem upd_ratoms (s : State) (c : CoreRef) (f : Core → Core) : (s.upd c f).ratoms = s.ratoms := setCore_ratoms _ _ _

@[simp] theorem upd_svc (s : State) (c : CoreRef) (f : Core → Core) : (s.upd c f).svc = s.svc := setCore_svc _ _ _

@[simp] theorem upd_stepReq (s : State) (c : CoreRef) (f : Core → Core) : (s.upd c f).stepReq = s.stepReq := setCore_stepReq _ _ _

@[simp] theorem upd_cool (s : State) (c : CoreRef) (f : Core → Core) : (s.upd c f).cool = s.cool := setCore_cool _ _ _

@[simp] theorem upd_refresh (s : State) (c : CoreRef) (f : Core → Core) : (s.upd c f).refresh = s.refresh := setCore_refresh _ _ _

@[simp] theorem upd_notices (s : State) (c : CoreRef) (f : Core → Core) : (s.upd c f).notices = s.notices := setCore_notices _ _ _

@[simp] theorem upd_vms_length (s : State) (c : CoreRef) (f : Core → Core) : (s.upd c f).vms.length = s.vms.length :=
  setCore_vms_length _ _ _

@[simp] theorem upd_ccs_length (s : State) (c : CoreRef) (f : Core → Core) : (s.upd c f).ccs.length = s.ccs.length :=
  setCore_ccs_length _ _ _

@[simp] theorem hasCore_upd (s : State) (c d : CoreRef) (f : Core → Core) : hasCore (s.upd c f) d = hasCore s d :=
  hasCore_setCore _ _ _ _

theorem core_upd_self (s : State) (c : CoreRef) (f : Core → Core) (h : hasCore s c = true) : (s.upd c f).core c = f (s.core c) :=
  core_setCore_self _ _ _ h

theorem core_upd_other (s : State) (c d : CoreRef) (f : Core → Core) (h : d ≠ c) : (s.upd c f).core d = s.core d :=
  core_setCore_other _ _ _ _ h

/-! ### Changing a partition -/

@[simp] theorem updPart_now (s : State) (p : Nat) (f : Part → Part) : (updPart s p f).now = s.now := rfl

@[simp] theorem updPart_half (s : State) (p : Nat) (f : Part → Part) : (updPart s p f).half = s.half := rfl

@[simp] theorem updPart_dccBase (s : State) (p : Nat) (f : Part → Part) : (updPart s p f).dccBase = s.dccBase := rfl

@[simp] theorem updPart_oracle (s : State) (p : Nat) (f : Part → Part) : (updPart s p f).oracle = s.oracle := rfl

@[simp] theorem updPart_serial (s : State) (p : Nat) (f : Part → Part) : (updPart s p f).serial = s.serial := rfl

@[simp] theorem updPart_cur (s : State) (p : Nat) (f : Part → Part) : (updPart s p f).cur = s.cur := rfl

@[simp] theorem updPart_ev (s : State) (p : Nat) (f : Part → Part) : (updPart s p f).ev = s.ev := rfl

@[simp] theorem updPart_inputs (s : State) (p : Nat) (f : Part → Part) : (updPart s p f).inputs = s.inputs := rfl

@[simp] theorem updPart_outbox (s : State) (p : Nat) (f : Part → Part) : (updPart s p f).outbox = s.outbox := rfl

@[simp] theorem updPart_vms (s : State) (p : Nat) (f : Part → Part) : (updPart s p f).vms = s.vms := rfl

@[simp] theorem updPart_ccs (s : State) (p : Nat) (f : Part → Part) : (updPart s p f).ccs = s.ccs := rfl

@[simp] theorem updPart_chip (s : State) (p : Nat) (f : Part → Part) : (updPart s p f).chip = s.chip := rfl

@[simp] theorem updPart_domain (s : State) (p : Nat) (f : Part → Part) : (updPart s p f).domain = s.domain := rfl

@[simp] theorem updPart_alignLost (s : State) (p : Nat) (f : Part → Part) : (updPart s p f).alignLost = s.alignLost := rfl

@[simp] theorem updPart_sys (s : State) (p : Nat) (f : Part → Part) : (updPart s p f).sys = s.sys := rfl

@[simp] theorem updPart_syspoison (s : State) (p : Nat) (f : Part → Part) : (updPart s p f).syspoison = s.syspoison := rfl

@[simp] theorem updPart_syscerr (s : State) (p : Nat) (f : Part → Part) : (updPart s p f).syscerr = s.syscerr := rfl

@[simp] theorem updPart_sysuerr (s : State) (p : Nat) (f : Part → Part) : (updPart s p f).sysuerr = s.sysuerr := rfl

@[simp] theorem updPart_links (s : State) (p : Nat) (f : Part → Part) : (updPart s p f).links = s.links := rfl

@[simp] theorem updPart_tlbs (s : State) (p : Nat) (f : Part → Part) : (updPart s p f).tlbs = s.tlbs := rfl

@[simp] theorem updPart_walks (s : State) (p : Nat) (f : Part → Part) : (updPart s p f).walks = s.walks := rfl

@[simp] theorem updPart_gangs (s : State) (p : Nat) (f : Part → Part) : (updPart s p f).gangs = s.gangs := rfl

@[simp] theorem updPart_launches (s : State) (p : Nat) (f : Part → Part) : (updPart s p f).launches = s.launches := rfl

@[simp] theorem updPart_launchId (s : State) (p : Nat) (f : Part → Part) : (updPart s p f).launchId = s.launchId := rfl

@[simp] theorem updPart_ports (s : State) (p : Nat) (f : Part → Part) : (updPart s p f).ports = s.ports := rfl

@[simp] theorem updPart_flits (s : State) (p : Nat) (f : Part → Part) : (updPart s p f).flits = s.flits := rfl

@[simp] theorem updPart_groups (s : State) (p : Nat) (f : Part → Part) : (updPart s p f).groups = s.groups := rfl

@[simp] theorem updPart_replies (s : State) (p : Nat) (f : Part → Part) : (updPart s p f).replies = s.replies := rfl

@[simp] theorem updPart_ratoms (s : State) (p : Nat) (f : Part → Part) : (updPart s p f).ratoms = s.ratoms := rfl

@[simp] theorem updPart_svc (s : State) (p : Nat) (f : Part → Part) : (updPart s p f).svc = s.svc := rfl

@[simp] theorem updPart_stepReq (s : State) (p : Nat) (f : Part → Part) : (updPart s p f).stepReq = s.stepReq := rfl

@[simp] theorem updPart_cool (s : State) (p : Nat) (f : Part → Part) : (updPart s p f).cool = s.cool := rfl

@[simp] theorem updPart_refresh (s : State) (p : Nat) (f : Part → Part) : (updPart s p f).refresh = s.refresh := rfl

@[simp] theorem updPart_notices (s : State) (p : Nat) (f : Part → Part) : (updPart s p f).notices = s.notices := rfl

@[simp] theorem updPart_parts_length (s : State) (p : Nat) (f : Part → Part) : (updPart s p f).parts.length = s.parts.length := by
  simp [updPart]

@[simp] theorem updPart_core (s : State) (p : Nat) (f : Part → Part) (c : CoreRef) : (updPart s p f).core c = s.core c := rfl

/-! ### Changing a gang -/

@[simp] theorem updGang_now (s : State) (g : Nat) (f : Gang → Gang) : (updGang s g f).now = s.now := rfl

@[simp] theorem updGang_half (s : State) (g : Nat) (f : Gang → Gang) : (updGang s g f).half = s.half := rfl

@[simp] theorem updGang_dccBase (s : State) (g : Nat) (f : Gang → Gang) : (updGang s g f).dccBase = s.dccBase := rfl

@[simp] theorem updGang_oracle (s : State) (g : Nat) (f : Gang → Gang) : (updGang s g f).oracle = s.oracle := rfl

@[simp] theorem updGang_serial (s : State) (g : Nat) (f : Gang → Gang) : (updGang s g f).serial = s.serial := rfl

@[simp] theorem updGang_cur (s : State) (g : Nat) (f : Gang → Gang) : (updGang s g f).cur = s.cur := rfl

@[simp] theorem updGang_ev (s : State) (g : Nat) (f : Gang → Gang) : (updGang s g f).ev = s.ev := rfl

@[simp] theorem updGang_inputs (s : State) (g : Nat) (f : Gang → Gang) : (updGang s g f).inputs = s.inputs := rfl

@[simp] theorem updGang_outbox (s : State) (g : Nat) (f : Gang → Gang) : (updGang s g f).outbox = s.outbox := rfl

@[simp] theorem updGang_vms (s : State) (g : Nat) (f : Gang → Gang) : (updGang s g f).vms = s.vms := rfl

@[simp] theorem updGang_ccs (s : State) (g : Nat) (f : Gang → Gang) : (updGang s g f).ccs = s.ccs := rfl

@[simp] theorem updGang_chip (s : State) (g : Nat) (f : Gang → Gang) : (updGang s g f).chip = s.chip := rfl

@[simp] theorem updGang_domain (s : State) (g : Nat) (f : Gang → Gang) : (updGang s g f).domain = s.domain := rfl

@[simp] theorem updGang_alignLost (s : State) (g : Nat) (f : Gang → Gang) : (updGang s g f).alignLost = s.alignLost := rfl

@[simp] theorem updGang_sys (s : State) (g : Nat) (f : Gang → Gang) : (updGang s g f).sys = s.sys := rfl

@[simp] theorem updGang_syspoison (s : State) (g : Nat) (f : Gang → Gang) : (updGang s g f).syspoison = s.syspoison := rfl

@[simp] theorem updGang_syscerr (s : State) (g : Nat) (f : Gang → Gang) : (updGang s g f).syscerr = s.syscerr := rfl

@[simp] theorem updGang_sysuerr (s : State) (g : Nat) (f : Gang → Gang) : (updGang s g f).sysuerr = s.sysuerr := rfl

@[simp] theorem updGang_links (s : State) (g : Nat) (f : Gang → Gang) : (updGang s g f).links = s.links := rfl

@[simp] theorem updGang_tlbs (s : State) (g : Nat) (f : Gang → Gang) : (updGang s g f).tlbs = s.tlbs := rfl

@[simp] theorem updGang_walks (s : State) (g : Nat) (f : Gang → Gang) : (updGang s g f).walks = s.walks := rfl

@[simp] theorem updGang_parts (s : State) (g : Nat) (f : Gang → Gang) : (updGang s g f).parts = s.parts := rfl

@[simp] theorem updGang_launches (s : State) (g : Nat) (f : Gang → Gang) : (updGang s g f).launches = s.launches := rfl

@[simp] theorem updGang_launchId (s : State) (g : Nat) (f : Gang → Gang) : (updGang s g f).launchId = s.launchId := rfl

@[simp] theorem updGang_ports (s : State) (g : Nat) (f : Gang → Gang) : (updGang s g f).ports = s.ports := rfl

@[simp] theorem updGang_flits (s : State) (g : Nat) (f : Gang → Gang) : (updGang s g f).flits = s.flits := rfl

@[simp] theorem updGang_groups (s : State) (g : Nat) (f : Gang → Gang) : (updGang s g f).groups = s.groups := rfl

@[simp] theorem updGang_replies (s : State) (g : Nat) (f : Gang → Gang) : (updGang s g f).replies = s.replies := rfl

@[simp] theorem updGang_ratoms (s : State) (g : Nat) (f : Gang → Gang) : (updGang s g f).ratoms = s.ratoms := rfl

@[simp] theorem updGang_svc (s : State) (g : Nat) (f : Gang → Gang) : (updGang s g f).svc = s.svc := rfl

@[simp] theorem updGang_stepReq (s : State) (g : Nat) (f : Gang → Gang) : (updGang s g f).stepReq = s.stepReq := rfl

@[simp] theorem updGang_cool (s : State) (g : Nat) (f : Gang → Gang) : (updGang s g f).cool = s.cool := rfl

@[simp] theorem updGang_refresh (s : State) (g : Nat) (f : Gang → Gang) : (updGang s g f).refresh = s.refresh := rfl

@[simp] theorem updGang_notices (s : State) (g : Nat) (f : Gang → Gang) : (updGang s g f).notices = s.notices := rfl

@[simp] theorem updGang_core (s : State) (g : Nat) (f : Gang → Gang) (c : CoreRef) : (updGang s g f).core c = s.core c := rfl

/-! ### Ending a task -/

@[simp] theorem endTask_now (s : State) (g a b : Nat) : (endTask s g a b).now = s.now := rfl

@[simp] theorem endTask_half (s : State) (g a b : Nat) : (endTask s g a b).half = s.half := rfl

@[simp] theorem endTask_dccBase (s : State) (g a b : Nat) : (endTask s g a b).dccBase = s.dccBase := rfl

@[simp] theorem endTask_oracle (s : State) (g a b : Nat) : (endTask s g a b).oracle = s.oracle := rfl

@[simp] theorem endTask_serial (s : State) (g a b : Nat) : (endTask s g a b).serial = s.serial := rfl

@[simp] theorem endTask_cur (s : State) (g a b : Nat) : (endTask s g a b).cur = s.cur := rfl

@[simp] theorem endTask_ev (s : State) (g a b : Nat) : (endTask s g a b).ev = s.ev := rfl

@[simp] theorem endTask_inputs (s : State) (g a b : Nat) : (endTask s g a b).inputs = s.inputs := rfl

@[simp] theorem endTask_outbox (s : State) (g a b : Nat) : (endTask s g a b).outbox = s.outbox := rfl

@[simp] theorem endTask_vms (s : State) (g a b : Nat) : (endTask s g a b).vms = s.vms := rfl

@[simp] theorem endTask_ccs (s : State) (g a b : Nat) : (endTask s g a b).ccs = s.ccs := rfl

@[simp] theorem endTask_chip (s : State) (g a b : Nat) : (endTask s g a b).chip = s.chip := rfl

@[simp] theorem endTask_domain (s : State) (g a b : Nat) : (endTask s g a b).domain = s.domain := rfl

@[simp] theorem endTask_alignLost (s : State) (g a b : Nat) : (endTask s g a b).alignLost = s.alignLost := rfl

@[simp] theorem endTask_sys (s : State) (g a b : Nat) : (endTask s g a b).sys = s.sys := rfl

@[simp] theorem endTask_syspoison (s : State) (g a b : Nat) : (endTask s g a b).syspoison = s.syspoison := rfl

@[simp] theorem endTask_syscerr (s : State) (g a b : Nat) : (endTask s g a b).syscerr = s.syscerr := rfl

@[simp] theorem endTask_sysuerr (s : State) (g a b : Nat) : (endTask s g a b).sysuerr = s.sysuerr := rfl

@[simp] theorem endTask_links (s : State) (g a b : Nat) : (endTask s g a b).links = s.links := rfl

@[simp] theorem endTask_tlbs (s : State) (g a b : Nat) : (endTask s g a b).tlbs = s.tlbs := rfl

@[simp] theorem endTask_walks (s : State) (g a b : Nat) : (endTask s g a b).walks = s.walks := rfl

@[simp] theorem endTask_parts (s : State) (g a b : Nat) : (endTask s g a b).parts = s.parts := rfl

@[simp] theorem endTask_launches (s : State) (g a b : Nat) : (endTask s g a b).launches = s.launches := rfl

@[simp] theorem endTask_launchId (s : State) (g a b : Nat) : (endTask s g a b).launchId = s.launchId := rfl

@[simp] theorem endTask_ports (s : State) (g a b : Nat) : (endTask s g a b).ports = s.ports := rfl

@[simp] theorem endTask_flits (s : State) (g a b : Nat) : (endTask s g a b).flits = s.flits := rfl

@[simp] theorem endTask_groups (s : State) (g a b : Nat) : (endTask s g a b).groups = s.groups := rfl

@[simp] theorem endTask_replies (s : State) (g a b : Nat) : (endTask s g a b).replies = s.replies := rfl

@[simp] theorem endTask_ratoms (s : State) (g a b : Nat) : (endTask s g a b).ratoms = s.ratoms := rfl

@[simp] theorem endTask_svc (s : State) (g a b : Nat) : (endTask s g a b).svc = s.svc := rfl

@[simp] theorem endTask_stepReq (s : State) (g a b : Nat) : (endTask s g a b).stepReq = s.stepReq := rfl

@[simp] theorem endTask_cool (s : State) (g a b : Nat) : (endTask s g a b).cool = s.cool := rfl

@[simp] theorem endTask_refresh (s : State) (g a b : Nat) : (endTask s g a b).refresh = s.refresh := rfl

@[simp] theorem endTask_notices (s : State) (g a b : Nat) : (endTask s g a b).notices = s.notices := rfl

/-! ### The issuing context of a core -/

@[simp] theorem setCtx_k (k : Core) (x : Ctx) : (k.setCtx x).k = k.k := by
  unfold Core.setCtx; split <;> rfl

@[simp] theorem updCtx_k (k : Core) (f : Ctx → Ctx) : (k.updCtx f).k = k.k := setCtx_k _ _

@[simp] theorem setCtx_mp (k : Core) (x : Ctx) : (k.setCtx x).mp = k.mp := by
  unfold Core.setCtx; split <;> rfl

@[simp] theorem updCtx_mp (k : Core) (f : Ctx → Ctx) : (k.updCtx f).mp = k.mp := setCtx_mp _ _

@[simp] theorem setCtx_tr (k : Core) (x : Ctx) : (k.setCtx x).tr = k.tr := by
  unfold Core.setCtx; split <;> rfl

@[simp] theorem updCtx_tr (k : Core) (f : Ctx → Ctx) : (k.updCtx f).tr = k.tr := setCtx_tr _ _

@[simp] theorem setCtx_tp (k : Core) (x : Ctx) : (k.setCtx x).tp = k.tp := by
  unfold Core.setCtx; split <;> rfl

@[simp] theorem updCtx_tp (k : Core) (f : Ctx → Ctx) : (k.updCtx f).tp = k.tp := setCtx_tp _ _

@[simp] theorem setCtx_clk (k : Core) (x : Ctx) : (k.setCtx x).clk = k.clk := by
  unfold Core.setCtx; split <;> rfl

@[simp] theorem updCtx_clk (k : Core) (f : Ctx → Ctx) : (k.updCtx f).clk = k.clk := setCtx_clk _ _

@[simp] theorem setCtx_ph (k : Core) (x : Ctx) : (k.setCtx x).ph = k.ph := by
  unfold Core.setCtx; split <;> rfl

@[simp] theorem updCtx_ph (k : Core) (f : Ctx → Ctx) : (k.updCtx f).ph = k.ph := setCtx_ph _ _

@[simp] theorem setCtx_run (k : Core) (x : Ctx) : (k.setCtx x).run = k.run := by
  unfold Core.setCtx; split <;> rfl

@[simp] theorem updCtx_run (k : Core) (f : Ctx → Ctx) : (k.updCtx f).run = k.run := setCtx_run _ _

@[simp] theorem setCtx_near (k : Core) (x : Ctx) : (k.setCtx x).near = k.near := by
  unfold Core.setCtx; split <;> rfl

@[simp] theorem updCtx_near (k : Core) (f : Ctx → Ctx) : (k.updCtx f).near = k.near := setCtx_near _ _

@[simp] theorem setCtx_eng (k : Core) (x : Ctx) : (k.setCtx x).eng = k.eng := by
  unfold Core.setCtx; split <;> rfl

@[simp] theorem updCtx_eng (k : Core) (f : Ctx → Ctx) : (k.updCtx f).eng = k.eng := setCtx_eng _ _

@[simp] theorem setCtx_mx (k : Core) (x : Ctx) : (k.setCtx x).mx = k.mx := by
  unfold Core.setCtx; split <;> rfl

@[simp] theorem updCtx_mx (k : Core) (f : Ctx → Ctx) : (k.updCtx f).mx = k.mx := setCtx_mx _ _

@[simp] theorem setCtx_ctl (k : Core) (x : Ctx) : (k.setCtx x).ctl = k.ctl := by
  unfold Core.setCtx; split <;> rfl

@[simp] theorem updCtx_ctl (k : Core) (f : Ctx → Ctx) : (k.updCtx f).ctl = k.ctl := setCtx_ctl _ _

@[simp] theorem setCtx_istore (k : Core) (x : Ctx) : (k.setCtx x).istore = k.istore := by
  unfold Core.setCtx; split <;> rfl

@[simp] theorem updCtx_istore (k : Core) (f : Ctx → Ctx) : (k.updCtx f).istore = k.istore := setCtx_istore _ _

@[simp] theorem setCtx_codelen (k : Core) (x : Ctx) : (k.setCtx x).codelen = k.codelen := by
  unfold Core.setCtx; split <;> rfl

@[simp] theorem updCtx_codelen (k : Core) (f : Ctx → Ctx) : (k.updCtx f).codelen = k.codelen := setCtx_codelen _ _

@[simp] theorem setCtx_part (k : Core) (x : Ctx) : (k.setCtx x).part = k.part := by
  unfold Core.setCtx; split <;> rfl

@[simp] theorem updCtx_part (k : Core) (f : Ctx → Ctx) : (k.updCtx f).part = k.part := setCtx_part _ _

@[simp] theorem setCtx_thermal (k : Core) (x : Ctx) : (k.setCtx x).thermal = k.thermal := by
  unfold Core.setCtx; split <;> rfl

@[simp] theorem updCtx_thermal (k : Core) (f : Ctx → Ctx) : (k.updCtx f).thermal = k.thermal := setCtx_thermal _ _

@[simp] theorem setCtx_lastClaim (k : Core) (x : Ctx) : (k.setCtx x).lastClaim = k.lastClaim := by
  unfold Core.setCtx; split <;> rfl

@[simp] theorem updCtx_lastClaim (k : Core) (f : Ctx → Ctx) : (k.updCtx f).lastClaim = k.lastClaim := setCtx_lastClaim _ _

@[simp] theorem setCtx_spared (k : Core) (x : Ctx) : (k.setCtx x).spared = k.spared := by
  unfold Core.setCtx; split <;> rfl

@[simp] theorem updCtx_spared (k : Core) (f : Ctx → Ctx) : (k.updCtx f).spared = k.spared := setCtx_spared _ _

@[simp] theorem setCtx_loads (k : Core) (x : Ctx) : (k.setCtx x).loads = k.loads := by
  unfold Core.setCtx; split <;> rfl

@[simp] theorem updCtx_loads (k : Core) (f : Ctx → Ctx) : (k.updCtx f).loads = k.loads := setCtx_loads _ _

@[simp] theorem ctx_setCtx (k : Core) (x : Ctx) : (k.setCtx x).ctx = x := by
  cases h : k.tp.active <;> simp [Core.setCtx, Core.ctx, h]

@[simp] theorem ctx_updCtx (k : Core) (f : Ctx → Ctx) : (k.updCtx f).ctx = f k.ctx := ctx_setCtx _ _

end Sys2Proof.Machine
end

