-- ==== Sys2Proof/Laws/Mem.lean ====
section
/-!
SUPPORT. Memory in its canonical form: what a byte reads after a write, and that every memory operation keeps the form.
-/

namespace Sys2Proof.Machine

/-! ### Canonical form -/

theorem memWfFrom_weaken {lo : Option Nat} {m : List Host.Cell} (h : memWfFrom lo m = true) : memWfFrom none m = true := by
  cases m with
  | nil => rfl
  | cons c t =>
    obtain ⟨k, v⟩ := c
    simp only [memWfFrom, Bool.and_eq_true] at h ⊢
    exact ⟨⟨trivial, h.1.2⟩, h.2⟩

/-- The parts of the form at one entry. -/
theorem memWfFrom_cons {lo : Option Nat} {k : Nat} {v : W8} {t : List Host.Cell} :
    memWfFrom lo ((k, v) :: t) = true ↔ (∀ l, lo = some l → l < k) ∧ v ≠ unlisted ∧ memWfFrom (some k) t = true := by
  cases lo <;> simp [memWfFrom, and_assoc]

theorem memSet_wfFrom (m : List Host.Cell) (lo : Option Nat) (a : Nat) (v : W8) (ha : ∀ l, lo = some l → l < a)
    (h : memWfFrom lo m = true) : memWfFrom lo (memSet m a v) = true := by
  induction m generalizing lo with
  | nil =>
    unfold memSet
    split
    · rfl
    · rename_i hv; exact memWfFrom_cons.2 ⟨ha, hv, rfl⟩
  | cons c t ih =>
    obtain ⟨k, x⟩ := c
    have hc := memWfFrom_cons.1 h
    unfold memSet
    split
    · rename_i hlt
      split
      · exact h
      · rename_i hv
        exact memWfFrom_cons.2 ⟨ha, hv, memWfFrom_cons.2 ⟨fun l e => by cases e; exact hlt, hc.2⟩⟩
    · rename_i hge
      split
      · rename_i heq
        subst heq
        split
        · cases t with
          | nil => rfl
          | cons d t =>
            obtain ⟨k', x'⟩ := d
            have hd := memWfFrom_cons.1 hc.2.2
            exact memWfFrom_cons.2 ⟨fun l e => Nat.lt_trans (ha l e) (hd.1 _ rfl), hd.2⟩
        · rename_i hv; exact memWfFrom_cons.2 ⟨ha, hv, hc.2.2⟩
      · rename_i hne
        exact memWfFrom_cons.2 ⟨hc.1, hc.2.1, ih (some k) (fun l e => by cases e; omega) hc.2.2⟩

/-- Writing one byte keeps the canonical form. -/
theorem memSet_wf {m : List Host.Cell} (a : Nat) (v : W8) (h : Memory.wf m = true) : Memory.wf (memSet m a v) = true :=
  memSet_wfFrom m none a v (fun _ e => nomatch e) h

/-- Writing bytes keeps the canonical form. -/
theorem memWrite_wf (bs : List W8) (m : List Host.Cell) (a : Nat) (h : Memory.wf m = true) : Memory.wf (memWrite m a bs) = true := by
  induction bs generalizing m a with
  | nil => exact h
  | cons b t ih => exact ih _ _ (memSet_wf a b h)

/-- Writing chosen bytes keeps the canonical form. -/
theorem memWriteItems_wf (l : List (Nat × W8)) (m : List Host.Cell) (h : Memory.wf m = true) :
    Memory.wf (memWriteItems m l) = true := by
  unfold memWriteItems
  induction l generalizing m with
  | nil => exact h
  | cons x t ih => exact ih _ (memSet_wf _ _ h)

/-- Leaving entries out keeps the canonical form. -/
theorem filter_wfFrom (m : List Host.Cell) (lo : Option Nat) (f : Host.Cell → Bool) (h : memWfFrom lo m = true) :
    memWfFrom lo (m.filter f) = true := by
  induction m generalizing lo with
  | nil => exact h
  | cons c t ih =>
    obtain ⟨k, x⟩ := c
    have hc := memWfFrom_cons.1 h
    rw [List.filter_cons]
    split
    · exact memWfFrom_cons.2 ⟨hc.1, hc.2.1, ih _ hc.2.2⟩
    · have := ih _ hc.2.2
      revert this
      generalize t.filter f = u
      intro hu
      cases u with
      | nil => rfl
      | cons d u =>
        obtain ⟨k', x'⟩ := d
        have hd := memWfFrom_cons.1 hu
        exact memWfFrom_cons.2 ⟨fun l e => Nat.lt_trans (hc.1 l e) (hd.1 _ rfl), hd.2⟩

theorem filter_wf {m : List Host.Cell} (f : Host.Cell → Bool) (h : Memory.wf m = true) : Memory.wf (m.filter f) = true :=
  filter_wfFrom m none f h

theorem nil_wf : Memory.wf [] = true := rfl

/-! ### Reading after writing -/

/-- Below every entry nothing is listed. -/
theorem memGet_below {m : List Host.Cell} {l a : Nat} (h : memWfFrom (some l) m = true) (ha : a ≤ l) : memGet m a = unlisted := by
  cases m with
  | nil => rfl
  | cons c t =>
    obtain ⟨k, x⟩ := c
    have hk := (memWfFrom_cons.1 h).1 l rfl
    unfold memGet
    rw [if_neg (by omega), if_pos (by omega)]

theorem memGet_cons (k : Nat) (x : W8) (t : List Host.Cell) (a : Nat) :
    memGet ((k, x) :: t) a = if k = a then x else if a < k then unlisted else memGet t a := rfl

theorem memGet_memSetFrom (m : List Host.Cell) (lo : Option Nat) (a b : Nat) (v : W8) (h : memWfFrom lo m = true) :
    memGet (memSet m a v) b = if b = a then v else memGet m b := by
  induction m generalizing lo with
  | nil =>
    unfold memSet
    by_cases hv : v = unlisted
    · rw [if_pos hv, hv]; unfold memGet; split <;> rfl
    · rw [if_neg hv]; simp only [memGet]
      by_cases e : a = b
      · rw [if_pos e, if_pos e.symm]
      · rw [if_neg e, if_neg (Ne.symm e)]; split <;> rfl
  | cons c t ih =>
    obtain ⟨k, x⟩ := c
    have hc := memWfFrom_cons.1 h
    have low : ∀ y, y < k → memGet ((k, x) :: t) y = unlisted := fun y hy => by
      unfold memGet; rw [if_neg (by omega), if_pos hy]
    unfold memSet
    by_cases h1 : a < k
    · rw [if_pos h1]
      by_cases hv : v = unlisted
      · rw [if_pos hv]
        by_cases e : b = a
        · rw [if_pos e, e, low a h1, hv]
        · rw [if_neg e]
      · rw [if_neg hv]
        by_cases e : b = a
        · rw [if_pos e]; rw [memGet, if_pos e.symm]
        · rw [if_neg e, memGet, if_neg (Ne.symm e)]
          by_cases h2 : b < a
          · rw [if_pos h2, low b (by omega)]
          · rw [if_neg h2]
    · rw [if_neg h1]
      by_cases h2 : a = k
      · subst h2
        rw [if_pos rfl]
        have top : b ≤ a → memGet t b = unlisted := memGet_below hc.2.2
        by_cases hv : v = unlisted
        · rw [if_pos hv, memGet_cons]
          repeat' split
          all_goals first | omega | rfl | exact (top (by omega)).trans hv.symm | exact top (by omega)
        · rw [if_neg hv, memGet_cons, memGet_cons]
          repeat' split
          all_goals first | omega | rfl
      · rw [if_neg h2, memGet_cons, memGet_cons, ih _ hc.2.2]
        repeat' split
        all_goals first | omega | rfl

/-- A byte after one byte is written. -/
theorem memGet_memSet {m : List Host.Cell} (a b : Nat) (v : W8) (h : Memory.wf m = true) :
    memGet (memSet m a v) b = if b = a then v else memGet m b :=
  memGet_memSetFrom m none a b v h

/-- A byte after a list of bytes is written: the new byte inside the range, the old one outside. -/
theorem memGet_memWrite (bs : List W8) (m : List Host.Cell) (a b : Nat) (h : Memory.wf m = true) :
    memGet (memWrite m a bs) b = if a ≤ b ∧ b < a + bs.length then bs.getD (b - a) 0 else memGet m b := by
  induction bs generalizing m a with
  | nil => rw [if_neg (by rintro ⟨h1, h2⟩; exact absurd h2 (by simpa using h1))]; rfl
  | cons x t ih =>
    rw [memWrite, ih _ _ (memSet_wf a x h), memGet_memSet a b x h]
    by_cases e : b = a
    · subst e
      rw [if_neg (by omega), if_pos rfl, if_pos (by simp)]
      simp
    · rw [if_neg e]
      by_cases hr : a + 1 ≤ b ∧ b < a + 1 + t.length
      · rw [if_pos hr, if_pos (by simp; omega)]
        obtain ⟨d, rfl⟩ : ∃ d, b = a + 1 + d := ⟨b - (a + 1), by omega⟩
        rw [show a + 1 + d - (a + 1) = d by omega, show a + 1 + d - a = d + 1 by omega]
        rfl
      · rw [if_neg hr, if_neg (by simp; omega)]

end Sys2Proof.Machine
end

