-- ==== Sys2Proof/Laws/Operands.lean ====
section
/-!
SUPPORT. What the shared operations of the slots do: noting the reads of sources, sending a result, and the guards, room and
duty checks around them. Each says once everything its operation can do.
-/

namespace Sys2Proof

open Machine

/-! ### The issuing core after a change -/

theorem me_updMe (s : State) (f : Core → Core) (h : hasCore s s.cur.core = true) : me (updMe s f) = f (me s) := by
  unfold me updMe; rw [upd_cur]; exact core_upd_self _ _ _ h

theorem me_updCx (s : State) (f : Ctx → Ctx) (h : hasCore s s.cur.core = true) : me (updCx s f) = (me s).updCtx f :=
  me_updMe s _ h

/-- A changed issuing core leaves the rest. -/
theorem onlyCore_updMe (s : State) (f : Core → Core) (h : hasCore s s.cur.core = true) : OnlyCore s (updMe s f) (f (me s)) where
  chip := by unfold updMe State.upd State.setCore; split <;> rfl
  cur := by unfold updMe; rw [upd_cur]
  core := core_upd_self _ _ _ h
  others c hc := core_upd_other _ _ _ _ hc
  units := ⟨upd_vms_length _ _ _, upd_ccs_length _ _ _⟩

theorem onlyCore_updCx (s : State) (f : Ctx → Ctx) (h : hasCore s s.cur.core = true) :
    OnlyCore s (updCx s f) ((me s).updCtx f) := onlyCore_updMe s _ h

/-- The serial number and the noted reads are bookkeeping beside it. -/
theorem OnlyCore.book {s t : State} {k : Core} (h : OnlyCore s t k) (n : Nat) (b : BitVec 4) :
    OnlyCore s { t with serial := n, cur := { t.cur with noted := b } } k where
  chip := by rw [h.chip]
  cur := by rw [h.cur]
  core := h.core
  others := h.others
  units := h.units

/-- Two changes in a row. -/
theorem OnlyCore.trans {s t u : State} {k l : Core} (h : OnlyCore s t k) (g : OnlyCore t u l) : OnlyCore s u l := by
  have hc : t.cur.core = s.cur.core := by rw [h.cur]
  exact {
    chip := by rw [g.chip, h.chip]
    cur := by rw [g.cur, h.cur]
    core := hc ▸ g.core
    others := fun c e => (g.others c (hc ▸ e)).trans (h.others c e)
    units := ⟨g.units.1.trans h.units.1, g.units.2.trans h.units.2⟩ }

theorem OnlyCore.core_eq {s t : State} {k : Core} (h : OnlyCore s t k) : t.cur.core = s.cur.core := by rw [h.cur]

/-- The issuing core afterwards. -/
theorem OnlyCore.me_eq {s t : State} {k : Core} (h : OnlyCore s t k) : me t = k := by
  unfold me; rw [h.core_eq]; exact h.core

theorem OnlyCore.refl (s : State) : OnlyCore s s (me s) := ⟨rfl, rfl, rfl, fun _ _ => rfl, rfl, rfl⟩

theorem OnlyCore.hasCore_eq {s t : State} {k : Core} (h : OnlyCore s t k) (c : CoreRef) : hasCore t c = hasCore s c := by
  unfold hasCore; cases c.cc <;> simp [h.units]

theorem OnlyCore.parts_eq {s t : State} {k : Core} (h : OnlyCore s t k) : t.parts = s.parts := by rw [h.chip]

theorem OnlyCore.slot_eq {s t : State} {k : Core} (h : OnlyCore s t k) : t.cur.slot = s.cur.slot := by rw [h.cur]

theorem OnlyCore.head_eq {s t : State} {k : Core} (h : OnlyCore s t k) : t.cur.head = s.cur.head := by rw [h.cur]

/-! ### Noting what the sources read -/

/-- The core with the reads of these sources noted. -/
def coreNoting (s : State) (srcs : List (BitVec 6)) : Core :=
  { (me s).updCtx (fun x => { x with qempty := x.qempty ||| readsEmpty s srcs }) with
    ctl := { (me s).ctl with lines := if readsEntry s srcs && isCC s then [] else (me s).ctl.lines } }

/-- What a queue latch shows depends on the binding, the partition, the receive queues and the near memory alone. -/
theorem queueHead_congr {s t : State} {k : Core} (h : OnlyCore s t k) (hq : k.ctx.q = (me s).ctx.q) (hp : k.part = (me s).part)
    (he : k.eng.rqs = (me s).eng.rqs) (hn : k.near.mem = (me s).near.mem) (i : Nat) : queueHead t i = queueHead s i := by
  have part : ∀ c, partOf t c = partOf s c := by
    intro c
    unfold partOf
    split
    · rfl
    · by_cases e : c = s.cur.core
      · rw [e, h.core, hp]; rfl
      · rw [h.others c e]
  unfold queueHead cx
  rw [h.me_eq, hq, h.core_eq]
  cases (me s).ctx.q.getD i none with
  | none => rfl
  | some src =>
    cases src with
    | chan ch => simp only [sourceHead, part, getPart, h.parts_eq]
    | rq i => simp only [sourceHead, h.core, he]; rfl
    | evq => simp only [sourceHead, part, getPart, h.parts_eq, nearRead, h.core, hn]; rfl

theorem emptyRead_congr {s t : State} (h : ∀ i, queueHead t i = queueHead s i) (v : Nat) : emptyRead t v = emptyRead s v := by
  unfold emptyRead; rw [h]

theorem shownRead_congr {s t : State} (h : ∀ i, queueHead t i = queueHead s i) (v : Nat) : shownRead t v = shownRead s v := by
  unfold shownRead; rw [h]

theorem foldl_congr_fun {α β : Type} (f g : α → β → α) (l : List β) (a : α) (h : ∀ a b, f a b = g a b) : l.foldl f a = l.foldl g a := by
  have : f = g := funext fun a => funext fun b => h a b
  rw [this]

theorem onlyCore_acquire (s : State) (h : hasCore s s.cur.core = true) :
    OnlyCore s (acquireLines s s.cur.core)
      { me s with ctl := { (me s).ctl with lines := if isCC s then [] else (me s).ctl.lines } } := by
  unfold acquireLines isCC
  cases s.cur.core.cc
  · exact OnlyCore.refl s
  · exact onlyCore_updMe s (fun k => { k with ctl := { k.ctl with lines := [] } }) h

/-- Emptying the small cache changes nothing that a source shows. -/
theorem emptyRead_acquire (s : State) (v : Nat) (h : hasCore s s.cur.core = true) :
    emptyRead (acquireLines s s.cur.core) v = emptyRead s v :=
  emptyRead_congr (queueHead_congr (onlyCore_acquire s h) rfl rfl rfl rfl) v

/-- Noting reads changes QEMPTY, and on a control core the small cache, of the issuing core alone. -/
theorem onlyCore_noteReads (s : State) (srcs : List (BitVec 6)) (h : hasCore s s.cur.core = true) :
    OnlyCore s (noteReads s (srcs.map (·.toNat))) (coreNoting s srcs) := by
  have ha : OnlyCore s (if (srcs.map (·.toNat)).any (shownRead s) then acquireLines s s.cur.core else s)
      { me s with ctl := { (me s).ctl with lines := if readsEntry s srcs && isCC s then [] else (me s).ctl.lines } } := by
    unfold readsEntry
    cases (srcs.map (·.toNat)).any (shownRead s)
    · exact OnlyCore.refl s
    · exact onlyCore_acquire s h
  have hb : (srcs.map (·.toNat)).foldl (fun a v => a ||| emptyRead (if (srcs.map (·.toNat)).any (shownRead s) then acquireLines s s.cur.core else s) v) 0
      = readsEmpty s srcs := by
    unfold readsEmpty
    refine foldl_congr_fun _ _ _ _ (fun a v => ?_)
    split
    · rw [emptyRead_acquire s v h]
    · rfl
  unfold noteReads
  simp only [hb]
  generalize (if (srcs.map (·.toNat)).any (shownRead s) then acquireLines s s.cur.core else s) = s1 at ha
  split
  · rename_i h0
    refine cast (congrArg (OnlyCore s s1) ?_) ha
    unfold coreNoting
    rw [h0]
    unfold Core.updCtx Core.setCtx Core.ctx
    cases (me s).tp.active <;> simp
  · have hc : hasCore s1 s1.cur.core = true := by rw [ha.hasCore_eq, ha.core_eq]; exact h
    have hu := (ha.trans (onlyCore_updCx s1 (fun x => { x with qempty := x.qempty ||| readsEmpty s srcs }) hc)).book
      s1.serial (s1.cur.noted ||| (readsEmpty s srcs &&& ~~~ (cx s1).qempty))
    rw [ha.me_eq] at hu
    have e1 : (updCx s1 (fun x => { x with qempty := x.qempty ||| readsEmpty s srcs })).serial = s1.serial := upd_serial _ _ _
    have e2 : (updCx s1 (fun x => { x with qempty := x.qempty ||| readsEmpty s srcs })).cur = s1.cur := upd_cur _ _ _
    rw [e2, ← e1] at hu
    refine cast (congrArg (OnlyCore s _) ?_) hu
    unfold coreNoting Core.updCtx Core.setCtx Core.ctx
    cases (me s).tp.active <;> rfl

theorem noteReads_serial (s : State) (l : List Nat) : (noteReads s l).serial = s.serial := by
  have ha : (if l.any (shownRead s) then acquireLines s s.cur.core else s).serial = s.serial := by
    unfold acquireLines
    split
    · split <;> simp
    · rfl
  unfold noteReads
  simp only
  generalize (if l.any (shownRead s) then acquireLines s s.cur.core else s) = s1 at ha
  split
  · exact ha
  · exact (upd_serial _ _ _).trans ha

/-! ### A result on its way -/

theorem updCtx_updCtx (k : Core) (f g : Ctx → Ctx) : (k.updCtx f).updCtx g = k.updCtx (fun x => g (f x)) := by
  unfold Core.updCtx Core.setCtx Core.ctx
  cases h : k.tp.active <;> simp [h]

/-- What a new result takes from the state: nothing that noting reads changes. -/
theorem newPend_congr {s t : State} (h : OnlyCore s t (coreNoting s srcs)) (hs : t.serial = s.serial) (L : Nat) :
    newPend t L = newPend s L := by
  unfold newPend cyc cx
  rw [hs, h.slot_eq, h.me_eq]
  unfold coreNoting Core.updCtx Core.setCtx Core.ctx
  cases h : (me s).tp.active <;> simp [h]

theorem newPend_noteReads (s : State) (srcs : List (BitVec 6)) (L : Nat) (h : hasCore s s.cur.core = true) :
    newPend (noteReads s (srcs.map (·.toNat))) L = newPend s L :=
  newPend_congr (onlyCore_noteReads s srcs h) (noteReads_serial _ _) L

theorem dstS_noteReads (s : State) (srcs : List (BitVec 6)) (d : Nat) (h : hasCore s s.cur.core = true) :
    dstS (noteReads s (srcs.map (·.toNat))) d = dstS s d := by
  have ho := onlyCore_noteReads s srcs h
  unfold dstS
  rw [ho.head_eq, ho.slot_eq]

/-- Sending after the reads are noted: one result joins those in flight. -/
theorem onlyCore_send (s : State) (srcs : List (BitVec 6)) (p : Pend) (h : hasCore s s.cur.core = true) :
    OnlyCore s (emit (noteReads s (srcs.map (·.toNat))) p) (coreSending s srcs [p] 0) := by
  have ha := onlyCore_noteReads s srcs h
  generalize noteReads s (srcs.map (·.toNat)) = s1 at ha ⊢
  have hc : hasCore s1 s1.cur.core = true := by rw [ha.hasCore_eq, ha.core_eq]; exact h
  have hu := (ha.trans (onlyCore_updCx s1 (fun x => { x with pends := x.pends ++ [p] }) hc)).book (s1.serial + 1) s1.cur.noted
  rw [ha.me_eq] at hu
  have e2 : (updCx s1 (fun x => { x with pends := x.pends ++ [p] })).cur = s1.cur := upd_cur _ _ _
  rw [e2] at hu
  unfold emit
  have e3 : { updCx s1 (fun x => { x with pends := x.pends ++ [p] }) with serial := s1.serial + 1 }
      = { updCx s1 (fun x => { x with pends := x.pends ++ [p] }) with serial := s1.serial + 1, cur := { s1.cur with noted := s1.cur.noted } } := by
    rw [← e2]
  rw [e3]
  refine cast (congrArg (OnlyCore s _) ?_) hu
  unfold coreNoting coreSending Core.updCtx Core.setCtx Core.ctx
  cases h : (me s).tp.active <;> simp [h]

/-- With no sources to note. -/
theorem onlyCore_emit (s : State) (p : Pend) (h : hasCore s s.cur.core = true) : OnlyCore s (emit s p) (coreSending s [] [p] 0) := by
  have := onlyCore_send s [] p h
  have e : noteReads s (([] : List (BitVec 6)).map (·.toNat)) = s := by simp [noteReads]
  rwa [e] at this

/-! ### Guards and room -/

theorem withRoom_open (s : State) (f : State → State) (h : noRoom s = false) : withRoom s f = f s := by
  unfold withRoom; rw [h]; rfl

theorem guarded_open (s : State) (g : BitVec 3) (n : BitVec 1) (srcs : List (BitVec 6)) (f : State → State) (h : Executes s g n) :
    guarded s g n srcs f = f (noteReads s (srcs.map (·.toNat))) := by
  unfold guarded; rw [h.guard, if_pos rfl, withRoom_open _ _ h.room]

/-- A false guard: nothing happens (03:R53). -/
theorem guarded_shut (s : State) (g : BitVec 3) (n : BitVec 1) (srcs : List (BitVec 6)) (f : State → State)
    (h : guardOn s g n = false) : guarded s g n srcs f = s := by
  unfold guarded; rw [h]; rfl

theorem plainS_open (s : State) (g : BitVec 3) (n : BitVec 1) (srcs : List (BitVec 6)) (f : State → State)
    (h : guardOn s g n = true) : plainS s g n srcs f = f (noteReads s (srcs.map (·.toNat))) := by
  unfold plainS; rw [h]; rfl

theorem plainS_shut (s : State) (g : BitVec 3) (n : BitVec 1) (srcs : List (BitVec 6)) (f : State → State)
    (h : guardOn s g n = false) : plainS s g n srcs f = s := by
  unfold plainS; rw [h]; rfl

/-! ### The S slot -/

/-- A guarded operation with a 64-bit result sends it. -/
theorem sends_resultS {s : State} {g : BitVec 3} {n : BitVec 1} {i : Instr} {srcs : List (BitVec 6)} {L : Nat} {d : BitVec 5} {v : W64}
    (h : Executes s g n) (e : exec i s = .next (resultS s g n srcs L d v)) : Sends s i srcs (wordResult s L d v) := by
  refine ⟨_, e, ?_⟩
  rw [resultS, guarded_open _ _ _ _ _ h, putS, newPend_noteReads _ _ _ h.core, dstS_noteReads _ _ _ h.core]
  exact onlyCore_send s srcs _ h.core

theorem sends_resultSI {s : State} {i : Instr} {srcs : List (BitVec 6)} {d : BitVec 5} {v : W64}
    (h : HasRoom s) (e : exec i s = .next (resultSI s srcs d v)) : Sends s i srcs (wordResult s 1 d v) := by
  refine ⟨_, e, ?_⟩
  rw [resultSI, withRoom_open _ _ h.room, putS, newPend_noteReads _ _ _ h.core, dstS_noteReads _ _ _ h.core]
  exact onlyCore_send s srcs _ h.core

theorem sends_effectS {s : State} {g : BitVec 3} {n : BitVec 1} {i : Instr} {srcs : List (BitVec 6)} {L : Nat} {x : Eff}
    (h : Executes s g n) (e : exec i s = .next (effectS s g n srcs L [x])) : Sends s i srcs (effResult s L x) := by
  refine ⟨_, e, ?_⟩
  rw [effectS, guarded_open _ _ _ _ _ h, putEffs, newPend_noteReads _ _ _ h.core]
  exact onlyCore_send s srcs _ h.core

/-! ### The V slots -/

theorem dstV_congr {s t : State} {k : Core} (h : OnlyCore s t k) (w : BitVec 1) (d : BitVec 5) (act : W128) : dstV t w d act = dstV s w d act := by
  unfold dstV isY
  rw [h.head_eq, h.slot_eq]

theorem valV_congr {s t : State} {k : Core} (h : OnlyCore s t k) (w : BitVec 1) (l : Lanes) : valV t w l = valV s w l := by
  unfold valV
  rw [h.head_eq, h.slot_eq]

/-- A vector result is sent after the reads are noted. -/
theorem onlyCore_putV (s : State) (srcs : List (BitVec 6)) (L E : Nat) (w : BitVec 1) (d : BitVec 5) (act : W128) (l : Lanes) (fl : W8)
    (h : hasCore s s.cur.core = true) :
    OnlyCore s (putV (noteReads s (srcs.map (·.toNat))) L E w d act l fl) (coreSending s srcs [lanesResult s L E w d act l fl] 0) := by
  have ho := onlyCore_noteReads s srcs h
  have hk : (me (noteReads s (srcs.map (·.toNat)))).clk = (me s).clk := by rw [ho.me_eq]; simp [coreNoting]
  unfold putV
  rw [newPend_noteReads _ _ _ h, dstV_congr ho, valV_congr ho, hk, ho.head_eq, ho.slot_eq]
  exact onlyCore_send s srcs _ h

theorem sends_resultV {s : State} {i : Instr} {srcs : List (BitVec 6)} {L E : Nat} {w : BitVec 1} {d : BitVec 5} {l : Lanes} {fl : W8}
    (h : HasRoom s) (e : exec i s = .next (resultV s srcs L E w d l fl)) :
    Sends s i srcs (lanesResult s L E w d (activeLanes (cx s) (isY s)) l fl) := by
  refine ⟨_, e, ?_⟩
  rw [resultV, withRoom_open _ _ h.room]
  exact onlyCore_putV s srcs L E w d _ l fl h.core

/-! ### Counted operations of the V slots -/

/-- The core with one more operation counted in its window. -/
def coreCounting (k : Core) : Core := { k with ph := { k.ph with vCount := k.ph.vCount + 1 } }

/-- Where the urgent context issues, or the grant has room, a counted operation goes on. -/
theorem vfpOp_open (s : State) (f : State → State) (h : HasDuty s) :
    vfpOp s f = f (if isUrg s then s else updMe s coreCounting) := by
  unfold vfpOp
  cases hu : isUrg s
  · have hd : ¬ (me s).ph.vCount + 1 > 128 * (me s).ph.grantV := by
      rcases h.duty with e | e
      · rw [hu] at e; exact nomatch e
      · omega
    rw [if_neg (by decide), if_neg hd, withRoom_open _ _ h.room]
    rfl
  · rw [if_pos rfl, withRoom_open _ _ h.room, if_pos rfl]

/-- Sending one result as a counted operation. -/
theorem onlyCore_counted (s : State) (srcs : List (BitVec 6)) (p : Pend) (h : hasCore s s.cur.core = true) :
    OnlyCore s (emit (noteReads (if isUrg s then s else updMe s coreCounting) (srcs.map (·.toNat))) p)
      (coreSending s srcs [p] (if isUrg s then 0 else 1)) := by
  cases hu : isUrg s
  · have ho := onlyCore_updMe s coreCounting h
    have hc : hasCore (updMe s coreCounting) (updMe s coreCounting).cur.core = true := by rw [ho.hasCore_eq, ho.core_eq]; exact h
    have hq := queueHead_congr ho (by rfl) (by rfl) (by rfl) (by rfl)
    refine cast ?_ (ho.trans (onlyCore_send (updMe s coreCounting) srcs p hc))
    have hr : readsEmpty (updMe s coreCounting) srcs = readsEmpty s srcs := by
      unfold readsEmpty
      exact foldl_congr_fun _ _ _ _ (fun a v => by rw [emptyRead_congr hq])
    have hv : readsEntry (updMe s coreCounting) srcs = readsEntry s srcs := by
      unfold readsEntry
      have : shownRead (updMe s coreCounting) = shownRead s := funext fun v => shownRead_congr hq v
      rw [this]
    have hi : isCC (updMe s coreCounting) = isCC s := by unfold isCC; rw [ho.core_eq]
    unfold coreSending
    rw [hr, hv, hi, ho.me_eq]
    unfold coreCounting Core.updCtx Core.setCtx Core.ctx
    cases h : (me s).tp.active <;> simp
  · exact onlyCore_send s srcs p h

/-- What a counted operation takes from the state, after the count and the reads. -/
theorem counted_congr (s : State) (srcs : List (BitVec 6)) (h : hasCore s s.cur.core = true) :
    ∃ k, OnlyCore s (noteReads (if isUrg s then s else updMe s coreCounting) (srcs.map (·.toNat))) k
      ∧ k.clk = (me s).clk ∧ k.ctx.fmt = (me s).ctx.fmt
      ∧ (noteReads (if isUrg s then s else updMe s coreCounting) (srcs.map (·.toNat))).serial = s.serial := by
  have keep : ∀ t, (coreNoting t srcs).clk = (me t).clk ∧ (coreNoting t srcs).ctx.fmt = (me t).ctx.fmt := by
    intro t
    unfold coreNoting Core.updCtx Core.setCtx Core.ctx
    cases h : (me t).tp.active <;> simp [h]
  cases hu : isUrg s
  · have ho := onlyCore_updMe s coreCounting h
    have hc : hasCore (updMe s coreCounting) (updMe s coreCounting).cur.core = true := by rw [ho.hasCore_eq, ho.core_eq]; exact h
    refine ⟨_, ho.trans (onlyCore_noteReads _ srcs hc), ?_, ?_, ?_⟩
    · rw [(keep _).1, ho.me_eq]; rfl
    · rw [(keep _).2, ho.me_eq]; rfl
    · exact (noteReads_serial _ _).trans (upd_serial _ _ _)
  · exact ⟨_, onlyCore_noteReads _ srcs h, (keep _).1, (keep _).2, noteReads_serial _ _⟩

theorem newPend_of {s t : State} {k : Core} (h : OnlyCore s t k) (hs : t.serial = s.serial) (hk : k.clk = (me s).clk)
    (hf : k.ctx.fmt = (me s).ctx.fmt) (L : Nat) : newPend t L = newPend s L := by
  unfold newPend cyc cx
  rw [h.me_eq, hk, hf, hs, h.slot_eq]

/-- A lane result sent as a counted operation. -/
theorem counted_putV {s : State} {i : Instr} {srcs : List (BitVec 6)} {L E : Nat} {w : BitVec 1} {d : BitVec 5} {act : W128} {l : Lanes}
    {fl : W8} (h : HasDuty s)
    (e : exec i s = .next (vfpOp s (fun s' => putV (noteReads s' (srcs.map (·.toNat))) L E w d act l fl))) :
    SendsCounted s i srcs (lanesResult s L E w d act l fl) := by
  refine ⟨_, e, ?_⟩
  obtain ⟨k, ho, hk, hf, hs⟩ := counted_congr s srcs h.core
  rw [vfpOp_open _ _ h, putV, newPend_of ho hs hk hf, dstV_congr ho, valV_congr ho, ho.me_eq, hk, ho.head_eq, ho.slot_eq]
  exact onlyCore_counted s srcs _ h.core

/-- A pair result sent as a counted operation. -/
theorem counted_putP {s : State} {i : Instr} {srcs : List (BitVec 6)} {L d : Nat} {act : W128} {l : List (W32 × W32 × W8)}
    (h : HasDuty s) (e : exec i s = .next (vfpOp s (fun s' => putP (noteReads s' (srcs.map (·.toNat))) L d act l))) :
    SendsCounted s i srcs (pairResult s L d act l) := by
  refine ⟨_, e, ?_⟩
  obtain ⟨k, ho, hk, hf, hs⟩ := counted_congr s srcs h.core
  rw [vfpOp_open _ _ h, putP, newPend_of ho hs hk hf]
  unfold isY
  rw [ho.slot_eq]
  exact onlyCore_counted s srcs _ h.core

theorem counted_resultFP {s : State} {i : Instr} {srcs : List (BitVec 6)} {L E : Nat} {w : BitVec 1} {d : BitVec 5} {l : List FR}
    (h : HasDuty s) (e : exec i s = .next (resultFP s srcs L E w d l)) : SendsCounted s i srcs (flagged s L E w d l) :=
  counted_putV h e

theorem counted_resultFP2 {s : State} {i : Instr} {srcs : List (BitVec 6)} {L : Nat} {d : BitVec 4} {l : List (W32 × W32 × W8)}
    (h : HasDuty s) (e : exec i s = .next (resultFP2 s srcs L d l)) :
    SendsCounted s i srcs (pairResult s L (2 * d.toNat) (activeLanes (cx s) (isY s)) l) :=
  counted_putP h e

end Sys2Proof
end

