-- ==== Sys2Proof/Laws/Canonical.lean ====
section
/-!
SUPPORT. What the shared operations leave of the machine's shape: the number of its units and the canonical form of its memories. One
lemma for each operation over memory, records, traps and results; a meaning that is built from them keeps the shape by composing them.
-/

namespace Sys2Proof

open Machine

/-- From s to t no unit appears or goes, and memories that were in canonical form still are. -/
structure Keeps (s t : State) : Prop where
  vms : t.vms.length = s.vms.length
  ccs : t.ccs.length = s.ccs.length
  parts : t.parts.length = s.parts.length
  ports : t.ports.length = s.ports.length
  memories : MemoriesCanonical s → MemoriesCanonical t

namespace Keeps

theorem refl (s : State) : Keeps s s := ⟨rfl, rfl, rfl, rfl, id⟩

theorem trans {s t u : State} (h : Keeps s t) (g : Keeps t u) : Keeps s u :=
  ⟨g.vms.trans h.vms, g.ccs.trans h.ccs, g.parts.trans h.parts, g.ports.trans h.ports, fun m => g.memories (h.memories m)⟩

/-- The invariant that the statements speak of. -/
theorem keepsUnits {s t : State} (h : Keeps s t) (u : Units s) : Units t :=
  ⟨h.vms.trans u.vms, h.ccs.trans u.ccs, h.parts.trans u.parts, h.ports.trans u.ports⟩

/-- A change that touches neither cores nor memory. -/
theorem book {s t : State} (hv : t.vms = s.vms) (hc : t.ccs = s.ccs) (hs : t.sys = s.sys) (hp : t.parts.length = s.parts.length)
    (ho : t.ports.length = s.ports.length) : Keeps s t :=
  ⟨by rw [hv], by rw [hc], hp, ho, fun m => by unfold MemoriesCanonical; rw [hv, hc, hs]; exact m⟩

end Keeps

/-! ### Cores -/

/-- A core whose memories are in canonical form. -/
abbrev CoreCanonical (k : Core) : Prop := Memory.wf k.near.mem = true ∧ Memory.wf k.istore = true

theorem coreCanonical_default : CoreCanonical {} := ⟨rfl, rfl⟩

theorem core_canonical {s : State} (h : MemoriesCanonical s) (c : CoreRef) : CoreCanonical (s.core c) := by
  have get (l : List Core) (hl : ∀ k ∈ l, CoreCanonical k) (n : Nat) : CoreCanonical (l.getD n {}) := by
    rw [List.getD_eq_getElem?_getD]
    cases hn : l[n]? with
    | none => exact coreCanonical_default
    | some k => exact hl k (List.mem_of_getElem? hn)
  unfold State.core
  split
  · exact get _ h.2.2 _
  · exact get _ h.2.1 _

theorem keeps_setCore {s : State} {c : CoreRef} {k : Core} (hk : MemoriesCanonical s → CoreCanonical k) : Keeps s (s.setCore c k) where
  vms := setCore_vms_length _ _ _
  ccs := setCore_ccs_length _ _ _
  parts := by rw [setCore_parts]
  ports := by rw [setCore_ports]
  memories m := by
    have put (l : List Core) (hl : ∀ k ∈ l, CoreCanonical k) (n : Nat) : ∀ x ∈ l.set n k, CoreCanonical x := by
      intro x hx
      rcases List.mem_or_eq_of_mem_set hx with hx | rfl
      · exact hl x hx
      · exact hk m
    refine ⟨by rw [setCore_sys]; exact m.1, ?_, ?_⟩
    · unfold State.setCore
      split
      · exact m.2.1
      · exact put _ m.2.1 _
    · unfold State.setCore
      split
      · exact put _ m.2.2 _
      · exact m.2.2

/-- A change of one core keeps the shape where it keeps the core's memories canonical. -/
theorem keeps_upd {s : State} {c : CoreRef} {f : Core → Core} (hf : ∀ k, CoreCanonical k → CoreCanonical (f k)) : Keeps s (s.upd c f) :=
  keeps_setCore fun m => hf _ (core_canonical m c)

/-- A change of one core that leaves its memories alone keeps the shape. -/
theorem keeps_upd_same {s : State} {c : CoreRef} {f : Core → Core} (hm : ∀ k, (f k).near.mem = k.near.mem)
    (hi : ∀ k, (f k).istore = k.istore) : Keeps s (s.upd c f) :=
  keeps_upd fun k h => by unfold CoreCanonical; rw [hm, hi]; exact h

@[simp] theorem updCtx_near (k : Core) (f : Ctx → Ctx) : (k.updCtx f).near = k.near := by
  unfold Core.updCtx Core.setCtx; split <;> rfl

@[simp] theorem updCtx_istore (k : Core) (f : Ctx → Ctx) : (k.updCtx f).istore = k.istore := by
  unfold Core.updCtx Core.setCtx; split <;> rfl

theorem keeps_updMe_same {s : State} {f : Core → Core} (hm : ∀ k, (f k).near.mem = k.near.mem) (hi : ∀ k, (f k).istore = k.istore) :
    Keeps s (updMe s f) := keeps_upd_same hm hi

theorem keeps_updCx (s : State) (f : Ctx → Ctx) : Keeps s (updCx s f) :=
  keeps_upd_same (fun k => by rw [updCtx_near]) (fun k => by rw [updCtx_istore])

theorem keeps_updPart (s : State) (p : Nat) (f : Part → Part) : Keeps s (updPart s p f) :=
  .book rfl rfl rfl (List.length_set ..) rfl

theorem keeps_updGang (s : State) (g : Nat) (f : Gang → Gang) : Keeps s (updGang s g f) := .book rfl rfl rfl rfl rfl

theorem keeps_endTask (s : State) (g status detail : Nat) : Keeps s (endTask s g status detail) := keeps_updGang _ _ _

/-- Steps of a fold each of which keeps the shape. -/
theorem keeps_foldl {α : Type} (f : State → α → State) (l : List α) (hf : ∀ s x, Keeps s (f s x)) (s : State) : Keeps s (l.foldl f s) := by
  induction l generalizing s with
  | nil => exact .refl s
  | cons x t ih => exact (hf s x).trans (ih _)

/-! ### Memory -/

theorem keeps_logError (s : State) (kind part wher addr cnt : Nat) : Keeps s (logError s kind part wher addr cnt) :=
  .book rfl rfl rfl rfl rfl

theorem keeps_nearMeet (s : State) (c : CoreRef) (g : Nat) : Keeps s (nearMeet s c g) := by
  unfold nearMeet
  dsimp only
  split
  · refine .trans ?_ (keeps_logError ..)
    exact keeps_upd_same (fun _ => rfl) (fun _ => rfl)
  · split
    · split
      · refine .trans (.trans ?_ (keeps_logError ..)) (keeps_logError ..)
        exact keeps_upd_same (fun _ => rfl) (fun _ => rfl)
      · refine .trans ?_ (keeps_logError ..)
        exact keeps_upd_same (fun _ => rfl) (fun _ => rfl)
    · exact .refl s

theorem keeps_nearTouch (s : State) (c : CoreRef) (a n : Nat) : Keeps s (nearTouch s c a n) :=
  keeps_foldl _ _ (fun s g => keeps_nearMeet s c g) s

/-- A write of near memory keeps its canonical form. -/
theorem near_write_canonical {k : Core} (a : Nat) (bs : List W8) (h : CoreCanonical k) : CoreCanonical { k with near := k.near.write a bs } :=
  ⟨memWrite_wf bs _ a h.1, h.2⟩

theorem keeps_engWrite (s : State) (c : CoreRef) (a : Nat) (bs : List W8) : Keeps s (engWrite s c a bs) :=
  keeps_upd fun _ h => near_write_canonical a bs h

theorem keeps_sysMeet (s : State) (g : Nat) : Keeps s (sysMeet s g) := by
  unfold sysMeet
  dsimp only
  split
  · exact .book rfl rfl rfl rfl rfl
  · split
    · split
      · exact .book rfl rfl rfl rfl rfl
      · exact .book rfl rfl rfl rfl rfl
    · exact .refl s

theorem keeps_sysTouch (s : State) (a n : Nat) : Keeps s (sysTouch s a n) := keeps_foldl _ _ keeps_sysMeet s

theorem keeps_watchHit (s : State) (g : Nat) : Keeps s (watchHit s g) := by
  unfold watchHit
  split
  · refine ⟨rfl, List.length_map .., rfl, rfl, fun m => ⟨m.1, m.2.1, fun k hk => ?_⟩⟩
    obtain ⟨k', h, rfl⟩ := List.mem_map.1 hk
    exact m.2.2 k' h
  · exact .refl s

/-- Bytes written to system memory. -/
theorem keeps_sysPut {s t : State} (a : Nat) (bs : List W8) (hv : t.vms = s.vms) (hc : t.ccs = s.ccs) (hs : t.sys = memWrite s.sys a bs)
    (hp : t.parts = s.parts) (ho : t.ports = s.ports) : Keeps s t :=
  ⟨by rw [hv], by rw [hc], by rw [hp], by rw [ho], fun m => ⟨by rw [hs]; exact memWrite_wf bs _ a m.1, by rw [hv]; exact m.2.1, by rw [hc]; exact m.2.2⟩⟩

theorem keeps_sysWriteUnit (s : State) (a : Nat) (bs : List W8) : Keeps s (sysWriteUnit s a bs).2 := by
  unfold sysWriteUnit
  dsimp only
  split
  · refine .trans ?_ (keeps_watchHit _ _)
    exact keeps_sysPut a bs rfl rfl rfl rfl rfl
  · split
    · exact keeps_sysMeet _ _
    · refine .trans (.trans (keeps_sysMeet s (a / 64)) ?_) (keeps_watchHit _ _)
      exact keeps_sysPut a bs rfl rfl rfl rfl rfl

theorem keeps_sysWrite (s : State) (a : Nat) (bs : List W8) : Keeps s (sysWrite s a bs).2 := by
  unfold sysWrite
  suffices h : ∀ (l : List (Nat × List W8)) (r : Bool × State),
      Keeps r.2 (l.foldl (fun r p => let w := sysWriteUnit r.2 p.1 p.2; (r.1 && w.1, w.2)) r).2 from h _ (true, s)
  intro l
  induction l with
  | nil => exact fun r => .refl _
  | cons p t ih =>
    intro r
    rw [List.foldl_cons]
    exact Keeps.trans (keeps_sysWriteUnit r.2 p.1 p.2) (ih (r.1 && (sysWriteUnit r.2 p.1 p.2).1, (sysWriteUnit r.2 p.1 p.2).2))

theorem keeps_sysPoison (s : State) (g : Nat) : Keeps s (sysPoison s g) :=
  Keeps.trans (t := { s with
    syspoison := insNat g s.syspoison, syscerr := s.syscerr.filter (· ≠ g), sysuerr := s.sysuerr.filter (· ≠ g) })
    (.book rfl rfl rfl rfl rfl) (keeps_watchHit _ _)

/-! ### Records -/

theorem keeps_evSetFull (s : State) (p : Nat) : Keeps s (evSetFull s p) := keeps_updPart _ _ _

theorem keeps_enterRecord (s : State) (p : Nat) (r : List W8) : Keeps s (enterRecord s p r) := by
  unfold enterRecord
  dsimp only
  split
  · exact (keeps_updPart ..).trans (keeps_evSetFull ..)
  · split
    · exact (keeps_updPart ..).trans (keeps_engWrite ..)
    · split
      · exact (keeps_updPart ..).trans (keeps_sysWrite ..)
      · exact (keeps_updPart ..).trans (keeps_evSetFull ..)

theorem keeps_flushRecords (s : State) : Keeps s (flushRecords s) := by
  refine keeps_foldl _ _ (fun s p => ?_) s
  split
  · exact .refl s
  · exact (keeps_updPart ..).trans (keeps_foldl _ _ (fun s r => keeps_enterRecord s p r) _)

theorem keeps_postRecord (s : State) (p : Nat) (r : List W8) : Keeps s (postRecord s p r) := keeps_updPart _ _ _

theorem keeps_postCore (s : State) (c : CoreRef) (kind status ctr item count detail : Nat) :
    Keeps s (postCore s c kind status ctr item count detail) := keeps_postRecord _ _ _

/-! ### Traps and results -/

theorem keeps_coreFault (s : State) (c : CoreRef) (urgent main : W8) (addr : W64) : Keeps s (coreFault s c urgent main addr) := by
  unfold coreFault
  dsimp only
  have h := Keeps.trans (keeps_upd_same (s := s) (c := c) (f := fun k => faultedCore k urgent main) (fun _ => rfl) (fun _ => rfl))
    (keeps_postCore _ c 12 2 0 (itemOf s c) (s.core c).tr.ttime.toNat (urgent.toNat + main.toNat * 256 + addr.toNat % 2 ^ 48 * 65536))
  split
  · exact h
  · split
    · exact h
    · exact h.trans (keeps_endTask ..)

theorem keeps_takeTrap (s : State) (c : CoreRef) (cause : W8) (info : W64) (slot : Nat) (rt : Bool) (drop : List Nat) :
    Keeps s (takeTrap s c cause info slot rt drop) := by
  unfold takeTrap
  dsimp only
  split
  · exact keeps_coreFault ..
  · have h : Keeps s (s.setCore c (trapEntry (s.core c) cause info slot rt drop)) := keeps_setCore (fun m => core_canonical m c)
    split
    · exact h
    · refine .trans (.trans h ?_) (keeps_coreFault ..)
      exact keeps_upd_same (fun _ => rfl) (fun _ => rfl)

theorem keeps_issueFail (s : State) (cause : W8) (info : W64) : Keeps s (issueFail s cause info) :=
  (keeps_takeTrap s s.cur.core cause info s.cur.slot false []).trans (.book rfl rfl rfl rfl rfl)

theorem keeps_emit (s : State) (p : Pend) : Keeps s (emit s p) :=
  (keeps_updCx s _).trans (.book rfl rfl rfl rfl rfl)

/-- What the invariant of the statements asks of a step, from one that keeps the shape. -/
theorem Keeps.sound {s t : State} (h : Keeps s t) (u : Units s) (m : MemoriesCanonical s) : Units t ∧ MemoriesCanonical t :=
  ⟨h.keepsUnits u, h.memories m⟩

/-! ### A memory made of bytes -/

/-- A memory listed from its bytes, as the restoring of a context lists it, is in canonical form. -/
theorem memOf_wfFrom (bs : List W8) (n : Nat) (lo : Option Nat) (h : ∀ l, lo = some l → l < n) :
    memWfFrom lo ((bs.zip (List.range' n bs.length)).filterMap (fun x => if x.1 = unlisted then none else some (x.2, x.1))) = true := by
  induction bs generalizing n lo with
  | nil => rfl
  | cons b t ih =>
    rw [List.length_cons, List.range'_succ, List.zip_cons_cons, List.filterMap_cons]
    by_cases hb : b = unlisted
    · simp only [hb, if_true]
      exact ih (n + 1) lo (fun l e => Nat.lt_succ_of_lt (h l e))
    · simp only [hb, if_false]
      exact memWfFrom_cons.2 ⟨h, hb, ih (n + 1) (some n) (fun l e => by cases e; exact Nat.lt_succ_self n)⟩

theorem memOf_wf (bs : List W8) : Memory.wf (memOf bs) = true := by
  unfold memOf Memory.wf
  rw [List.range_eq_range']
  exact memOf_wfFrom bs 0 none (fun _ e => nomatch e)

end Sys2Proof
end

