-- ==== Sys2Proof/Laws/PerInstr.lean ====
section
/-!
SUPPORT. Decoding undoes encoding, instruction by instruction: the syllable that the encoder gives for an operation decodes, in the
class of its slots, to that operation, with every operand at any value.
-/

namespace Sys2Proof.Laws.RoundTrip

open Sys2Proof

/-- What the encoder gives for the operation decodes to it, in the first slot of its class. An event has no encoding. -/
def Statement (i : Instr) : Prop :=
  ∀ w v, encode w i = some v → ∃ k, classOf i = some k ∧ decodeSlot k.slot v = some i

@[simp] theorem cat_hi {v w : Nat} {n p l : Nat} {hi : BitVec v} {lo : BitVec w} (h : v + w = n) (hp : w ≤ p) :
    (cat n hi lo).extractLsb' p l = hi.extractLsb' (p - w) l := by
  subst h
  apply BitVec.eq_of_getLsbD_eq
  intro i hi'
  simp only [cat, BitVec.getLsbD_extractLsb', BitVec.getLsbD_setWidth, BitVec.getLsbD_append]
  have h1 : ¬ p + i < w := by omega
  have h2 : p + i - w = p - w + i := by omega
  simp only [h1, if_false, h2]
  by_cases h3 : p + i < v + w
  · simp [h3]
  · have : ¬ p - w + i < v := by omega
    rw [BitVec.getLsbD_of_ge _ _ (by omega : v ≤ p - w + i)]; simp

@[simp] theorem cat_lo {v w : Nat} {n p l : Nat} {hi : BitVec v} {lo : BitVec w} (h : v + w = n) (hp : p + l ≤ w) :
    (cat n hi lo).extractLsb' p l = lo.extractLsb' p l := by
  subst h
  apply BitVec.eq_of_getLsbD_eq
  intro i hi'
  simp only [cat, BitVec.getLsbD_extractLsb', BitVec.getLsbD_setWidth, BitVec.getLsbD_append]
  have h1 : p + i < w := by omega
  have h3 : p + i < v + w := by omega
  simp [h1, h3]

/-- The opcode of a syllable. -/
theorem cat_op (k : BitVec 8) (x : BitVec 24) : (cat 32 k x).extractLsb' 24 8 = k := by
  rw [cat_hi rfl (by decide)]; exact BitVec.extractLsb'_eq_self

/-- The top bits of a field that reaches into the next one. -/
theorem cat_top {p : BitVec 3} {c k : BitVec 6} (h : (cat 12 7#3 (cat 9 p c)).extractLsb' 6 6 = k) : k.extractLsb' 3 3 = 7#3 := by
  have e : (cat 12 7#3 (cat 9 p c)).extractLsb' 9 3 = 7#3 := by rw [cat_hi rfl (by decide)]; exact BitVec.extractLsb'_eq_self
  subst h
  refine Eq.trans (BitVec.eq_of_getLsbD_eq fun i hi => ?_) e
  have h6 : 3 + i < 6 := by omega
  have h9 : 6 + (3 + i) = 9 + i := by omega
  simp only [BitVec.getLsbD_extractLsb', hi, h6, h9, decide_true, Bool.true_and]

theorem nop : Statement .nop := by
  intro w' v' h
  cases Option.some.inj h
  refine ⟨.s, rfl, ?_⟩
  decide

theorem add (d : BitVec 5) (a : BitVec 6) (b : BitVec 6) (g : BitVec 3) (n : BitVec 1) : Statement (.add d a b g n) := by
  intro w' v' h
  cases Option.some.inj h
  refine ⟨.s, rfl, ?_⟩
  show decodeSOp _ _ = _
  rw [cat_op]
  show (if _ then _ else _) = _
  rw [if_pos (by simp)]
  first | rfl | (congr 2 <;> simp)

theorem sub (d : BitVec 5) (a : BitVec 6) (b : BitVec 6) (g : BitVec 3) (n : BitVec 1) : Statement (.sub d a b g n) := by
  intro w' v' h
  cases Option.some.inj h
  refine ⟨.s, rfl, ?_⟩
  show decodeSOp _ _ = _
  rw [cat_op]
  show (if _ then _ else _) = _
  rw [if_pos (by simp)]
  first | rfl | (congr 2 <;> simp)

theorem mul (d : BitVec 5) (a : BitVec 6) (b : BitVec 6) (g : BitVec 3) (n : BitVec 1) : Statement (.mul d a b g n) := by
  intro w' v' h
  cases Option.some.inj h
  refine ⟨.s, rfl, ?_⟩
  show decodeSOp _ _ = _
  rw [cat_op]
  show (if _ then _ else _) = _
  rw [if_pos (by simp)]
  first | rfl | (congr 2 <;> simp)

theorem mulh (d : BitVec 5) (a : BitVec 6) (b : BitVec 6) (g : BitVec 3) (n : BitVec 1) (z : BitVec 1) : Statement (.mulh d a b g n z) := by
  intro w' v' h
  cases Option.some.inj h
  refine ⟨.s, rfl, ?_⟩
  show decodeSOp _ _ = _
  rw [cat_op]
  show (if _ then _ else _) = _
  rw [if_pos (by simp)]
  first | rfl | (congr 2 <;> simp)

theorem div (d : BitVec 5) (a : BitVec 6) (b : BitVec 6) (g : BitVec 3) (n : BitVec 1) (z : BitVec 1) : Statement (.div d a b g n z) := by
  intro w' v' h
  cases Option.some.inj h
  refine ⟨.s, rfl, ?_⟩
  show decodeSOp _ _ = _
  rw [cat_op]
  show (if _ then _ else _) = _
  rw [if_pos (by simp)]
  first | rfl | (congr 2 <;> simp)

theorem rem (d : BitVec 5) (a : BitVec 6) (b : BitVec 6) (g : BitVec 3) (n : BitVec 1) (z : BitVec 1) : Statement (.rem d a b g n z) := by
  intro w' v' h
  cases Option.some.inj h
  refine ⟨.s, rfl, ?_⟩
  show decodeSOp _ _ = _
  rw [cat_op]
  show (if _ then _ else _) = _
  rw [if_pos (by simp)]
  first | rfl | (congr 2 <;> simp)

theorem and (d : BitVec 5) (a : BitVec 6) (b : BitVec 6) (g : BitVec 3) (n : BitVec 1) : Statement (.and d a b g n) := by
  intro w' v' h
  cases Option.some.inj h
  refine ⟨.s, rfl, ?_⟩
  show decodeSOp _ _ = _
  rw [cat_op]
  show (if _ then _ else _) = _
  rw [if_pos (by simp)]
  first | rfl | (congr 2 <;> simp)

theorem or (d : BitVec 5) (a : BitVec 6) (b : BitVec 6) (g : BitVec 3) (n : BitVec 1) : Statement (.or d a b g n) := by
  intro w' v' h
  cases Option.some.inj h
  refine ⟨.s, rfl, ?_⟩
  show decodeSOp _ _ = _
  rw [cat_op]
  show (if _ then _ else _) = _
  rw [if_pos (by simp)]
  first | rfl | (congr 2 <;> simp)

theorem xor (d : BitVec 5) (a : BitVec 6) (b : BitVec 6) (g : BitVec 3) (n : BitVec 1) : Statement (.xor d a b g n) := by
  intro w' v' h
  cases Option.some.inj h
  refine ⟨.s, rfl, ?_⟩
  show decodeSOp _ _ = _
  rw [cat_op]
  show (if _ then _ else _) = _
  rw [if_pos (by simp)]
  first | rfl | (congr 2 <;> simp)

theorem andn (d : BitVec 5) (a : BitVec 6) (b : BitVec 6) (g : BitVec 3) (n : BitVec 1) : Statement (.andn d a b g n) := by
  intro w' v' h
  cases Option.some.inj h
  refine ⟨.s, rfl, ?_⟩
  show decodeSOp _ _ = _
  rw [cat_op]
  show (if _ then _ else _) = _
  rw [if_pos (by simp)]
  first | rfl | (congr 2 <;> simp)

theorem shl (d : BitVec 5) (a : BitVec 6) (b : BitVec 6) (g : BitVec 3) (n : BitVec 1) : Statement (.shl d a b g n) := by
  intro w' v' h
  cases Option.some.inj h
  refine ⟨.s, rfl, ?_⟩
  show decodeSOp _ _ = _
  rw [cat_op]
  show (if _ then _ else _) = _
  rw [if_pos (by simp)]
  first | rfl | (congr 2 <;> simp)

theorem shr (d : BitVec 5) (a : BitVec 6) (b : BitVec 6) (g : BitVec 3) (n : BitVec 1) (z : BitVec 1) : Statement (.shr d a b g n z) := by
  intro w' v' h
  cases Option.some.inj h
  refine ⟨.s, rfl, ?_⟩
  show decodeSOp _ _ = _
  rw [cat_op]
  show (if _ then _ else _) = _
  rw [if_pos (by simp)]
  first | rfl | (congr 2 <;> simp)

theorem rot (d : BitVec 5) (a : BitVec 6) (b : BitVec 6) (g : BitVec 3) (n : BitVec 1) : Statement (.rot d a b g n) := by
  intro w' v' h
  cases Option.some.inj h
  refine ⟨.s, rfl, ?_⟩
  show decodeSOp _ _ = _
  rw [cat_op]
  show (if _ then _ else _) = _
  rw [if_pos (by simp)]
  first | rfl | (congr 2 <;> simp)

theorem min (d : BitVec 5) (a : BitVec 6) (b : BitVec 6) (g : BitVec 3) (n : BitVec 1) (z : BitVec 1) : Statement (.min d a b g n z) := by
  intro w' v' h
  cases Option.some.inj h
  refine ⟨.s, rfl, ?_⟩
  show decodeSOp _ _ = _
  rw [cat_op]
  show (if _ then _ else _) = _
  rw [if_pos (by simp)]
  first | rfl | (congr 2 <;> simp)

theorem max (d : BitVec 5) (a : BitVec 6) (b : BitVec 6) (g : BitVec 3) (n : BitVec 1) (z : BitVec 1) : Statement (.max d a b g n z) := by
  intro w' v' h
  cases Option.some.inj h
  refine ⟨.s, rfl, ?_⟩
  show decodeSOp _ _ = _
  rw [cat_op]
  show (if _ then _ else _) = _
  rw [if_pos (by simp)]
  first | rfl | (congr 2 <;> simp)

theorem clz (d : BitVec 5) (a : BitVec 6) (g : BitVec 3) (n : BitVec 1) : Statement (.clz d a g n) := by
  intro w' v' h
  cases Option.some.inj h
  refine ⟨.s, rfl, ?_⟩
  show decodeSOp _ _ = _
  rw [cat_op]
  show (if _ then _ else _) = _
  rw [if_pos (by simp)]
  first | rfl | (congr 2 <;> simp)

theorem ctz (d : BitVec 5) (a : BitVec 6) (g : BitVec 3) (n : BitVec 1) : Statement (.ctz d a g n) := by
  intro w' v' h
  cases Option.some.inj h
  refine ⟨.s, rfl, ?_⟩
  show decodeSOp _ _ = _
  rw [cat_op]
  show (if _ then _ else _) = _
  rw [if_pos (by simp)]
  first | rfl | (congr 2 <;> simp)

theorem popc (d : BitVec 5) (a : BitVec 6) (g : BitVec 3) (n : BitVec 1) : Statement (.popc d a g n) := by
  intro w' v' h
  cases Option.some.inj h
  refine ⟨.s, rfl, ?_⟩
  show decodeSOp _ _ = _
  rw [cat_op]
  show (if _ then _ else _) = _
  rw [if_pos (by simp)]
  first | rfl | (congr 2 <;> simp)

theorem bswap (d : BitVec 5) (a : BitVec 6) (g : BitVec 3) (n : BitVec 1) : Statement (.bswap d a g n) := by
  intro w' v' h
  cases Option.some.inj h
  refine ⟨.s, rfl, ?_⟩
  show decodeSOp _ _ = _
  rw [cat_op]
  show (if _ then _ else _) = _
  rw [if_pos (by simp)]
  first | rfl | (congr 2 <;> simp)

theorem ext (d : BitVec 5) (a : BitVec 6) (b : BitVec 6) (g : BitVec 3) (n : BitVec 1) (z : BitVec 1) : Statement (.ext d a b g n z) := by
  intro w' v' h
  cases Option.some.inj h
  refine ⟨.s, rfl, ?_⟩
  show decodeSOp _ _ = _
  rw [cat_op]
  show (if _ then _ else _) = _
  rw [if_pos (by simp)]
  first | rfl | (congr 2 <;> simp)

theorem ins (d : BitVec 5) (a : BitVec 6) (b : BitVec 6) (g : BitVec 3) (n : BitVec 1) : Statement (.ins d a b g n) := by
  intro w' v' h
  cases Option.some.inj h
  refine ⟨.s, rfl, ?_⟩
  show decodeSOp _ _ = _
  rw [cat_op]
  show (if _ then _ else _) = _
  rw [if_pos (by simp)]
  first | rfl | (congr 2 <;> simp)

theorem sel (d : BitVec 5) (a : BitVec 6) (b : BitVec 6) (g : BitVec 3) (n : BitVec 1) (i : BitVec 3) : Statement (.sel d a b g n i) := by
  intro w' v' h
  cases Option.some.inj h
  refine ⟨.s, rfl, ?_⟩
  show decodeSOp _ _ = _
  rw [cat_op]
  show some _ = _
  first | rfl | (congr 2 <;> simp)

theorem cmp (d : BitVec 3) (a : BitVec 6) (b : BitVec 6) (g : BitVec 3) (n : BitVec 1) (c : BitVec 3) : Statement (.cmp d a b g n c) := by
  intro w' v' h
  cases Option.some.inj h
  refine ⟨.s, rfl, ?_⟩
  show decodeSOp _ _ = _
  rw [cat_op]
  show (if _ then _ else _) = _
  rw [if_pos (by simp)]
  first | rfl | (congr 2 <;> simp)

theorem gand (d : BitVec 3) (a : BitVec 6) (b : BitVec 6) (g : BitVec 3) (n : BitVec 1) (o : BitVec 2) : Statement (.gand d a b g n o) := by
  intro w' v' h
  cases Option.some.inj h
  refine ⟨.s, rfl, ?_⟩
  show decodeSOp _ _ = _
  rw [cat_op]
  show (if _ then _ else _) = _
  rw [if_pos (by simp)]
  first | rfl | (congr 2 <;> simp)

theorem addi (d : BitVec 5) (a : BitVec 6) (i : BitVec 13) : Statement (.addi d a i) := by
  intro w' v' h
  cases Option.some.inj h
  refine ⟨.s, rfl, ?_⟩
  show decodeSOp _ _ = _
  rw [cat_op]
  show some _ = _
  first | rfl | (congr 2 <;> simp)

theorem andi (d : BitVec 5) (a : BitVec 6) (i : BitVec 13) : Statement (.andi d a i) := by
  intro w' v' h
  cases Option.some.inj h
  refine ⟨.s, rfl, ?_⟩
  show decodeSOp _ _ = _
  rw [cat_op]
  show some _ = _
  first | rfl | (congr 2 <;> simp)

theorem ori (d : BitVec 5) (a : BitVec 6) (i : BitVec 13) : Statement (.ori d a i) := by
  intro w' v' h
  cases Option.some.inj h
  refine ⟨.s, rfl, ?_⟩
  show decodeSOp _ _ = _
  rw [cat_op]
  show some _ = _
  first | rfl | (congr 2 <;> simp)

theorem xori (d : BitVec 5) (a : BitVec 6) (i : BitVec 13) : Statement (.xori d a i) := by
  intro w' v' h
  cases Option.some.inj h
  refine ⟨.s, rfl, ?_⟩
  show decodeSOp _ _ = _
  rw [cat_op]
  show some _ = _
  first | rfl | (congr 2 <;> simp)

theorem shli (d : BitVec 5) (a : BitVec 6) (c : BitVec 6) : Statement (.shli d a c) := by
  intro w' v' h
  cases Option.some.inj h
  refine ⟨.s, rfl, ?_⟩
  show decodeSOp _ _ = _
  rw [cat_op]
  show (if _ then _ else _) = _
  rw [if_pos (by simp)]
  first | rfl | (congr 2 <;> simp)

theorem shri (d : BitVec 5) (a : BitVec 6) (c : BitVec 6) : Statement (.shri d a c) := by
  intro w' v' h
  cases Option.some.inj h
  refine ⟨.s, rfl, ?_⟩
  show decodeSOp _ _ = _
  rw [cat_op]
  show (if _ then _ else _) = _
  rw [if_pos (by simp)]
  first | rfl | (congr 2 <;> simp)

theorem cmpi (c : BitVec 2) (d : BitVec 3) (a : BitVec 6) (i : BitVec 13) : Statement (.cmpi c d a i) := by
  intro w' v' h
  cases Option.some.inj h
  refine ⟨.s, rfl, ?_⟩
  show decodeSOp _ _ = _
  rw [cat_op]
  show some _ = _
  first | rfl | (congr 2 <;> simp)

theorem movi (d : BitVec 5) (i : BitVec 13) : Statement (.movi d i) := by
  intro w' v' h
  cases Option.some.inj h
  refine ⟨.s, rfl, ?_⟩
  show decodeSOp _ _ = _
  rw [cat_op]
  show (if _ then _ else _) = _
  rw [if_pos (by simp)]
  first | rfl | (congr 2 <;> simp)

theorem movl (d : BitVec 5) : Statement (.movl d) := by
  intro w' v' h
  cases Option.some.inj h
  refine ⟨.s, rfl, ?_⟩
  show decodeSOp _ _ = _
  rw [cat_op]
  show (if _ then _ else _) = _
  rw [if_pos (by simp)]
  first | rfl | (congr 2 <;> simp)

theorem movlh (d : BitVec 5) (a : BitVec 6) : Statement (.movlh d a) := by
  intro w' v' h
  cases Option.some.inj h
  refine ⟨.s, rfl, ?_⟩
  show decodeSOp _ _ = _
  rw [cat_op]
  show (if _ then _ else _) = _
  rw [if_pos (by simp)]
  first | rfl | (congr 2 <;> simp)

theorem addl (d : BitVec 5) (a : BitVec 6) : Statement (.addl d a) := by
  intro w' v' h
  cases Option.some.inj h
  refine ⟨.s, rfl, ?_⟩
  show decodeSOp _ _ = _
  rw [cat_op]
  show (if _ then _ else _) = _
  rw [if_pos (by simp)]
  first | rfl | (congr 2 <;> simp)

theorem br (g : BitVec 3) (n : BitVec 1) (p : BitVec 20) : Statement (.br g n p) := by
  intro w' v' h
  cases Option.some.inj h
  refine ⟨.s, rfl, ?_⟩
  show decodeSOp _ _ = _
  rw [cat_op]
  show some _ = _
  first | rfl | (congr 2 <;> simp)

theorem call (g : BitVec 3) (n : BitVec 1) (p : BitVec 20) : Statement (.call g n p) := by
  intro w' v' h
  cases Option.some.inj h
  refine ⟨.s, rfl, ?_⟩
  show decodeSOp _ _ = _
  rw [cat_op]
  show some _ = _
  first | rfl | (congr 2 <;> simp)

theorem bri (d : BitVec 5) (a : BitVec 6) (g : BitVec 3) (n : BitVec 1) : Statement (.bri d a g n) := by
  intro w' v' h
  cases Option.some.inj h
  refine ⟨.s, rfl, ?_⟩
  show decodeSOp _ _ = _
  rw [cat_op]
  show (if _ then _ else _) = _
  rw [if_pos (by simp)]
  first | rfl | (congr 2 <;> simp)

theorem ret : Statement .ret := by
  intro w' v' h
  cases Option.some.inj h
  refine ⟨.s, rfl, ?_⟩
  show decodeSOp _ _ = _
  rw [cat_op]
  show (if _ then _ else _) = _
  rw [if_pos (by simp)]

theorem loop (a : BitVec 6) (n : BitVec 10) : Statement (.loop a n) := by
  intro w' v' h
  cases Option.some.inj h
  refine ⟨.s, rfl, ?_⟩
  show decodeSOp _ _ = _
  rw [cat_op]
  show (if _ then _ else _) = _
  rw [if_pos (by simp)]
  first | rfl | (congr 2 <;> simp)

theorem nopc (n : BitVec 13) : Statement (.nopc n) := by
  intro w' v' h
  cases Option.some.inj h
  refine ⟨.s, rfl, ?_⟩
  show decodeSOp _ _ = _
  rw [cat_op]
  show (if _ then _ else _) = _
  rw [if_pos (by simp)]
  first | rfl | (congr 2 <;> simp)

theorem realign (n : BitVec 6) : Statement (.realign n) := by
  intro w' v' h
  cases Option.some.inj h
  refine ⟨.s, rfl, ?_⟩
  show decodeSOp _ _ = _
  rw [cat_op]
  show (if _ then _ else _) = _
  rw [if_pos (by simp)]
  first | rfl | (congr 2 <;> simp)

theorem halt : Statement .halt := by
  intro w' v' h
  cases Option.some.inj h
  refine ⟨.s, rfl, ?_⟩
  show decodeSOp _ _ = _
  rw [cat_op]
  show (if _ then _ else _) = _
  rw [if_pos (by simp)]

theorem setfmt (a : BitVec 6) (g : BitVec 3) (n : BitVec 1) : Statement (.setfmt a g n) := by
  intro w' v' h
  cases Option.some.inj h
  refine ⟨.s, rfl, ?_⟩
  show decodeSOp _ _ = _
  rw [cat_op]
  show (if _ then _ else _) = _
  rw [if_pos (by simp)]
  first | rfl | (congr 2 <;> simp)

theorem getfmt : Statement .getfmt := by
  intro w' v' h
  cases Option.some.inj h
  refine ⟨.s, rfl, ?_⟩
  show decodeSOp _ _ = _
  rw [cat_op]
  show (if _ then _ else _) = _
  rw [if_pos (by simp)]

theorem setcl (a : BitVec 6) (g : BitVec 3) (n : BitVec 1) : Statement (.setcl a g n) := by
  intro w' v' h
  cases Option.some.inj h
  refine ⟨.s, rfl, ?_⟩
  show decodeSOp _ _ = _
  rw [cat_op]
  show (if _ then _ else _) = _
  rw [if_pos (by simp)]
  first | rfl | (congr 2 <;> simp)

theorem vmsel (i : BitVec 3) (g : BitVec 3) (n : BitVec 1) (v : BitVec 1) : Statement (.vmsel i g n v) := by
  intro w' v' h
  cases Option.some.inj h
  refine ⟨.s, rfl, ?_⟩
  show decodeSOp _ _ = _
  rw [cat_op]
  show (if _ then _ else _) = _
  rw [if_pos (by simp)]
  first | rfl | (congr 2 <;> simp)

theorem phpred (a : BitVec 6) (g : BitVec 3) (n : BitVec 1) (o : BitVec 2) : Statement (.phpred a g n o) := by
  intro w' v' h
  cases Option.some.inj h
  refine ⟨.s, rfl, ?_⟩
  show decodeSOp _ _ = _
  rw [cat_op]
  show (if _ then _ else _) = _
  rw [if_pos (by simp)]
  first | rfl | (congr 2 <;> simp)

theorem signoff (a : BitVec 6) (b : BitVec 6) (g : BitVec 3) (n : BitVec 1) : Statement (.signoff a b g n) := by
  intro w' v' h
  cases Option.some.inj h
  refine ⟨.s, rfl, ?_⟩
  show decodeSOp _ _ = _
  rw [cat_op]
  show (if _ then _ else _) = _
  rw [if_pos (by simp)]
  first | rfl | (congr 2 <;> simp)

theorem tlreadV (d : BitVec 5) (a : BitVec 6) (g : BitVec 3) (n : BitVec 1) : Statement (.tlreadV d a g n) := by
  intro w' v' h
  cases Option.some.inj h
  refine ⟨.s, rfl, ?_⟩
  show decodeSOp _ _ = _
  rw [cat_op]
  show (if _ then _ else _) = _
  rw [if_pos (by simp)]
  first | rfl | (congr 2 <;> simp)

theorem tlreadE : Statement .tlreadE := by
  intro w' v' h
  cases Option.some.inj h
  refine ⟨.s, rfl, ?_⟩
  show decodeSOp _ _ = _
  rw [cat_op]
  show (if _ then _ else _) = _
  rw [if_neg (by simp)]
  show (if _ then _ else _) = _
  rw [if_pos (by simp)]

theorem tlreadEc : Statement .tlreadEc := by
  intro w' v' h
  cases Option.some.inj h
  refine ⟨.s, rfl, ?_⟩
  show decodeSOp _ _ = _
  rw [cat_op]
  show (if _ then _ else _) = _
  rw [if_neg (by simp)]
  show (if _ then _ else _) = _
  rw [if_neg (by simp)]
  show (if _ then _ else _) = _
  rw [if_pos (by simp)]

theorem tlwait (a : BitVec 6) (b : BitVec 6) (g : BitVec 3) (n : BitVec 1) : Statement (.tlwait a b g n) := by
  intro w' v' h
  cases Option.some.inj h
  refine ⟨.s, rfl, ?_⟩
  show decodeSOp _ _ = _
  rw [cat_op]
  show (if _ then _ else _) = _
  rw [if_pos (by simp)]
  first | rfl | (congr 2 <;> simp)

theorem tlarm (a : BitVec 6) (b : BitVec 6) (g : BitVec 3) (n : BitVec 1) : Statement (.tlarm a b g n) := by
  intro w' v' h
  cases Option.some.inj h
  refine ⟨.s, rfl, ?_⟩
  show decodeSOp _ _ = _
  rw [cat_op]
  show (if _ then _ else _) = _
  rw [if_pos (by simp)]
  first | rfl | (congr 2 <;> simp)

theorem qbind (i : BitVec 2) (a : BitVec 6) (g : BitVec 3) (n : BitVec 1) : Statement (.qbind i a g n) := by
  intro w' v' h
  cases Option.some.inj h
  refine ⟨.s, rfl, ?_⟩
  show decodeSOp _ _ = _
  rw [cat_op]
  show (if _ then _ else _) = _
  rw [if_pos (by simp)]
  first | rfl | (congr 2 <;> simp)

theorem gtime (d : BitVec 5) (g : BitVec 3) (n : BitVec 1) (s : BitVec 3) : Statement (.gtime d g n s) := by
  intro w' v' h
  cases Option.some.inj h
  refine ⟨.s, rfl, ?_⟩
  show decodeSOp _ _ = _
  rw [cat_op]
  show (if _ then _ else _) = _
  rw [if_pos (by simp)]
  first | rfl | (congr 2 <;> simp)

theorem csrr (d : BitVec 5) (a : BitVec 6) (g : BitVec 3) (n : BitVec 1) : Statement (.csrr d a g n) := by
  intro w' v' h
  cases Option.some.inj h
  refine ⟨.s, rfl, ?_⟩
  show decodeSOp _ _ = _
  rw [cat_op]
  show (if _ then _ else _) = _
  rw [if_pos (by simp)]
  first | rfl | (congr 2 <;> simp)

theorem csrw (a : BitVec 6) (b : BitVec 6) (g : BitVec 3) (n : BitVec 1) : Statement (.csrw a b g n) := by
  intro w' v' h
  cases Option.some.inj h
  refine ⟨.s, rfl, ?_⟩
  show decodeSOp _ _ = _
  rw [cat_op]
  show (if _ then _ else _) = _
  rw [if_pos (by simp)]
  first | rfl | (congr 2 <;> simp)

theorem putk (a : BitVec 6) (g : BitVec 3) (n : BitVec 1) : Statement (.putk a g n) := by
  intro w' v' h
  cases Option.some.inj h
  refine ⟨.s, rfl, ?_⟩
  show decodeSOp _ _ = _
  rw [cat_op]
  show (if _ then _ else _) = _
  rw [if_pos (by simp)]
  first | rfl | (congr 2 <;> simp)

theorem rkey (a : BitVec 6) (b : BitVec 6) (g : BitVec 3) (n : BitVec 1) (k : BitVec 2) : Statement (.rkey a b g n k) := by
  intro w' v' h
  cases Option.some.inj h
  refine ⟨.s, rfl, ?_⟩
  show decodeSOp _ _ = _
  rw [cat_op]
  show (if _ then _ else _) = _
  rw [if_pos (by simp)]
  first | rfl | (congr 2 <;> simp)

theorem rkeyS (a : BitVec 6) (b : BitVec 6) (g : BitVec 3) (n : BitVec 1) (k : BitVec 2) : Statement (.rkeyS a b g n k) := by
  intro w' v' h
  cases Option.some.inj h
  refine ⟨.s, rfl, ?_⟩
  show decodeSOp _ _ = _
  rw [cat_op]
  show (if _ then _ else _) = _
  rw [if_neg (by simp)]
  show (if _ then _ else _) = _
  rw [if_pos (by simp)]
  first | rfl | (congr 2 <;> simp)

theorem rctr (a : BitVec 6) (b : BitVec 6) (g : BitVec 3) (n : BitVec 1) (k : BitVec 2) : Statement (.rctr a b g n k) := by
  intro w' v' h
  cases Option.some.inj h
  refine ⟨.s, rfl, ?_⟩
  show decodeSOp _ _ = _
  rw [cat_op]
  show (if _ then _ else _) = _
  rw [if_pos (by simp)]
  first | rfl | (congr 2 <;> simp)

theorem rctrRd (d : BitVec 5) (a : BitVec 6) (g : BitVec 3) (n : BitVec 1) (k : BitVec 2) : Statement (.rctrRd d a g n k) := by
  intro w' v' h
  cases Option.some.inj h
  refine ⟨.s, rfl, ?_⟩
  show decodeSOp _ _ = _
  rw [cat_op]
  show (if _ then _ else _) = _
  rw [if_neg (by simp)]
  show (if _ then _ else _) = _
  rw [if_pos (by simp)]
  first | rfl | (congr 2 <;> simp)

theorem rskip (a : BitVec 6) (b : BitVec 6) (g : BitVec 3) (n : BitVec 1) (k : BitVec 2) : Statement (.rskip a b g n k) := by
  intro w' v' h
  cases Option.some.inj h
  refine ⟨.s, rfl, ?_⟩
  show decodeSOp _ _ = _
  rw [cat_op]
  show (if _ then _ else _) = _
  rw [if_pos (by simp)]
  first | rfl | (congr 2 <;> simp)

theorem rdraw (d : BitVec 5) (g : BitVec 3) (n : BitVec 1) (k : BitVec 2) : Statement (.rdraw d g n k) := by
  intro w' v' h
  cases Option.some.inj h
  refine ⟨.s, rfl, ?_⟩
  show decodeSOp _ _ = _
  rw [cat_op]
  show (if _ then _ else _) = _
  rw [if_pos (by simp)]
  first | rfl | (congr 2 <;> simp)

theorem stov (d : BitVec 5) (a : BitVec 6) (g : BitVec 3) (n : BitVec 1) (v : BitVec 1) : Statement (.stov d a g n v) := by
  intro w' v' h
  cases Option.some.inj h
  refine ⟨.s, rfl, ?_⟩
  show decodeSOp _ _ = _
  rw [cat_op]
  show (if _ then _ else _) = _
  rw [if_pos (by simp)]
  first | rfl | (congr 2 <;> simp)

theorem stom (d : BitVec 5) (a : BitVec 6) (g : BitVec 3) (n : BitVec 1) : Statement (.stom d a g n) := by
  intro w' v' h
  cases Option.some.inj h
  refine ⟨.s, rfl, ?_⟩
  show decodeSOp _ _ = _
  rw [cat_op]
  show (if _ then _ else _) = _
  rw [if_pos (by simp)]
  first | rfl | (congr 2 <;> simp)

theorem trap (a : BitVec 6) (g : BitVec 3) (n : BitVec 1) : Statement (.trap a g n) := by
  intro w' v' h
  cases Option.some.inj h
  refine ⟨.s, rfl, ?_⟩
  show decodeSOp _ _ = _
  rw [cat_op]
  show (if _ then _ else _) = _
  rw [if_pos (by simp)]
  first | rfl | (congr 2 <;> simp)

theorem eret : Statement .eret := by
  intro w' v' h
  cases Option.some.inj h
  refine ⟨.s, rfl, ?_⟩
  show decodeSOp _ _ = _
  rw [cat_op]
  show (if _ then _ else _) = _
  rw [if_pos (by simp)]

theorem eretReplay : Statement .eretReplay := by
  intro w' v' h
  cases Option.some.inj h
  refine ⟨.s, rfl, ?_⟩
  show decodeSOp _ _ = _
  rw [cat_op]
  show (if _ then _ else _) = _
  rw [if_neg (by simp)]
  show (if _ then _ else _) = _
  rw [if_pos (by simp)]

theorem eretFail : Statement .eretFail := by
  intro w' v' h
  cases Option.some.inj h
  refine ⟨.s, rfl, ?_⟩
  show decodeSOp _ _ = _
  rw [cat_op]
  show (if _ then _ else _) = _
  rw [if_neg (by simp)]
  show (if _ then _ else _) = _
  rw [if_neg (by simp)]
  show (if _ then _ else _) = _
  rw [if_pos (by simp)]

theorem preempt (d : BitVec 5) (a : BitVec 6) (b : BitVec 6) (g : BitVec 3) (n : BitVec 1) : Statement (.preempt d a b g n) := by
  intro w' v' h
  cases Option.some.inj h
  refine ⟨.s, rfl, ?_⟩
  show decodeSOp _ _ = _
  rw [cat_op]
  show (if _ then _ else _) = _
  rw [if_pos (by simp)]
  first | rfl | (congr 2 <;> simp)

theorem launch (d : BitVec 5) (a : BitVec 6) (b : BitVec 6) (g : BitVec 3) (n : BitVec 1) : Statement (.launch d a b g n) := by
  intro w' v' h
  cases Option.some.inj h
  refine ⟨.s, rfl, ?_⟩
  show decodeSOp _ _ = _
  rw [cat_op]
  show (if _ then _ else _) = _
  rw [if_pos (by simp)]
  first | rfl | (congr 2 <;> simp)

theorem phload (d : BitVec 5) (a : BitVec 6) (b : BitVec 6) (g : BitVec 3) (n : BitVec 1) : Statement (.phload d a b g n) := by
  intro w' v' h
  cases Option.some.inj h
  refine ⟨.s, rfl, ?_⟩
  show decodeSOp _ _ = _
  rw [cat_op]
  show (if _ then _ else _) = _
  rw [if_pos (by simp)]
  first | rfl | (congr 2 <;> simp)

theorem savectx (d : BitVec 5) (a : BitVec 6) (b : BitVec 6) (g : BitVec 3) (n : BitVec 1) : Statement (.savectx d a b g n) := by
  intro w' v' h
  cases Option.some.inj h
  refine ⟨.s, rfl, ?_⟩
  show decodeSOp _ _ = _
  rw [cat_op]
  show (if _ then _ else _) = _
  rw [if_pos (by simp)]
  first | rfl | (congr 2 <;> simp)

theorem restctx (d : BitVec 5) (a : BitVec 6) (b : BitVec 6) (g : BitVec 3) (n : BitVec 1) : Statement (.restctx d a b g n) := by
  intro w' v' h
  cases Option.some.inj h
  refine ⟨.s, rfl, ?_⟩
  show decodeSOp _ _ = _
  rw [cat_op]
  show (if _ then _ else _) = _
  rw [if_pos (by simp)]
  first | rfl | (congr 2 <;> simp)

theorem fcst (a : BitVec 6) (g : BitVec 3) (n : BitVec 1) : Statement (.fcst a g n) := by
  intro w' v' h
  cases Option.some.inj h
  refine ⟨.s, rfl, ?_⟩
  show decodeSOp _ _ = _
  rw [cat_op]
  show (if _ then _ else _) = _
  rw [if_pos (by simp)]
  first | rfl | (congr 2 <;> simp)

theorem watchArm (d : BitVec 5) (a : BitVec 6) (b : BitVec 6) (g : BitVec 3) (n : BitVec 1) : Statement (.watchArm d a b g n) := by
  intro w' v' h
  cases Option.some.inj h
  refine ⟨.s, rfl, ?_⟩
  show decodeSOp _ _ = _
  rw [cat_op]
  show (if _ then _ else _) = _
  rw [if_pos (by simp)]
  first | rfl | (congr 2 <;> simp)

theorem watchDis (a : BitVec 6) (g : BitVec 3) (n : BitVec 1) : Statement (.watchDis a g n) := by
  intro w' v' h
  cases Option.some.inj h
  refine ⟨.s, rfl, ?_⟩
  show decodeSOp _ _ = _
  rw [cat_op]
  show (if _ then _ else _) = _
  rw [if_neg (by simp)]
  show (if _ then _ else _) = _
  rw [if_pos (by simp)]
  first | rfl | (congr 2 <;> simp)

theorem mcode (d : BitVec 5) (a : BitVec 6) (b : BitVec 6) (g : BitVec 3) (n : BitVec 1) : Statement (.mcode d a b g n) := by
  intro w' v' h
  cases Option.some.inj h
  refine ⟨.s, rfl, ?_⟩
  show decodeSOp _ _ = _
  rw [cat_op]
  show (if _ then _ else _) = _
  rw [if_pos (by simp)]
  first | rfl | (congr 2 <;> simp)

theorem tlbinvPage (a : BitVec 6) (g : BitVec 3) (n : BitVec 1) : Statement (.tlbinvPage a g n) := by
  intro w' v' h
  cases Option.some.inj h
  refine ⟨.s, rfl, ?_⟩
  show decodeSOp _ _ = _
  rw [cat_op]
  show (if _ then _ else _) = _
  rw [if_pos (by simp)]
  first | rfl | (congr 2 <;> simp)

theorem tlbinvAll : Statement .tlbinvAll := by
  intro w' v' h
  cases Option.some.inj h
  refine ⟨.s, rfl, ?_⟩
  show decodeSOp _ _ = _
  rw [cat_op]
  show (if _ then _ else _) = _
  rw [if_neg (by simp)]
  show (if _ then _ else _) = _
  rw [if_pos (by simp)]

theorem repair (d : BitVec 5) (a : BitVec 6) (b : BitVec 6) (g : BitVec 3) (n : BitVec 1) : Statement (.repair d a b g n) := by
  intro w' v' h
  cases Option.some.inj h
  refine ⟨.s, rfl, ?_⟩
  show decodeSOp _ _ = _
  rw [cat_op]
  show (if _ then _ else _) = _
  rw [if_pos (by simp)]
  first | rfl | (congr 2 <;> simp)

theorem hostirq (a : BitVec 6) (g : BitVec 3) (n : BitVec 1) : Statement (.hostirq a g n) := by
  intro w' v' h
  cases Option.some.inj h
  refine ⟨.s, rfl, ?_⟩
  show decodeSOp _ _ = _
  rw [cat_op]
  show (if _ then _ else _) = _
  rw [if_pos (by simp)]
  first | rfl | (congr 2 <;> simp)

theorem vadd (w : BitVec 1) (d : BitVec 5) (a : BitVec 6) (b : BitVec 6) : Statement (.vadd w d a b) := by
  intro w' v' h
  cases Option.some.inj h
  refine ⟨.v, rfl, ?_⟩
  show decodeVOp _ _ = _
  rw [cat_op]
  show (if _ then _ else _) = _
  rw [if_pos (by simp)]
  first | rfl | (congr 2 <;> simp)

theorem vsub (w : BitVec 1) (d : BitVec 5) (a : BitVec 6) (b : BitVec 6) : Statement (.vsub w d a b) := by
  intro w' v' h
  cases Option.some.inj h
  refine ⟨.v, rfl, ?_⟩
  show decodeVOp _ _ = _
  rw [cat_op]
  show (if _ then _ else _) = _
  rw [if_pos (by simp)]
  first | rfl | (congr 2 <;> simp)

theorem vmul (w : BitVec 1) (d : BitVec 5) (a : BitVec 6) (b : BitVec 6) : Statement (.vmul w d a b) := by
  intro w' v' h
  cases Option.some.inj h
  refine ⟨.v, rfl, ?_⟩
  show decodeVOp _ _ = _
  rw [cat_op]
  show (if _ then _ else _) = _
  rw [if_pos (by simp)]
  first | rfl | (congr 2 <;> simp)

theorem vmulhi (w : BitVec 1) (d : BitVec 5) (a : BitVec 6) (b : BitVec 6) : Statement (.vmulhi w d a b) := by
  intro w' v' h
  cases Option.some.inj h
  refine ⟨.v, rfl, ?_⟩
  show decodeVOp _ _ = _
  rw [cat_op]
  show (if _ then _ else _) = _
  rw [if_pos (by simp)]
  first | rfl | (congr 2 <;> simp)

theorem vmulhz (w : BitVec 1) (d : BitVec 5) (a : BitVec 6) (b : BitVec 6) : Statement (.vmulhz w d a b) := by
  intro w' v' h
  cases Option.some.inj h
  refine ⟨.v, rfl, ?_⟩
  show decodeVOp _ _ = _
  rw [cat_op]
  show (if _ then _ else _) = _
  rw [if_pos (by simp)]
  first | rfl | (congr 2 <;> simp)

theorem vmad (w : BitVec 1) (d : BitVec 5) (a : BitVec 6) (b : BitVec 6) (c : BitVec 6) : Statement (.vmad w d a b c) := by
  intro w' v' h
  cases Option.some.inj h
  refine ⟨.v, rfl, ?_⟩
  show decodeVOp _ _ = _
  rw [cat_op]
  show some _ = _
  first | rfl | (congr 2 <;> simp)

theorem vand (w : BitVec 1) (d : BitVec 5) (a : BitVec 6) (b : BitVec 6) : Statement (.vand w d a b) := by
  intro w' v' h
  cases Option.some.inj h
  refine ⟨.v, rfl, ?_⟩
  show decodeVOp _ _ = _
  rw [cat_op]
  show (if _ then _ else _) = _
  rw [if_pos (by simp)]
  first | rfl | (congr 2 <;> simp)

theorem vor (w : BitVec 1) (d : BitVec 5) (a : BitVec 6) (b : BitVec 6) : Statement (.vor w d a b) := by
  intro w' v' h
  cases Option.some.inj h
  refine ⟨.v, rfl, ?_⟩
  show decodeVOp _ _ = _
  rw [cat_op]
  show (if _ then _ else _) = _
  rw [if_pos (by simp)]
  first | rfl | (congr 2 <;> simp)

theorem vxor (w : BitVec 1) (d : BitVec 5) (a : BitVec 6) (b : BitVec 6) : Statement (.vxor w d a b) := by
  intro w' v' h
  cases Option.some.inj h
  refine ⟨.v, rfl, ?_⟩
  show decodeVOp _ _ = _
  rw [cat_op]
  show (if _ then _ else _) = _
  rw [if_pos (by simp)]
  first | rfl | (congr 2 <;> simp)

theorem vandn (w : BitVec 1) (d : BitVec 5) (a : BitVec 6) (b : BitVec 6) : Statement (.vandn w d a b) := by
  intro w' v' h
  cases Option.some.inj h
  refine ⟨.v, rfl, ?_⟩
  show decodeVOp _ _ = _
  rw [cat_op]
  show (if _ then _ else _) = _
  rw [if_pos (by simp)]
  first | rfl | (congr 2 <;> simp)

theorem vshl (w : BitVec 1) (d : BitVec 5) (a : BitVec 6) (b : BitVec 6) : Statement (.vshl w d a b) := by
  intro w' v' h
  cases Option.some.inj h
  refine ⟨.v, rfl, ?_⟩
  show decodeVOp _ _ = _
  rw [cat_op]
  show (if _ then _ else _) = _
  rw [if_pos (by simp)]
  first | rfl | (congr 2 <;> simp)

theorem vshri (w : BitVec 1) (d : BitVec 5) (a : BitVec 6) (b : BitVec 6) : Statement (.vshri w d a b) := by
  intro w' v' h
  cases Option.some.inj h
  refine ⟨.v, rfl, ?_⟩
  show decodeVOp _ _ = _
  rw [cat_op]
  show (if _ then _ else _) = _
  rw [if_pos (by simp)]
  first | rfl | (congr 2 <;> simp)

theorem vshrz (w : BitVec 1) (d : BitVec 5) (a : BitVec 6) (b : BitVec 6) : Statement (.vshrz w d a b) := by
  intro w' v' h
  cases Option.some.inj h
  refine ⟨.v, rfl, ?_⟩
  show decodeVOp _ _ = _
  rw [cat_op]
  show (if _ then _ else _) = _
  rw [if_pos (by simp)]
  first | rfl | (congr 2 <;> simp)

theorem vmini (w : BitVec 1) (d : BitVec 5) (a : BitVec 6) (b : BitVec 6) : Statement (.vmini w d a b) := by
  intro w' v' h
  cases Option.some.inj h
  refine ⟨.v, rfl, ?_⟩
  show decodeVOp _ _ = _
  rw [cat_op]
  show (if _ then _ else _) = _
  rw [if_pos (by simp)]
  first | rfl | (congr 2 <;> simp)

theorem vminz (w : BitVec 1) (d : BitVec 5) (a : BitVec 6) (b : BitVec 6) : Statement (.vminz w d a b) := by
  intro w' v' h
  cases Option.some.inj h
  refine ⟨.v, rfl, ?_⟩
  show decodeVOp _ _ = _
  rw [cat_op]
  show (if _ then _ else _) = _
  rw [if_pos (by simp)]
  first | rfl | (congr 2 <;> simp)

theorem vmaxi (w : BitVec 1) (d : BitVec 5) (a : BitVec 6) (b : BitVec 6) : Statement (.vmaxi w d a b) := by
  intro w' v' h
  cases Option.some.inj h
  refine ⟨.v, rfl, ?_⟩
  show decodeVOp _ _ = _
  rw [cat_op]
  show (if _ then _ else _) = _
  rw [if_pos (by simp)]
  first | rfl | (congr 2 <;> simp)

theorem vmaxz (w : BitVec 1) (d : BitVec 5) (a : BitVec 6) (b : BitVec 6) : Statement (.vmaxz w d a b) := by
  intro w' v' h
  cases Option.some.inj h
  refine ⟨.v, rfl, ?_⟩
  show decodeVOp _ _ = _
  rw [cat_op]
  show (if _ then _ else _) = _
  rw [if_pos (by simp)]
  first | rfl | (congr 2 <;> simp)

theorem vabsi (w : BitVec 1) (d : BitVec 5) (a : BitVec 6) : Statement (.vabsi w d a) := by
  intro w' v' h
  cases Option.some.inj h
  refine ⟨.v, rfl, ?_⟩
  show decodeVOp _ _ = _
  rw [cat_op]
  show (if _ then _ else _) = _
  rw [if_pos (by simp)]
  first | rfl | (congr 2 <;> simp)

theorem vclz (w : BitVec 1) (d : BitVec 5) (a : BitVec 6) : Statement (.vclz w d a) := by
  intro w' v' h
  cases Option.some.inj h
  refine ⟨.v, rfl, ?_⟩
  show decodeVOp _ _ = _
  rw [cat_op]
  show (if _ then _ else _) = _
  rw [if_pos (by simp)]
  first | rfl | (congr 2 <;> simp)

theorem vpopc (w : BitVec 1) (d : BitVec 5) (a : BitVec 6) : Statement (.vpopc w d a) := by
  intro w' v' h
  cases Option.some.inj h
  refine ⟨.v, rfl, ?_⟩
  show decodeVOp _ _ = _
  rw [cat_op]
  show (if _ then _ else _) = _
  rw [if_pos (by simp)]
  first | rfl | (congr 2 <;> simp)

theorem vaddsi (w : BitVec 1) (d : BitVec 5) (a : BitVec 6) (b : BitVec 6) : Statement (.vaddsi w d a b) := by
  intro w' v' h
  cases Option.some.inj h
  refine ⟨.v, rfl, ?_⟩
  show decodeVOp _ _ = _
  rw [cat_op]
  show (if _ then _ else _) = _
  rw [if_pos (by simp)]
  first | rfl | (congr 2 <;> simp)

theorem vsubsi (w : BitVec 1) (d : BitVec 5) (a : BitVec 6) (b : BitVec 6) : Statement (.vsubsi w d a b) := by
  intro w' v' h
  cases Option.some.inj h
  refine ⟨.v, rfl, ?_⟩
  show decodeVOp _ _ = _
  rw [cat_op]
  show (if _ then _ else _) = _
  rw [if_pos (by simp)]
  first | rfl | (congr 2 <;> simp)

theorem vcmpi (w : BitVec 1) (d : BitVec 5) (a : BitVec 6) (b : BitVec 6) : Statement (.vcmpi w d a b) := by
  intro w' v' h
  cases Option.some.inj h
  refine ⟨.v, rfl, ?_⟩
  show decodeVOp _ _ = _
  rw [cat_op]
  show (if _ then _ else _) = _
  rw [if_pos (by simp)]
  first | rfl | (congr 2 <;> simp)

theorem vsel (w : BitVec 1) (d : BitVec 5) (a : BitVec 6) (b : BitVec 6) (c : BitVec 6) : Statement (.vsel w d a b c) := by
  intro w' v' h
  cases Option.some.inj h
  refine ⟨.v, rfl, ?_⟩
  show decodeVOp _ _ = _
  rw [cat_op]
  show some _ = _
  first | rfl | (congr 2 <;> simp)

theorem vfadd (w : BitVec 1) (d : BitVec 5) (a : BitVec 6) (b : BitVec 6) : Statement (.vfadd w d a b) := by
  intro w' v' h
  cases Option.some.inj h
  refine ⟨.v, rfl, ?_⟩
  show decodeVOp _ _ = _
  rw [cat_op]
  show (if _ then _ else _) = _
  rw [if_pos (by simp)]
  first | rfl | (congr 2 <;> simp)

theorem vfsub (w : BitVec 1) (d : BitVec 5) (a : BitVec 6) (b : BitVec 6) : Statement (.vfsub w d a b) := by
  intro w' v' h
  cases Option.some.inj h
  refine ⟨.v, rfl, ?_⟩
  show decodeVOp _ _ = _
  rw [cat_op]
  show (if _ then _ else _) = _
  rw [if_pos (by simp)]
  first | rfl | (congr 2 <;> simp)

theorem vfmul (w : BitVec 1) (d : BitVec 5) (a : BitVec 6) (b : BitVec 6) : Statement (.vfmul w d a b) := by
  intro w' v' h
  cases Option.some.inj h
  refine ⟨.v, rfl, ?_⟩
  show decodeVOp _ _ = _
  rw [cat_op]
  show (if _ then _ else _) = _
  rw [if_pos (by simp)]
  first | rfl | (congr 2 <;> simp)

theorem vfma (w : BitVec 1) (d : BitVec 5) (a : BitVec 6) (b : BitVec 6) (c : BitVec 6) : Statement (.vfma w d a b c) := by
  intro w' v' h
  cases Option.some.inj h
  refine ⟨.v, rfl, ?_⟩
  show decodeVOp _ _ = _
  rw [cat_op]
  show some _ = _
  first | rfl | (congr 2 <;> simp)

theorem vfms (w : BitVec 1) (d : BitVec 5) (a : BitVec 6) (b : BitVec 6) (c : BitVec 6) : Statement (.vfms w d a b c) := by
  intro w' v' h
  cases Option.some.inj h
  refine ⟨.v, rfl, ?_⟩
  show decodeVOp _ _ = _
  rw [cat_op]
  show some _ = _
  first | rfl | (congr 2 <;> simp)

theorem vfnma (w : BitVec 1) (d : BitVec 5) (a : BitVec 6) (b : BitVec 6) (c : BitVec 6) : Statement (.vfnma w d a b c) := by
  intro w' v' h
  cases Option.some.inj h
  refine ⟨.v, rfl, ?_⟩
  show decodeVOp _ _ = _
  rw [cat_op]
  show some _ = _
  first | rfl | (congr 2 <;> simp)

theorem vfmin (w : BitVec 1) (d : BitVec 5) (a : BitVec 6) (b : BitVec 6) : Statement (.vfmin w d a b) := by
  intro w' v' h
  cases Option.some.inj h
  refine ⟨.v, rfl, ?_⟩
  show decodeVOp _ _ = _
  rw [cat_op]
  show (if _ then _ else _) = _
  rw [if_pos (by simp)]
  first | rfl | (congr 2 <;> simp)

theorem vfmax (w : BitVec 1) (d : BitVec 5) (a : BitVec 6) (b : BitVec 6) : Statement (.vfmax w d a b) := by
  intro w' v' h
  cases Option.some.inj h
  refine ⟨.v, rfl, ?_⟩
  show decodeVOp _ _ = _
  rw [cat_op]
  show (if _ then _ else _) = _
  rw [if_pos (by simp)]
  first | rfl | (congr 2 <;> simp)

theorem vfabs (w : BitVec 1) (d : BitVec 5) (a : BitVec 6) : Statement (.vfabs w d a) := by
  intro w' v' h
  cases Option.some.inj h
  refine ⟨.v, rfl, ?_⟩
  show decodeVOp _ _ = _
  rw [cat_op]
  show (if _ then _ else _) = _
  rw [if_pos (by simp)]
  first | rfl | (congr 2 <;> simp)

theorem vfneg (w : BitVec 1) (d : BitVec 5) (a : BitVec 6) : Statement (.vfneg w d a) := by
  intro w' v' h
  cases Option.some.inj h
  refine ⟨.v, rfl, ?_⟩
  show decodeVOp _ _ = _
  rw [cat_op]
  show (if _ then _ else _) = _
  rw [if_pos (by simp)]
  first | rfl | (congr 2 <;> simp)

theorem vfcmp (w : BitVec 1) (d : BitVec 5) (a : BitVec 6) (b : BitVec 6) : Statement (.vfcmp w d a b) := by
  intro w' v' h
  cases Option.some.inj h
  refine ⟨.v, rfl, ?_⟩
  show decodeVOp _ _ = _
  rw [cat_op]
  show (if _ then _ else _) = _
  rw [if_pos (by simp)]
  first | rfl | (congr 2 <;> simp)

theorem vfclass (w : BitVec 1) (d : BitVec 5) (a : BitVec 6) : Statement (.vfclass w d a) := by
  intro w' v' h
  cases Option.some.inj h
  refine ⟨.v, rfl, ?_⟩
  show decodeVOp _ _ = _
  rw [cat_op]
  show (if _ then _ else _) = _
  rw [if_pos (by simp)]
  first | rfl | (congr 2 <;> simp)

theorem vfscale (w : BitVec 1) (d : BitVec 5) (a : BitVec 6) (b : BitVec 6) : Statement (.vfscale w d a b) := by
  intro w' v' h
  cases Option.some.inj h
  refine ⟨.v, rfl, ?_⟩
  show decodeVOp _ _ = _
  rw [cat_op]
  show (if _ then _ else _) = _
  rw [if_pos (by simp)]
  first | rfl | (congr 2 <;> simp)

theorem vfdiv (w : BitVec 1) (d : BitVec 5) (a : BitVec 6) (b : BitVec 6) : Statement (.vfdiv w d a b) := by
  intro w' v' h
  cases Option.some.inj h
  refine ⟨.v, rfl, ?_⟩
  show decodeVOp _ _ = _
  rw [cat_op]
  show (if _ then _ else _) = _
  rw [if_pos (by simp)]
  first | rfl | (congr 2 <;> simp)

theorem vfsqrt (w : BitVec 1) (d : BitVec 5) (a : BitVec 6) : Statement (.vfsqrt w d a) := by
  intro w' v' h
  cases Option.some.inj h
  refine ⟨.v, rfl, ?_⟩
  show decodeVOp _ _ = _
  rw [cat_op]
  show (if _ then _ else _) = _
  rw [if_pos (by simp)]
  first | rfl | (congr 2 <;> simp)

theorem vadd2 (d : BitVec 4) (a : BitVec 6) (b : BitVec 6) : Statement (.vadd2 d a b) := by
  intro w' v' h
  cases Option.some.inj h
  refine ⟨.v, rfl, ?_⟩
  show decodeVOp _ _ = _
  rw [cat_op]
  show (if _ then _ else _) = _
  rw [if_pos (by simp)]
  first | rfl | (congr 2 <;> simp)

theorem vsub2 (d : BitVec 4) (a : BitVec 6) (b : BitVec 6) : Statement (.vsub2 d a b) := by
  intro w' v' h
  cases Option.some.inj h
  refine ⟨.v, rfl, ?_⟩
  show decodeVOp _ _ = _
  rw [cat_op]
  show (if _ then _ else _) = _
  rw [if_pos (by simp)]
  first | rfl | (congr 2 <;> simp)

theorem vmul2 (d : BitVec 4) (a : BitVec 6) (b : BitVec 6) : Statement (.vmul2 d a b) := by
  intro w' v' h
  cases Option.some.inj h
  refine ⟨.v, rfl, ?_⟩
  show decodeVOp _ _ = _
  rw [cat_op]
  show (if _ then _ else _) = _
  rw [if_pos (by simp)]
  first | rfl | (congr 2 <;> simp)

theorem dwadd (d : BitVec 4) (a : BitVec 4) (b : BitVec 4) : Statement (.dwadd d a b) := by
  intro w' v' h
  cases Option.some.inj h
  refine ⟨.v, rfl, ?_⟩
  show decodeVOp _ _ = _
  rw [cat_op]
  show (if _ then _ else _) = _
  rw [if_pos (by simp)]
  first | rfl | (congr 2 <;> simp)

theorem dwadds (d : BitVec 4) (a : BitVec 4) (b : BitVec 6) : Statement (.dwadds d a b) := by
  intro w' v' h
  cases Option.some.inj h
  refine ⟨.v, rfl, ?_⟩
  show decodeVOp _ _ = _
  rw [cat_op]
  show (if _ then _ else _) = _
  rw [if_pos (by simp)]
  first | rfl | (congr 2 <;> simp)

theorem dwmul (d : BitVec 4) (a : BitVec 4) (b : BitVec 4) : Statement (.dwmul d a b) := by
  intro w' v' h
  cases Option.some.inj h
  refine ⟨.v, rfl, ?_⟩
  show decodeVOp _ _ = _
  rw [cat_op]
  show (if _ then _ else _) = _
  rw [if_pos (by simp)]
  first | rfl | (congr 2 <;> simp)

theorem dwmuls (d : BitVec 4) (a : BitVec 4) (b : BitVec 6) : Statement (.dwmuls d a b) := by
  intro w' v' h
  cases Option.some.inj h
  refine ⟨.v, rfl, ?_⟩
  show decodeVOp _ _ = _
  rw [cat_op]
  show (if _ then _ else _) = _
  rw [if_pos (by simp)]
  first | rfl | (congr 2 <;> simp)

theorem dwnorm (d : BitVec 4) (a : BitVec 4) : Statement (.dwnorm d a) := by
  intro w' v' h
  cases Option.some.inj h
  refine ⟨.v, rfl, ?_⟩
  show decodeVOp _ _ = _
  rw [cat_op]
  show (if _ then _ else _) = _
  rw [if_pos (by simp)]
  first | rfl | (congr 2 <;> simp)

theorem dwcvt (w : BitVec 1) (d : BitVec 5) (a : BitVec 4) : Statement (.dwcvt w d a) := by
  intro w' v' h
  cases Option.some.inj h
  refine ⟨.v, rfl, ?_⟩
  show decodeVOp _ _ = _
  rw [cat_op]
  show (if _ then _ else _) = _
  rw [if_pos (by simp)]
  first | rfl | (congr 2 <;> simp)

theorem vrsum2 (d : BitVec 4) (a : BitVec 6) : Statement (.vrsum2 d a) := by
  intro w' v' h
  cases Option.some.inj h
  refine ⟨.v, rfl, ?_⟩
  show decodeVOp _ _ = _
  rw [cat_op]
  show (if _ then _ else _) = _
  rw [if_pos (by simp)]
  first | rfl | (congr 2 <;> simp)

theorem vrsum (w : BitVec 1) (d : BitVec 5) (a : BitVec 6) : Statement (.vrsum w d a) := by
  intro w' v' h
  cases Option.some.inj h
  refine ⟨.v, rfl, ?_⟩
  show decodeVOp _ _ = _
  rw [cat_op]
  show (if _ then _ else _) = _
  rw [if_pos (by simp)]
  first | rfl | (congr 2 <;> simp)

theorem vrmax (w : BitVec 1) (d : BitVec 5) (a : BitVec 6) : Statement (.vrmax w d a) := by
  intro w' v' h
  cases Option.some.inj h
  refine ⟨.v, rfl, ?_⟩
  show decodeVOp _ _ = _
  rw [cat_op]
  show (if _ then _ else _) = _
  rw [if_pos (by simp)]
  first | rfl | (congr 2 <;> simp)

theorem vrmin (w : BitVec 1) (d : BitVec 5) (a : BitVec 6) : Statement (.vrmin w d a) := by
  intro w' v' h
  cases Option.some.inj h
  refine ⟨.v, rfl, ?_⟩
  show decodeVOp _ _ = _
  rw [cat_op]
  show (if _ then _ else _) = _
  rw [if_pos (by simp)]
  first | rfl | (congr 2 <;> simp)

theorem vpadd (w : BitVec 1) (d : BitVec 5) (a : BitVec 6) (b : BitVec 6) : Statement (.vpadd w d a b) := by
  intro w' v' h
  cases Option.some.inj h
  refine ⟨.v, rfl, ?_⟩
  show decodeVOp _ _ = _
  rw [cat_op]
  show (if _ then _ else _) = _
  rw [if_pos (by simp)]
  first | rfl | (congr 2 <;> simp)

theorem vpsub (w : BitVec 1) (d : BitVec 5) (a : BitVec 6) (b : BitVec 6) : Statement (.vpsub w d a b) := by
  intro w' v' h
  cases Option.some.inj h
  refine ⟨.v, rfl, ?_⟩
  show decodeVOp _ _ = _
  rw [cat_op]
  show (if _ then _ else _) = _
  rw [if_pos (by simp)]
  first | rfl | (congr 2 <;> simp)

theorem vpmul (w : BitVec 1) (d : BitVec 5) (a : BitVec 6) (b : BitVec 6) : Statement (.vpmul w d a b) := by
  intro w' v' h
  cases Option.some.inj h
  refine ⟨.v, rfl, ?_⟩
  show decodeVOp _ _ = _
  rw [cat_op]
  show (if _ then _ else _) = _
  rw [if_pos (by simp)]
  first | rfl | (congr 2 <;> simp)

theorem vpfma (w : BitVec 1) (d : BitVec 5) (a : BitVec 6) (b : BitVec 6) (c : BitVec 6) : Statement (.vpfma w d a b c) := by
  intro w' v' h
  cases Option.some.inj h
  refine ⟨.v, rfl, ?_⟩
  show decodeVOp _ _ = _
  rw [cat_op]
  show some _ = _
  first | rfl | (congr 2 <;> simp)

theorem vpmin (w : BitVec 1) (d : BitVec 5) (a : BitVec 6) (b : BitVec 6) : Statement (.vpmin w d a b) := by
  intro w' v' h
  cases Option.some.inj h
  refine ⟨.v, rfl, ?_⟩
  show decodeVOp _ _ = _
  rw [cat_op]
  show (if _ then _ else _) = _
  rw [if_pos (by simp)]
  first | rfl | (congr 2 <;> simp)

theorem vpmax (w : BitVec 1) (d : BitVec 5) (a : BitVec 6) (b : BitVec 6) : Statement (.vpmax w d a b) := by
  intro w' v' h
  cases Option.some.inj h
  refine ⟨.v, rfl, ?_⟩
  show decodeVOp _ _ = _
  rw [cat_op]
  show (if _ then _ else _) = _
  rw [if_pos (by simp)]
  first | rfl | (congr 2 <;> simp)

theorem vpdot (w : BitVec 1) (d : BitVec 5) (a : BitVec 6) (b : BitVec 6) (c : BitVec 6) : Statement (.vpdot w d a b c) := by
  intro w' v' h
  cases Option.some.inj h
  refine ⟨.v, rfl, ?_⟩
  show decodeVOp _ _ = _
  rw [cat_op]
  show some _ = _
  first | rfl | (congr 2 <;> simp)

theorem vpcmp (w : BitVec 1) (d : BitVec 5) (a : BitVec 6) (b : BitVec 6) : Statement (.vpcmp w d a b) := by
  intro w' v' h
  cases Option.some.inj h
  refine ⟨.v, rfl, ?_⟩
  show decodeVOp _ _ = _
  rw [cat_op]
  show (if _ then _ else _) = _
  rw [if_pos (by simp)]
  first | rfl | (congr 2 <;> simp)

theorem vcvt (w : BitVec 1) (d : BitVec 5) (a : BitVec 6) (t : BitVec 4) (s : BitVec 4) : Statement (.vcvt w d a t s) := by
  intro w' v' h
  cases Option.some.inj h
  refine ⟨.v, rfl, ?_⟩
  show decodeVOp _ _ = _
  rw [cat_op]
  show (if _ then _ else _) = _
  rw [if_pos (by simp)]
  first | rfl | (congr 2 <;> simp)

theorem vcvtp2N (w : BitVec 1) (d : BitVec 5) (a : BitVec 6) (p : BitVec 1) (c : BitVec 6) : Statement (.vcvtp2N w d a p c) := by
  intro w' v' h
  cases Option.some.inj h
  refine ⟨.v, rfl, ?_⟩
  show decodeVOp _ _ = _
  rw [cat_op]
  show (if _ then _ else _) = _
  rw [if_pos (by simp)]
  first | rfl | (congr 2 <;> simp)

theorem vcvtp2W (w : BitVec 1) (d : BitVec 5) (a : BitVec 6) (p : BitVec 1) (c : BitVec 6) : Statement (.vcvtp2W w d a p c) := by
  intro w' v' h
  cases Option.some.inj h
  refine ⟨.v, rfl, ?_⟩
  show decodeVOp _ _ = _
  rw [cat_op]
  show (if _ then _ else _) = _
  rw [if_neg (by simp)]
  show (if _ then _ else _) = _
  rw [if_pos (by simp)]
  first | rfl | (congr 2 <;> simp)

theorem vcvtp4N (w : BitVec 1) (d : BitVec 5) (a : BitVec 6) (p : BitVec 2) (c : BitVec 6) : Statement (.vcvtp4N w d a p c) := by
  intro w' v' h
  cases Option.some.inj h
  refine ⟨.v, rfl, ?_⟩
  show decodeVOp _ _ = _
  rw [cat_op]
  show (if _ then _ else _) = _
  rw [if_pos (by simp)]
  first | rfl | (congr 2 <;> simp)

theorem vcvtp4W (w : BitVec 1) (d : BitVec 5) (a : BitVec 6) (p : BitVec 2) (c : BitVec 6) : Statement (.vcvtp4W w d a p c) := by
  intro w' v' h
  cases Option.some.inj h
  refine ⟨.v, rfl, ?_⟩
  show decodeVOp _ _ = _
  rw [cat_op]
  show (if _ then _ else _) = _
  rw [if_neg (by simp)]
  show (if _ then _ else _) = _
  rw [if_pos (by simp)]
  first | rfl | (congr 2 <;> simp)

theorem vcvtp8N (w : BitVec 1) (d : BitVec 5) (a : BitVec 6) (p : BitVec 3) (c : BitVec 6) : Statement (.vcvtp8N w d a p c) := by
  intro w' v' h
  cases Option.some.inj h
  refine ⟨.v, rfl, ?_⟩
  show decodeVOp _ _ = _
  rw [cat_op]
  show (if _ then _ else _) = _
  rw [if_pos (by simp)]
  first | rfl | (congr 2 <;> simp)

theorem vcvtp8W (w : BitVec 1) (d : BitVec 5) (a : BitVec 6) (p : BitVec 3) (c : BitVec 6) : Statement (.vcvtp8W w d a p c) := by
  intro w' v' h
  cases Option.some.inj h
  refine ⟨.v, rfl, ?_⟩
  show decodeVOp _ _ = _
  rw [cat_op]
  show (if _ then _ else _) = _
  rw [if_neg (by simp)]
  show (if _ then _ else _) = _
  rw [if_pos (by simp)]
  first | rfl | (congr 2 <;> simp)

theorem vqnt (w : BitVec 1) (d : BitVec 5) (a : BitVec 6) (b : BitVec 6) (p : BitVec 3) : Statement (.vqnt w d a b p) := by
  intro w' v' h
  cases Option.some.inj h
  refine ⟨.v, rfl, ?_⟩
  show decodeVOp _ _ = _
  rw [cat_op]
  show (if _ then _ else _) = _
  rw [if_pos (by simp)]
  first | rfl | (congr 2 <;> simp)

theorem vqdiv (w : BitVec 1) (d : BitVec 5) (a : BitVec 6) (b : BitVec 6) (p : BitVec 3) : Statement (.vqdiv w d a b p) := by
  intro w' v' h
  cases Option.some.inj h
  refine ⟨.v, rfl, ?_⟩
  show decodeVOp _ _ = _
  rw [cat_op]
  show (if _ then _ else _) = _
  rw [if_pos (by simp)]
  first | rfl | (congr 2 <;> simp)

theorem vdeq (w : BitVec 1) (d : BitVec 5) (a : BitVec 6) (b : BitVec 6) (p : BitVec 3) : Statement (.vdeq w d a b p) := by
  intro w' v' h
  cases Option.some.inj h
  refine ⟨.v, rfl, ?_⟩
  show decodeVOp _ _ = _
  rw [cat_op]
  show (if _ then _ else _) = _
  rw [if_pos (by simp)]
  first | rfl | (congr 2 <;> simp)

theorem vmxpackScale (w : BitVec 1) (d : BitVec 5) (a : BitVec 6) (c : BitVec 6) : Statement (.vmxpackScale w d a c) := by
  intro w' v' h
  cases Option.some.inj h
  refine ⟨.v, rfl, ?_⟩
  show decodeVOp _ _ = _
  rw [cat_op]
  show (if _ then _ else _) = _
  rw [if_pos (by simp)]
  first | rfl | (congr 2 <;> simp)

theorem vmxpackAscale (w : BitVec 1) (d : BitVec 5) (a : BitVec 6) (c : BitVec 6) : Statement (.vmxpackAscale w d a c) := by
  intro w' v' h
  cases Option.some.inj h
  refine ⟨.v, rfl, ?_⟩
  show decodeVOp _ _ = _
  rw [cat_op]
  show (if _ then _ else _) = _
  rw [if_neg (by simp)]
  show (if _ then _ else _) = _
  rw [if_pos (by simp)]
  first | rfl | (congr 2 <;> simp)

theorem vmxpackPutp (w : BitVec 1) (d : BitVec 5) (a : BitVec 6) (p : BitVec 3) (c : BitVec 6) : Statement (.vmxpackPutp w d a p c) := by
  intro w' v' h
  cases Option.some.inj h
  refine ⟨.v, rfl, ?_⟩
  show decodeVOp _ _ = _
  rw [cat_op]
  show (if _ then _ else _) = _
  rw [if_neg (by exact fun h => absurd (cat_top (by simpa using h)) (by decide))]
  show (if _ then _ else _) = _
  rw [if_neg (by exact fun h => absurd (cat_top (by simpa using h)) (by decide))]
  show (if _ then _ else _) = _
  rw [if_pos (by simp)]
  first | rfl | (congr 2 <;> simp)

theorem vmxunp (w : BitVec 1) (d : BitVec 5) (a : BitVec 6) (p : BitVec 3) (c : BitVec 6) : Statement (.vmxunp w d a p c) := by
  intro w' v' h
  cases Option.some.inj h
  refine ⟨.v, rfl, ?_⟩
  show decodeVOp _ _ = _
  rw [cat_op]
  show (if _ then _ else _) = _
  rw [if_pos (by simp)]
  first | rfl | (congr 2 <;> simp)

theorem vftoi (w : BitVec 1) (d : BitVec 5) (a : BitVec 6) (z : BitVec 1) : Statement (.vftoi w d a z) := by
  intro w' v' h
  cases Option.some.inj h
  refine ⟨.v, rfl, ?_⟩
  show decodeVOp _ _ = _
  rw [cat_op]
  show (if _ then _ else _) = _
  rw [if_pos (by simp)]
  first | rfl | (congr 2 <;> simp)

theorem vitof (w : BitVec 1) (d : BitVec 5) (a : BitVec 6) (z : BitVec 1) : Statement (.vitof w d a z) := by
  intro w' v' h
  cases Option.some.inj h
  refine ⟨.v, rfl, ?_⟩
  show decodeVOp _ _ = _
  rw [cat_op]
  show (if _ then _ else _) = _
  rw [if_pos (by simp)]
  first | rfl | (congr 2 <;> simp)

theorem vrcp (w : BitVec 1) (d : BitVec 5) (a : BitVec 6) : Statement (.vrcp w d a) := by
  intro w' v' h
  cases Option.some.inj h
  refine ⟨.v, rfl, ?_⟩
  show decodeVOp _ _ = _
  rw [cat_op]
  show (if _ then _ else _) = _
  rw [if_pos (by simp)]
  first | rfl | (congr 2 <;> simp)

theorem vrsq (w : BitVec 1) (d : BitVec 5) (a : BitVec 6) : Statement (.vrsq w d a) := by
  intro w' v' h
  cases Option.some.inj h
  refine ⟨.v, rfl, ?_⟩
  show decodeVOp _ _ = _
  rw [cat_op]
  show (if _ then _ else _) = _
  rw [if_pos (by simp)]
  first | rfl | (congr 2 <;> simp)

theorem vexp2 (w : BitVec 1) (d : BitVec 5) (a : BitVec 6) : Statement (.vexp2 w d a) := by
  intro w' v' h
  cases Option.some.inj h
  refine ⟨.v, rfl, ?_⟩
  show decodeVOp _ _ = _
  rw [cat_op]
  show (if _ then _ else _) = _
  rw [if_pos (by simp)]
  first | rfl | (congr 2 <;> simp)

theorem vlog2 (w : BitVec 1) (d : BitVec 5) (a : BitVec 6) : Statement (.vlog2 w d a) := by
  intro w' v' h
  cases Option.some.inj h
  refine ⟨.v, rfl, ?_⟩
  show decodeVOp _ _ = _
  rw [cat_op]
  show (if _ then _ else _) = _
  rw [if_pos (by simp)]
  first | rfl | (congr 2 <;> simp)

theorem vsin (w : BitVec 1) (d : BitVec 5) (a : BitVec 6) : Statement (.vsin w d a) := by
  intro w' v' h
  cases Option.some.inj h
  refine ⟨.v, rfl, ?_⟩
  show decodeVOp _ _ = _
  rw [cat_op]
  show (if _ then _ else _) = _
  rw [if_pos (by simp)]
  first | rfl | (congr 2 <;> simp)

theorem vcos (w : BitVec 1) (d : BitVec 5) (a : BitVec 6) : Statement (.vcos w d a) := by
  intro w' v' h
  cases Option.some.inj h
  refine ⟨.v, rfl, ?_⟩
  show decodeVOp _ _ = _
  rw [cat_op]
  show (if _ then _ else _) = _
  rw [if_pos (by simp)]
  first | rfl | (congr 2 <;> simp)

theorem vtanh (w : BitVec 1) (d : BitVec 5) (a : BitVec 6) : Statement (.vtanh w d a) := by
  intro w' v' h
  cases Option.some.inj h
  refine ⟨.v, rfl, ?_⟩
  show decodeVOp _ _ = _
  rw [cat_op]
  show (if _ then _ else _) = _
  rw [if_pos (by simp)]
  first | rfl | (congr 2 <;> simp)

theorem vsigm (w : BitVec 1) (d : BitVec 5) (a : BitVec 6) : Statement (.vsigm w d a) := by
  intro w' v' h
  cases Option.some.inj h
  refine ⟨.v, rfl, ?_⟩
  show decodeVOp _ _ = _
  rw [cat_op]
  show (if _ then _ else _) = _
  rw [if_pos (by simp)]
  first | rfl | (congr 2 <;> simp)

theorem vexp (w : BitVec 1) (d : BitVec 5) (a : BitVec 6) : Statement (.vexp w d a) := by
  intro w' v' h
  cases Option.some.inj h
  refine ⟨.v, rfl, ?_⟩
  show decodeVOp _ _ = _
  rw [cat_op]
  show (if _ then _ else _) = _
  rw [if_pos (by simp)]
  first | rfl | (congr 2 <;> simp)

theorem vperm (w : BitVec 1) (d : BitVec 5) (a : BitVec 6) (b : BitVec 6) (c : BitVec 6) : Statement (.vperm w d a b c) := by
  intro w' v' h
  cases Option.some.inj h
  refine ⟨.v, rfl, ?_⟩
  show decodeVOp _ _ = _
  rw [cat_op]
  show some _ = _
  first | rfl | (congr 2 <;> simp)

theorem vbcast (w : BitVec 1) (d : BitVec 5) (a : BitVec 6) (p : BitVec 4) : Statement (.vbcast w d a p) := by
  intro w' v' h
  cases Option.some.inj h
  refine ⟨.v, rfl, ?_⟩
  show decodeVOp _ _ = _
  rw [cat_op]
  show (if _ then _ else _) = _
  rw [if_pos (by simp)]
  first | rfl | (congr 2 <;> simp)

theorem xcl (w : BitVec 1) (d : BitVec 5) (a : BitVec 6) (u : BitVec 1) (s : BitVec 3) : Statement (.xcl w d a u s) := by
  intro w' v' h
  cases Option.some.inj h
  refine ⟨.v, rfl, ?_⟩
  show decodeVOp _ _ = _
  rw [cat_op]
  show (if _ then _ else _) = _
  rw [if_pos (by simp)]
  first | rfl | (congr 2 <;> simp)

theorem xclb (w : BitVec 1) (d : BitVec 5) (a : BitVec 6) (s : BitVec 3) (c : BitVec 3) : Statement (.xclb w d a s c) := by
  intro w' v' h
  cases Option.some.inj h
  refine ⟨.v, rfl, ?_⟩
  show decodeVOp _ _ = _
  rw [cat_op]
  show (if _ then _ else _) = _
  rw [if_pos (by simp)]
  first | rfl | (congr 2 <;> simp)

theorem xred (w : BitVec 1) (d : BitVec 5) (a : BitVec 6) (k : BitVec 2) : Statement (.xred w d a k) := by
  intro w' v' h
  cases Option.some.inj h
  refine ⟨.v, rfl, ?_⟩
  show decodeVOp _ _ = _
  rw [cat_op]
  show (if _ then _ else _) = _
  rw [if_pos (by simp)]
  first | rfl | (congr 2 <;> simp)

theorem xcopy (w : BitVec 1) (d : BitVec 5) (a : BitVec 6) : Statement (.xcopy w d a) := by
  intro w' v' h
  cases Option.some.inj h
  refine ⟨.v, rfl, ?_⟩
  show decodeVOp _ _ = _
  rw [cat_op]
  show (if _ then _ else _) = _
  rw [if_pos (by simp)]
  first | rfl | (congr 2 <;> simp)

theorem vmov (w : BitVec 1) (d : BitVec 5) (a : BitVec 6) : Statement (.vmov w d a) := by
  intro w' v' h
  cases Option.some.inj h
  refine ⟨.v, rfl, ?_⟩
  show decodeVOp _ _ = _
  rw [cat_op]
  show (if _ then _ else _) = _
  rw [if_pos (by simp)]
  first | rfl | (congr 2 <;> simp)

theorem vmovi (w : BitVec 1) (d : BitVec 5) : Statement (.vmovi w d) := by
  intro w' v' h
  cases Option.some.inj h
  refine ⟨.v, rfl, ?_⟩
  show decodeVOp _ _ = _
  rw [cat_op]
  show (if _ then _ else _) = _
  rw [if_pos (by simp)]
  first | rfl | (congr 2 <;> simp)

theorem vtos (d : BitVec 5) (a : BitVec 6) (b : BitVec 6) : Statement (.vtos d a b) := by
  intro w' v' h
  cases Option.some.inj h
  refine ⟨.v, rfl, ?_⟩
  show decodeVOp _ _ = _
  rw [cat_op]
  show (if _ then _ else _) = _
  rw [if_pos (by simp)]
  first | rfl | (congr 2 <;> simp)

theorem vtree (w : BitVec 1) (d : BitVec 5) (a : BitVec 6) : Statement (.vtree w d a) := by
  intro w' v' h
  cases Option.some.inj h
  refine ⟨.v, rfl, ?_⟩
  show decodeVOp _ _ = _
  rw [cat_op]
  show (if _ then _ else _) = _
  rw [if_pos (by simp)]
  first | rfl | (congr 2 <;> simp)

theorem vmopTest (a : BitVec 6) (i : BitVec 3) (b : BitVec 6) : Statement (.vmopTest a i b) := by
  intro w' v' h
  cases Option.some.inj h
  refine ⟨.v, rfl, ?_⟩
  show decodeVOp _ _ = _
  rw [cat_op]
  show (if _ then _ else _) = _
  rw [if_pos (by simp)]
  first | rfl | (congr 2 <;> simp)

theorem vmopNz (a : BitVec 6) (i : BitVec 3) : Statement (.vmopNz a i) := by
  intro w' v' h
  cases Option.some.inj h
  refine ⟨.v, rfl, ?_⟩
  show decodeVOp _ _ = _
  rw [cat_op]
  show (if _ then _ else _) = _
  rw [if_neg (by simp)]
  show (if _ then _ else _) = _
  rw [if_pos (by simp)]
  first | rfl | (congr 2 <;> simp)

theorem vmopGet (w : BitVec 1) (d : BitVec 5) (i : BitVec 3) : Statement (.vmopGet w d i) := by
  intro w' v' h
  cases Option.some.inj h
  refine ⟨.v, rfl, ?_⟩
  show decodeVOp _ _ = _
  rw [cat_op]
  show (if _ then _ else _) = _
  rw [if_neg (by simp)]
  show (if _ then _ else _) = _
  rw [if_neg (by simp)]
  show (if _ then _ else _) = _
  rw [if_pos (by simp)]
  first | rfl | (congr 2 <;> simp)

theorem vmopAnd (i : BitVec 3) (j : BitVec 3) : Statement (.vmopAnd i j) := by
  intro w' v' h
  cases Option.some.inj h
  refine ⟨.v, rfl, ?_⟩
  show decodeVOp _ _ = _
  rw [cat_op]
  show (if _ then _ else _) = _
  rw [if_neg (by simp)]
  show (if _ then _ else _) = _
  rw [if_neg (by simp)]
  show (if _ then _ else _) = _
  rw [if_neg (by simp)]
  show (if _ then _ else _) = _
  rw [if_pos (by simp)]
  first | rfl | (congr 2 <;> simp)

theorem vmopOr (i : BitVec 3) (j : BitVec 3) : Statement (.vmopOr i j) := by
  intro w' v' h
  cases Option.some.inj h
  refine ⟨.v, rfl, ?_⟩
  show decodeVOp _ _ = _
  rw [cat_op]
  show (if _ then _ else _) = _
  rw [if_neg (by simp)]
  show (if _ then _ else _) = _
  rw [if_neg (by simp)]
  show (if _ then _ else _) = _
  rw [if_neg (by simp)]
  show (if _ then _ else _) = _
  rw [if_neg (by simp)]
  show (if _ then _ else _) = _
  rw [if_pos (by simp)]
  first | rfl | (congr 2 <;> simp)

theorem vmopXor (i : BitVec 3) (j : BitVec 3) : Statement (.vmopXor i j) := by
  intro w' v' h
  cases Option.some.inj h
  refine ⟨.v, rfl, ?_⟩
  show decodeVOp _ _ = _
  rw [cat_op]
  show (if _ then _ else _) = _
  rw [if_neg (by simp)]
  show (if _ then _ else _) = _
  rw [if_neg (by simp)]
  show (if _ then _ else _) = _
  rw [if_neg (by simp)]
  show (if _ then _ else _) = _
  rw [if_neg (by simp)]
  show (if _ then _ else _) = _
  rw [if_neg (by simp)]
  show (if _ then _ else _) = _
  rw [if_pos (by simp)]
  first | rfl | (congr 2 <;> simp)

theorem vmopNot (i : BitVec 3) (j : BitVec 3) : Statement (.vmopNot i j) := by
  intro w' v' h
  cases Option.some.inj h
  refine ⟨.v, rfl, ?_⟩
  show decodeVOp _ _ = _
  rw [cat_op]
  show (if _ then _ else _) = _
  rw [if_neg (by simp)]
  show (if _ then _ else _) = _
  rw [if_neg (by simp)]
  show (if _ then _ else _) = _
  rw [if_neg (by simp)]
  show (if _ then _ else _) = _
  rw [if_neg (by simp)]
  show (if _ then _ else _) = _
  rw [if_neg (by simp)]
  show (if _ then _ else _) = _
  rw [if_neg (by simp)]
  show (if _ then _ else _) = _
  rw [if_pos (by simp)]
  first | rfl | (congr 2 <;> simp)

theorem viota (w : BitVec 1) (d : BitVec 5) (a : BitVec 6) (s : BitVec 12) : Statement (.viota w d a s) := by
  intro w' v' h
  cases Option.some.inj h
  refine ⟨.v, rfl, ?_⟩
  show decodeVOp _ _ = _
  rw [cat_op]
  show some _ = _
  first | rfl | (congr 2 <;> simp)

theorem vrand (w : BitVec 1) (d : BitVec 5) (s : BitVec 2) (k : BitVec 2) : Statement (.vrand w d s k) := by
  intro w' v' h
  cases Option.some.inj h
  refine ⟨.v, rfl, ?_⟩
  show decodeVOp _ _ = _
  rw [cat_op]
  show (if _ then _ else _) = _
  rw [if_pos (by simp)]
  first | rfl | (congr 2 <;> simp)

theorem vrandA (w : BitVec 1) (d : BitVec 5) (s : BitVec 2) (k : BitVec 2) : Statement (.vrandA w d s k) := by
  intro w' v' h
  cases Option.some.inj h
  refine ⟨.v, rfl, ?_⟩
  show decodeVOp _ _ = _
  rw [cat_op]
  show (if _ then _ else _) = _
  rw [if_neg (by simp)]
  show (if _ then _ else _) = _
  rw [if_pos (by simp)]
  first | rfl | (congr 2 <;> simp)

theorem vcount (w : BitVec 1) (d : BitVec 5) (a : BitVec 6) : Statement (.vcount w d a) := by
  intro w' v' h
  cases Option.some.inj h
  refine ⟨.v, rfl, ?_⟩
  show decodeVOp _ _ = _
  rw [cat_op]
  show (if _ then _ else _) = _
  rw [if_pos (by simp)]
  first | rfl | (congr 2 <;> simp)

theorem vscan (w : BitVec 1) (d : BitVec 5) (a : BitVec 6) (k : BitVec 2) : Statement (.vscan w d a k) := by
  intro w' v' h
  cases Option.some.inj h
  refine ⟨.v, rfl, ?_⟩
  show decodeVOp _ _ = _
  rw [cat_op]
  show (if _ then _ else _) = _
  rw [if_pos (by simp)]
  first | rfl | (congr 2 <;> simp)

theorem vputk (a : BitVec 6) (b : BitVec 6) : Statement (.vputk a b) := by
  intro w' v' h
  cases Option.some.inj h
  refine ⟨.v, rfl, ?_⟩
  show decodeVOp _ _ = _
  rw [cat_op]
  show (if _ then _ else _) = _
  rw [if_pos (by simp)]
  first | rfl | (congr 2 <;> simp)

theorem mset (d : BitVec 3) : Statement (.mset d) := by
  intro w' v' h
  cases Option.some.inj h
  refine ⟨.m, rfl, ?_⟩
  show decodeMOp _ _ = _
  rw [cat_op]
  show (if _ then _ else _) = _
  rw [if_pos (by simp)]
  first | rfl | (congr 2 <;> simp)

theorem mcall (i : BitVec 9) : Statement (.mcall i) := by
  intro w' v' h
  cases Option.some.inj h
  refine ⟨.m, rfl, ?_⟩
  show decodeMOp _ _ = _
  rw [cat_op]
  show (if _ then _ else _) = _
  rw [if_pos (by simp)]
  first | rfl | (congr 2 <;> simp)

theorem mloads (a : BitVec 6) (x : BitVec 6) : Statement (.mloads a x) := by
  intro w' v' h
  cases Option.some.inj h
  refine ⟨.m, rfl, ?_⟩
  show decodeMOp _ _ = _
  rw [cat_op]
  show (if _ then _ else _) = _
  rw [if_pos (by simp)]
  first | rfl | (congr 2 <;> simp)

theorem mswap : Statement .mswap := by
  intro w' v' h
  cases Option.some.inj h
  refine ⟨.m, rfl, ?_⟩
  decide

theorem mstream (s : BitVec 6) (r : BitVec 6) (n : BitVec 8) (z : BitVec 1) : Statement (.mstream s r n z) := by
  intro w' v' h
  cases Option.some.inj h
  refine ⟨.m, rfl, ?_⟩
  show decodeMOp _ _ = _
  rw [cat_op]
  show (if _ then _ else _) = _
  rw [if_pos (by simp)]
  first | rfl | (congr 2 <;> simp)

theorem mexp (e : BitVec 6) : Statement (.mexp e) := by
  intro w' v' h
  cases Option.some.inj h
  refine ⟨.m, rfl, ?_⟩
  show decodeMOp _ _ = _
  rw [cat_op]
  show (if _ then _ else _) = _
  rw [if_pos (by simp)]
  first | rfl | (congr 2 <;> simp)

theorem mdrain (d : BitVec 6) (r : BitVec 6) (n : BitVec 8) (k : BitVec 1) : Statement (.mdrain d r n k) := by
  intro w' v' h
  cases Option.some.inj h
  refine ⟨.m, rfl, ?_⟩
  show decodeMOp _ _ = _
  rw [cat_op]
  show (if _ then _ else _) = _
  rw [if_pos (by simp)]
  first | rfl | (congr 2 <;> simp)

theorem mepiCol (a : BitVec 6) : Statement (.mepiCol a) := by
  intro w' v' h
  cases Option.some.inj h
  refine ⟨.m, rfl, ?_⟩
  show decodeMOp _ _ = _
  rw [cat_op]
  show (if _ then _ else _) = _
  rw [if_pos (by simp)]
  first | rfl | (congr 2 <;> simp)

theorem mepiRow (a : BitVec 6) : Statement (.mepiRow a) := by
  intro w' v' h
  cases Option.some.inj h
  refine ⟨.m, rfl, ?_⟩
  show decodeMOp _ _ = _
  rw [cat_op]
  show (if _ then _ else _) = _
  rw [if_neg (by simp)]
  show (if _ then _ else _) = _
  rw [if_pos (by simp)]
  first | rfl | (congr 2 <;> simp)

theorem mepiCfg (a : BitVec 6) : Statement (.mepiCfg a) := by
  intro w' v' h
  cases Option.some.inj h
  refine ⟨.m, rfl, ?_⟩
  show decodeMOp _ _ = _
  rw [cat_op]
  show (if _ then _ else _) = _
  rw [if_neg (by simp)]
  show (if _ then _ else _) = _
  rw [if_neg (by simp)]
  show (if _ then _ else _) = _
  rw [if_pos (by simp)]
  first | rfl | (congr 2 <;> simp)

theorem mclr (r : BitVec 6) (n : BitVec 8) : Statement (.mclr r n) := by
  intro w' v' h
  cases Option.some.inj h
  refine ⟨.m, rfl, ?_⟩
  show decodeMOp _ _ = _
  rw [cat_op]
  show (if _ then _ else _) = _
  rw [if_pos (by simp)]
  first | rfl | (congr 2 <;> simp)

theorem mspmeta (a : BitVec 6) : Statement (.mspmeta a) := by
  intro w' v' h
  cases Option.some.inj h
  refine ⟨.m, rfl, ?_⟩
  show decodeMOp _ _ = _
  rw [cat_op]
  show (if _ then _ else _) = _
  rw [if_pos (by simp)]
  first | rfl | (congr 2 <;> simp)

theorem macc (d : BitVec 6) (r : BitVec 6) (n : BitVec 7) : Statement (.macc d r n) := by
  intro w' v' h
  cases Option.some.inj h
  refine ⟨.m, rfl, ?_⟩
  show decodeMOp _ _ = _
  rw [cat_op]
  show (if _ then _ else _) = _
  rw [if_pos (by simp)]
  first | rfl | (congr 2 <;> simp)

theorem mtaintClr : Statement .mtaintClr := by
  intro w' v' h
  cases Option.some.inj h
  refine ⟨.m, rfl, ?_⟩
  decide

theorem mtaintSet : Statement .mtaintSet := by
  intro w' v' h
  cases Option.some.inj h
  refine ⟨.m, rfl, ?_⟩
  decide

theorem mstat (d : BitVec 3) (s : BitVec 3) : Statement (.mstat d s) := by
  intro w' v' h
  cases Option.some.inj h
  refine ⟨.m, rfl, ?_⟩
  show decodeMOp _ _ = _
  rw [cat_op]
  show (if _ then _ else _) = _
  rw [if_pos (by simp)]
  first | rfl | (congr 2 <;> simp)

theorem ldb (f : BitVec 3) (r : BitVec 5) (b : BitVec 4) (o : BitVec 12) : Statement (.ldb f r b o) := by
  intro w' v' h
  cases Option.some.inj h
  refine ⟨.c, rfl, ?_⟩
  show decodeCOp _ _ = _
  rw [cat_op]
  show some _ = _
  first | rfl | (congr 2 <;> simp)

theorem ldh (f : BitVec 3) (r : BitVec 5) (b : BitVec 4) (o : BitVec 12) : Statement (.ldh f r b o) := by
  intro w' v' h
  cases Option.some.inj h
  refine ⟨.c, rfl, ?_⟩
  show decodeCOp _ _ = _
  rw [cat_op]
  show some _ = _
  first | rfl | (congr 2 <;> simp)

theorem ldw (f : BitVec 3) (r : BitVec 5) (b : BitVec 4) (o : BitVec 12) : Statement (.ldw f r b o) := by
  intro w' v' h
  cases Option.some.inj h
  refine ⟨.c, rfl, ?_⟩
  show decodeCOp _ _ = _
  rw [cat_op]
  show some _ = _
  first | rfl | (congr 2 <;> simp)

theorem ldd (f : BitVec 3) (r : BitVec 5) (b : BitVec 4) (o : BitVec 12) : Statement (.ldd f r b o) := by
  intro w' v' h
  cases Option.some.inj h
  refine ⟨.c, rfl, ?_⟩
  show decodeCOp _ _ = _
  rw [cat_op]
  show some _ = _
  first | rfl | (congr 2 <;> simp)

theorem stb (f : BitVec 3) (r : BitVec 5) (b : BitVec 4) (o : BitVec 12) : Statement (.stb f r b o) := by
  intro w' v' h
  cases Option.some.inj h
  refine ⟨.c, rfl, ?_⟩
  show decodeCOp _ _ = _
  rw [cat_op]
  show some _ = _
  first | rfl | (congr 2 <;> simp)

theorem sth (f : BitVec 3) (r : BitVec 5) (b : BitVec 4) (o : BitVec 12) : Statement (.sth f r b o) := by
  intro w' v' h
  cases Option.some.inj h
  refine ⟨.c, rfl, ?_⟩
  show decodeCOp _ _ = _
  rw [cat_op]
  show some _ = _
  first | rfl | (congr 2 <;> simp)

theorem stw (f : BitVec 3) (r : BitVec 5) (b : BitVec 4) (o : BitVec 12) : Statement (.stw f r b o) := by
  intro w' v' h
  cases Option.some.inj h
  refine ⟨.c, rfl, ?_⟩
  show decodeCOp _ _ = _
  rw [cat_op]
  show some _ = _
  first | rfl | (congr 2 <;> simp)

theorem std (f : BitVec 3) (r : BitVec 5) (b : BitVec 4) (o : BitVec 12) : Statement (.std f r b o) := by
  intro w' v' h
  cases Option.some.inj h
  refine ⟨.c, rfl, ?_⟩
  show decodeCOp _ _ = _
  rw [cat_op]
  show some _ = _
  first | rfl | (congr 2 <;> simp)

theorem ldv (f : BitVec 3) (r : BitVec 5) (b : BitVec 4) (o : BitVec 12) : Statement (.ldv f r b o) := by
  intro w' v' h
  cases Option.some.inj h
  refine ⟨.c, rfl, ?_⟩
  show decodeCOp _ _ = _
  rw [cat_op]
  show some _ = _
  first | rfl | (congr 2 <;> simp)

theorem stv (f : BitVec 3) (r : BitVec 5) (b : BitVec 4) (o : BitVec 12) : Statement (.stv f r b o) := by
  intro w' v' h
  cases Option.some.inj h
  refine ⟨.c, rfl, ?_⟩
  show decodeCOp _ _ = _
  rw [cat_op]
  show some _ = _
  first | rfl | (congr 2 <;> simp)

theorem ldvb (f : BitVec 3) (r : BitVec 5) (b : BitVec 4) (o : BitVec 12) : Statement (.ldvb f r b o) := by
  intro w' v' h
  cases Option.some.inj h
  refine ⟨.c, rfl, ?_⟩
  show decodeCOp _ _ = _
  rw [cat_op]
  show some _ = _
  first | rfl | (congr 2 <;> simp)

theorem ldg (f : BitVec 1) (d : BitVec 5) (i : BitVec 5) (b : BitVec 4) : Statement (.ldg f d i b) := by
  intro w' v' h
  cases Option.some.inj h
  refine ⟨.c, rfl, ?_⟩
  show decodeCOp _ _ = _
  rw [cat_op]
  show (if _ then _ else _) = _
  rw [if_pos (by simp)]
  first | rfl | (congr 2 <;> simp)

theorem stg (f : BitVec 1) (d : BitVec 5) (i : BitVec 5) (b : BitVec 4) : Statement (.stg f d i b) := by
  intro w' v' h
  cases Option.some.inj h
  refine ⟨.c, rfl, ?_⟩
  show decodeCOp _ _ = _
  rw [cat_op]
  show (if _ then _ else _) = _
  rw [if_pos (by simp)]
  first | rfl | (congr 2 <;> simp)

theorem cstv (f : BitVec 1) (d : BitVec 5) (v : BitVec 5) (b : BitVec 4) (o : BitVec 9) : Statement (.cstv f d v b o) := by
  intro w' v' h
  cases Option.some.inj h
  refine ⟨.c, rfl, ?_⟩
  show decodeCOp _ _ = _
  rw [cat_op]
  show some _ = _
  first | rfl | (congr 2 <;> simp)

theorem ldp (f : BitVec 3) (r : BitVec 4) (b : BitVec 4) (o : BitVec 12) : Statement (.ldp f r b o) := by
  intro w' v' h
  cases Option.some.inj h
  refine ⟨.c, rfl, ?_⟩
  show decodeCOp _ _ = _
  rw [cat_op]
  show (if _ then _ else _) = _
  rw [if_pos (by simp)]
  first | rfl | (congr 2 <;> simp)

theorem stp (f : BitVec 3) (r : BitVec 4) (b : BitVec 4) (o : BitVec 12) : Statement (.stp f r b o) := by
  intro w' v' h
  cases Option.some.inj h
  refine ⟨.c, rfl, ?_⟩
  show decodeCOp _ _ = _
  rw [cat_op]
  show (if _ then _ else _) = _
  rw [if_pos (by simp)]
  first | rfl | (congr 2 <;> simp)

theorem adda (r : BitVec 4) (b : BitVec 4) : Statement (.adda r b) := by
  intro w' v' h
  cases Option.some.inj h
  refine ⟨.c, rfl, ?_⟩
  show decodeCOp _ _ = _
  rw [cat_op]
  show (if _ then _ else _) = _
  rw [if_pos (by simp)]
  first | rfl | (congr 2 <;> simp)

theorem mova (f : BitVec 3) (r : BitVec 5) (b : BitVec 4) (x : BitVec 1) : Statement (.mova f r b x) := by
  intro w' v' h
  cases Option.some.inj h
  refine ⟨.c, rfl, ?_⟩
  show decodeCOp _ _ = _
  rw [cat_op]
  show (if _ then _ else _) = _
  rw [if_pos (by simp)]
  first | rfl | (congr 2 <;> simp)

theorem fence (s : BitVec 3) (k : BitVec 2) : Statement (.fence s k) := by
  intro w' v' h
  cases Option.some.inj h
  refine ⟨.c, rfl, ?_⟩
  show decodeCOp _ _ = _
  rw [cat_op]
  show (if _ then _ else _) = _
  rw [if_pos (by simp)]
  first | rfl | (congr 2 <;> simp)

theorem strel (f : BitVec 3) (r : BitVec 5) (b : BitVec 4) (o : BitVec 12) : Statement (.strel f r b o) := by
  intro w' v' h
  cases Option.some.inj h
  refine ⟨.c, rfl, ?_⟩
  show decodeCOp _ _ = _
  rw [cat_op]
  show some _ = _
  first | rfl | (congr 2 <;> simp)

theorem ldacq (f : BitVec 3) (r : BitVec 5) (b : BitVec 4) (o : BitVec 12) : Statement (.ldacq f r b o) := by
  intro w' v' h
  cases Option.some.inj h
  refine ⟨.c, rfl, ?_⟩
  show decodeCOp _ _ = _
  rw [cat_op]
  show some _ = _
  first | rfl | (congr 2 <;> simp)

theorem atadd (f : BitVec 3) (r : BitVec 5) (b : BitVec 4) (o : BitVec 12) : Statement (.atadd f r b o) := by
  intro w' v' h
  cases Option.some.inj h
  refine ⟨.c, rfl, ?_⟩
  show decodeCOp _ _ = _
  rw [cat_op]
  show some _ = _
  first | rfl | (congr 2 <;> simp)

theorem atmin (f : BitVec 3) (r : BitVec 5) (b : BitVec 4) (o : BitVec 12) : Statement (.atmin f r b o) := by
  intro w' v' h
  cases Option.some.inj h
  refine ⟨.c, rfl, ?_⟩
  show decodeCOp _ _ = _
  rw [cat_op]
  show some _ = _
  first | rfl | (congr 2 <;> simp)

theorem atmax (f : BitVec 3) (r : BitVec 5) (b : BitVec 4) (o : BitVec 12) : Statement (.atmax f r b o) := by
  intro w' v' h
  cases Option.some.inj h
  refine ⟨.c, rfl, ?_⟩
  show decodeCOp _ _ = _
  rw [cat_op]
  show some _ = _
  first | rfl | (congr 2 <;> simp)

theorem atand (f : BitVec 3) (r : BitVec 5) (b : BitVec 4) (o : BitVec 12) : Statement (.atand f r b o) := by
  intro w' v' h
  cases Option.some.inj h
  refine ⟨.c, rfl, ?_⟩
  show decodeCOp _ _ = _
  rw [cat_op]
  show some _ = _
  first | rfl | (congr 2 <;> simp)

theorem ator (f : BitVec 3) (r : BitVec 5) (b : BitVec 4) (o : BitVec 12) : Statement (.ator f r b o) := by
  intro w' v' h
  cases Option.some.inj h
  refine ⟨.c, rfl, ?_⟩
  show decodeCOp _ _ = _
  rw [cat_op]
  show some _ = _
  first | rfl | (congr 2 <;> simp)

theorem atswp (f : BitVec 3) (r : BitVec 5) (b : BitVec 4) (o : BitVec 12) : Statement (.atswp f r b o) := by
  intro w' v' h
  cases Option.some.inj h
  refine ⟨.c, rfl, ?_⟩
  show decodeCOp _ _ = _
  rw [cat_op]
  show some _ = _
  first | rfl | (congr 2 <;> simp)

theorem atcas (d : BitVec 5) (w : BitVec 5) (b : BitVec 4) (o : BitVec 10) : Statement (.atcas d w b o) := by
  intro w' v' h
  cases Option.some.inj h
  refine ⟨.c, rfl, ?_⟩
  show decodeCOp _ _ = _
  rw [cat_op]
  show some _ = _
  first | rfl | (congr 2 <;> simp)

theorem atfadd (f : BitVec 3) (r : BitVec 5) (b : BitVec 4) (o : BitVec 12) : Statement (.atfadd f r b o) := by
  intro w' v' h
  cases Option.some.inj h
  refine ⟨.c, rfl, ?_⟩
  show decodeCOp _ _ = _
  rw [cat_op]
  show some _ = _
  first | rfl | (congr 2 <;> simp)

theorem atbadd (f : BitVec 3) (r : BitVec 5) (b : BitVec 4) (o : BitVec 12) : Statement (.atbadd f r b o) := by
  intro w' v' h
  cases Option.some.inj h
  refine ⟨.c, rfl, ?_⟩
  show decodeCOp _ _ = _
  rw [cat_op]
  show some _ = _
  first | rfl | (congr 2 <;> simp)

theorem binrd (f : BitVec 3) (r : BitVec 5) (b : BitVec 4) (o : BitVec 12) : Statement (.binrd f r b o) := by
  intro w' v' h
  cases Option.some.inj h
  refine ⟨.c, rfl, ?_⟩
  show decodeCOp _ _ = _
  rw [cat_op]
  show some _ = _
  first | rfl | (congr 2 <;> simp)

theorem bininit (f : BitVec 3) (r : BitVec 5) (b : BitVec 4) (o : BitVec 12) : Statement (.bininit f r b o) := by
  intro w' v' h
  cases Option.some.inj h
  refine ⟨.c, rfl, ?_⟩
  show decodeCOp _ _ = _
  rw [cat_op]
  show some _ = _
  first | rfl | (congr 2 <;> simp)

theorem qresv (c : BitVec 4) (k : BitVec 8) (t : BitVec 4) : Statement (.qresv c k t) := by
  intro w' v' h
  cases Option.some.inj h
  refine ⟨.c, rfl, ?_⟩
  show decodeCOp _ _ = _
  rw [cat_op]
  show (if _ then _ else _) = _
  rw [if_pos (by simp)]
  first | rfl | (congr 2 <;> simp)

theorem qpush (c : BitVec 4) (f : BitVec 3) (r : BitVec 5) (t : BitVec 4) : Statement (.qpush c f r t) := by
  intro w' v' h
  cases Option.some.inj h
  refine ⟨.c, rfl, ?_⟩
  show decodeCOp _ _ = _
  rw [cat_op]
  show (if _ then _ else _) = _
  rw [if_pos (by simp)]
  first | rfl | (congr 2 <;> simp)

theorem qstat (c : BitVec 4) (f : BitVec 3) (r : BitVec 5) (s : BitVec 2) : Statement (.qstat c f r s) := by
  intro w' v' h
  cases Option.some.inj h
  refine ⟨.c, rfl, ?_⟩
  show decodeCOp _ _ = _
  rw [cat_op]
  show (if _ then _ else _) = _
  rw [if_pos (by simp)]
  first | rfl | (congr 2 <;> simp)

theorem wopen (w : BitVec 2) (b : BitVec 4) (o : BitVec 12) : Statement (.wopen w b o) := by
  intro w' v' h
  cases Option.some.inj h
  refine ⟨.c, rfl, ?_⟩
  show decodeCOp _ _ = _
  rw [cat_op]
  show (if _ then _ else _) = _
  rw [if_pos (by simp)]
  first | rfl | (congr 2 <;> simp)

theorem wadv (w : BitVec 2) (k : BitVec 7) : Statement (.wadv w k) := by
  intro w' v' h
  cases Option.some.inj h
  refine ⟨.c, rfl, ?_⟩
  show decodeCOp _ _ = _
  rw [cat_op]
  show (if _ then _ else _) = _
  rw [if_pos (by simp)]
  first | rfl | (congr 2 <;> simp)

theorem wclose : Statement .wclose := by
  intro w' v' h
  cases Option.some.inj h
  refine ⟨.c, rfl, ?_⟩
  show decodeCOp _ _ = _
  rw [cat_op]
  show (if _ then _ else _) = _
  rw [if_pos (by simp)]

theorem wresRetry : Statement .wresRetry := by
  intro w' v' h
  cases Option.some.inj h
  refine ⟨.c, rfl, ?_⟩
  show decodeCOp _ _ = _
  rw [cat_op]
  show (if _ then _ else _) = _
  rw [if_pos (by simp)]

theorem wresFail : Statement .wresFail := by
  intro w' v' h
  cases Option.some.inj h
  refine ⟨.c, rfl, ?_⟩
  show decodeCOp _ _ = _
  rw [cat_op]
  show (if _ then _ else _) = _
  rw [if_neg (by simp)]
  show (if _ then _ else _) = _
  rw [if_pos (by simp)]

theorem wstat (w : BitVec 2) (f : BitVec 3) (r : BitVec 5) : Statement (.wstat w f r) := by
  intro w' v' h
  cases Option.some.inj h
  refine ⟨.c, rfl, ?_⟩
  show decodeCOp _ _ = _
  rw [cat_op]
  show (if _ then _ else _) = _
  rw [if_pos (by simp)]
  first | rfl | (congr 2 <;> simp)

theorem wflush : Statement .wflush := by
  intro w' v' h
  cases Option.some.inj h
  refine ⟨.c, rfl, ?_⟩
  show decodeCOp _ _ = _
  rw [cat_op]
  show (if _ then _ else _) = _
  rw [if_pos (by simp)]

theorem txsend (c : BitVec 4) (b : BitVec 4) (o : BitVec 16) : Statement (.txsend c b o) := by
  intro w' v' h
  cases Option.some.inj h
  refine ⟨.c, rfl, ?_⟩
  show decodeCOp _ _ = _
  rw [cat_op]
  show some _ = _
  first | rfl | (congr 2 <;> simp)

theorem txwalk : Statement .txwalk := by
  intro w' v' h
  cases Option.some.inj h
  refine ⟨.c, rfl, ?_⟩
  show decodeCOp _ _ = _
  rw [cat_op]
  show (if _ then _ else _) = _
  rw [if_pos (by simp)]

theorem txcopy (c : BitVec 4) (b : BitVec 4) (o : BitVec 16) : Statement (.txcopy c b o) := by
  intro w' v' h
  cases Option.some.inj h
  refine ⟨.c, rfl, ?_⟩
  show decodeCOp _ _ = _
  rw [cat_op]
  show some _ = _
  first | rfl | (congr 2 <;> simp)

theorem txresRetry : Statement .txresRetry := by
  intro w' v' h
  cases Option.some.inj h
  refine ⟨.c, rfl, ?_⟩
  show decodeCOp _ _ = _
  rw [cat_op]
  show (if _ then _ else _) = _
  rw [if_pos (by simp)]

theorem txresFail : Statement .txresFail := by
  intro w' v' h
  cases Option.some.inj h
  refine ⟨.c, rfl, ?_⟩
  show decodeCOp _ _ = _
  rw [cat_op]
  show (if _ then _ else _) = _
  rw [if_neg (by simp)]
  show (if _ then _ else _) = _
  rw [if_pos (by simp)]

theorem rxarm (f : BitVec 3) (r : BitVec 5) : Statement (.rxarm f r) := by
  intro w' v' h
  cases Option.some.inj h
  refine ⟨.c, rfl, ?_⟩
  show decodeCOp _ _ = _
  rw [cat_op]
  show (if _ then _ else _) = _
  rw [if_pos (by simp)]
  first | rfl | (congr 2 <;> simp)

theorem rxflag (f : BitVec 3) (r : BitVec 5) (t : BitVec 16) : Statement (.rxflag f r t) := by
  intro w' v' h
  cases Option.some.inj h
  refine ⟨.c, rfl, ?_⟩
  show decodeCOp _ _ = _
  rw [cat_op]
  show some _ = _
  first | rfl | (congr 2 <;> simp)

theorem mcsto (c : BitVec 4) (b : BitVec 4) (o : BitVec 16) : Statement (.mcsto c b o) := by
  intro w' v' h
  cases Option.some.inj h
  refine ⟨.c, rfl, ?_⟩
  show decodeCOp _ _ = _
  rw [cat_op]
  show some _ = _
  first | rfl | (congr 2 <;> simp)

theorem mcapplBind : Statement .mcapplBind := by
  intro w' v' h
  cases Option.some.inj h
  refine ⟨.c, rfl, ?_⟩
  show decodeCOp _ _ = _
  rw [cat_op]
  show (if _ then _ else _) = _
  rw [if_pos (by simp)]

theorem mcapplRd (f : BitVec 3) (r : BitVec 5) : Statement (.mcapplRd f r) := by
  intro w' v' h
  cases Option.some.inj h
  refine ⟨.c, rfl, ?_⟩
  show decodeCOp _ _ = _
  rw [cat_op]
  show (if _ then _ else _) = _
  rw [if_neg (by simp)]
  show (if _ then _ else _) = _
  rw [if_pos (by simp)]
  first | rfl | (congr 2 <;> simp)

theorem mcapplUnbind : Statement .mcapplUnbind := by
  intro w' v' h
  cases Option.some.inj h
  refine ⟨.c, rfl, ?_⟩
  decide

theorem mcjoinJoin (c : BitVec 4) (f : BitVec 3) (r : BitVec 5) : Statement (.mcjoinJoin c f r) := by
  intro w' v' h
  cases Option.some.inj h
  refine ⟨.c, rfl, ?_⟩
  show decodeCOp _ _ = _
  rw [cat_op]
  show (if _ then _ else _) = _
  rw [if_pos (by simp)]
  first | rfl | (congr 2 <;> simp)

theorem mcjoinLeave (c : BitVec 4) (f : BitVec 3) (r : BitVec 5) : Statement (.mcjoinLeave c f r) := by
  intro w' v' h
  cases Option.some.inj h
  refine ⟨.c, rfl, ?_⟩
  show decodeCOp _ _ = _
  rw [cat_op]
  show (if _ then _ else _) = _
  rw [if_neg (by simp)]
  show (if _ then _ else _) = _
  rw [if_pos (by simp)]
  first | rfl | (congr 2 <;> simp)

theorem ratom (c : BitVec 4) (b : BitVec 4) (o : BitVec 16) : Statement (.ratom c b o) := by
  intro w' v' h
  cases Option.some.inj h
  refine ⟨.c, rfl, ?_⟩
  show decodeCOp _ _ = _
  rw [cat_op]
  show some _ = _
  first | rfl | (congr 2 <;> simp)

theorem rload (c : BitVec 4) (b : BitVec 4) (o : BitVec 16) : Statement (.rload c b o) := by
  intro w' v' h
  cases Option.some.inj h
  refine ⟨.c, rfl, ?_⟩
  show decodeCOp _ _ = _
  rw [cat_op]
  show some _ = _
  first | rfl | (congr 2 <;> simp)

theorem emptyBundle : Statement .emptyBundle := fun _ _ h => nomatch h

theorem resultLanding : Statement .resultLanding := fun _ _ h => nomatch h

theorem bankAccess : Statement .bankAccess := fun _ _ h => nomatch h

theorem engineBankAccess : Statement .engineBankAccess := fun _ _ h => nomatch h

theorem eccRewrite : Statement .eccRewrite := fun _ _ h => nomatch h

theorem arrayRowAccumulate : Statement .arrayRowAccumulate := fun _ _ h => nomatch h

theorem drainRowWrite : Statement .drainRowWrite := fun _ _ h => nomatch h

theorem urgentContextEntry : Statement .urgentContextEntry := fun _ _ h => nomatch h

theorem shadowDelivery : Statement .shadowDelivery := fun _ _ h => nomatch h

theorem preemptDelivery : Statement .preemptDelivery := fun _ _ h => nomatch h

theorem tlwaitRelease : Statement .tlwaitRelease := fun _ _ h => nomatch h

theorem realignRelease : Statement .realignRelease := fun _ _ h => nomatch h

theorem c1LoadArrival : Statement .c1LoadArrival := fun _ _ h => nomatch h

theorem fenceDone : Statement .fenceDone := fun _ _ h => nomatch h

theorem fetchMissFill : Statement .fetchMissFill := fun _ _ h => nomatch h

theorem phloadDone : Statement .phloadDone := fun _ _ h => nomatch h

theorem launchDone : Statement .launchDone := fun _ _ h => nomatch h

theorem mcodeDone : Statement .mcodeDone := fun _ _ h => nomatch h

theorem mcodeTargetLoad : Statement .mcodeTargetLoad := fun _ _ h => nomatch h

theorem repairDone : Statement .repairDone := fun _ _ h => nomatch h

theorem tlbinvDone : Statement .tlbinvDone := fun _ _ h => nomatch h

theorem watchArmDone : Statement .watchArmDone := fun _ _ h => nomatch h

theorem watchFire : Statement .watchFire := fun _ _ h => nomatch h

theorem hostirqRelease : Statement .hostirqRelease := fun _ _ h => nomatch h

theorem irqWindowExpiry : Statement .irqWindowExpiry := fun _ _ h => nomatch h

theorem msixUnmask : Statement .msixUnmask := fun _ _ h => nomatch h

theorem signoffMessage : Statement .signoffMessage := fun _ _ h => nomatch h

theorem portSignoff : Statement .portSignoff := fun _ _ h => nomatch h

theorem receiveSignoff : Statement .receiveSignoff := fun _ _ h => nomatch h

theorem cloveArrival : Statement .cloveArrival := fun _ _ h => nomatch h

theorem phaseStart : Statement .phaseStart := fun _ _ h => nomatch h

theorem missedSignoff : Statement .missedSignoff := fun _ _ h => nomatch h

theorem slackOverrun : Statement .slackOverrun := fun _ _ h => nomatch h

theorem slackHardLimit : Statement .slackHardLimit := fun _ _ h => nomatch h

theorem maceWindow : Statement .maceWindow := fun _ _ h => nomatch h

theorem rowFill : Statement .rowFill := fun _ _ h => nomatch h

theorem rowDrain : Statement .rowDrain := fun _ _ h => nomatch h

theorem windowOpComplete : Statement .windowOpComplete := fun _ _ h => nomatch h

theorem eventOverflowMove : Statement .eventOverflowMove := fun _ _ h => nomatch h

theorem pageWalk : Statement .pageWalk := fun _ _ h => nomatch h

theorem transferComplete : Statement .transferComplete := fun _ _ h => nomatch h

theorem notifyPush : Statement .notifyPush := fun _ _ h => nomatch h

theorem qresvComplete : Statement .qresvComplete := fun _ _ h => nomatch h

theorem qpushEnqueue : Statement .qpushEnqueue := fun _ _ h => nomatch h

theorem timetableSourceRead : Statement .timetableSourceRead := fun _ _ h => nomatch h

theorem timetabledFlitDepart : Statement .timetabledFlitDepart := fun _ _ h => nomatch h

theorem flitArrival : Statement .flitArrival := fun _ _ h => nomatch h

theorem flitReplay : Statement .flitReplay := fun _ _ h => nomatch h

theorem linkRetrainDone : Statement .linkRetrainDone := fun _ _ h => nomatch h

theorem linkLoss : Statement .linkLoss := fun _ _ h => nomatch h

theorem multicastStamp : Statement .multicastStamp := fun _ _ h => nomatch h

theorem multicastApply : Statement .multicastApply := fun _ _ h => nomatch h

theorem multicastResend : Statement .multicastResend := fun _ _ h => nomatch h

theorem mcstoComplete : Statement .mcstoComplete := fun _ _ h => nomatch h

theorem multicastJoinRecord : Statement .multicastJoinRecord := fun _ _ h => nomatch h

theorem remoteAtomicPerform : Statement .remoteAtomicPerform := fun _ _ h => nomatch h

theorem ratomReply : Statement .ratomReply := fun _ _ h => nomatch h

theorem ratomResend : Statement .ratomResend := fun _ _ h => nomatch h

theorem alignmentLost : Statement .alignmentLost := fun _ _ h => nomatch h

theorem thermalStop : Statement .thermalStop := fun _ _ h => nomatch h

theorem thermalIndexUpdate : Statement .thermalIndexUpdate := fun _ _ h => nomatch h

theorem taskAdmission : Statement .taskAdmission := fun _ _ h => nomatch h

theorem taskStart : Statement .taskStart := fun _ _ h => nomatch h

theorem indirectCountRead : Statement .indirectCountRead := fun _ _ h => nomatch h

theorem backfillCutoff : Statement .backfillCutoff := fun _ _ h => nomatch h

theorem ensemblePartnerTimeout : Statement .ensemblePartnerTimeout := fun _ _ h => nomatch h

theorem taskEnd : Statement .taskEnd := fun _ _ h => nomatch h

theorem savePoint : Statement .savePoint := fun _ _ h => nomatch h

theorem restctxDone : Statement .restctxDone := fun _ _ h => nomatch h

theorem form : Statement .form := fun _ _ h => nomatch h

theorem dissolve : Statement .dissolve := fun _ _ h => nomatch h

theorem opench : Statement .opench := fun _ _ h => nomatch h

theorem closech : Statement .closech := fun _ _ h => nomatch h

theorem group : Statement .group := fun _ _ h => nomatch h

theorem restart : Statement .restart := fun _ _ h => nomatch h

theorem domain : Statement .domain := fun _ _ h => nomatch h

theorem sparecc : Statement .sparecc := fun _ _ h => nomatch h

theorem fwstage : Statement .fwstage := fun _ _ h => nomatch h

theorem fwact : Statement .fwact := fun _ _ h => nomatch h

theorem serviceCommandComplete : Statement .serviceCommandComplete := fun _ _ h => nomatch h

theorem irqwinWrite : Statement .irqwinWrite := fun _ _ h => nomatch h

theorem allotWrite : Statement .allotWrite := fun _ _ h => nomatch h

theorem registerWrite : Statement .registerWrite := fun _ _ h => nomatch h

theorem hostWrite : Statement .hostWrite := fun _ _ h => nomatch h

theorem hostRead : Statement .hostRead := fun _ _ h => nomatch h

theorem patrolScrub : Statement .patrolScrub := fun _ _ h => nomatch h

theorem coldReset : Statement .coldReset := fun _ _ h => nomatch h

theorem warmReset : Statement .warmReset := fun _ _ h => nomatch h

theorem getVersion : Statement .getVersion := fun _ _ h => nomatch h

theorem getCapabilities : Statement .getCapabilities := fun _ _ h => nomatch h

theorem negotiateAlgorithms : Statement .negotiateAlgorithms := fun _ _ h => nomatch h

theorem getDigests : Statement .getDigests := fun _ _ h => nomatch h

theorem getCertificate : Statement .getCertificate := fun _ _ h => nomatch h

theorem challenge : Statement .challenge := fun _ _ h => nomatch h

theorem getMeasurements : Statement .getMeasurements := fun _ _ h => nomatch h

theorem thermalLimitReached : Statement .thermalLimitReached := fun _ _ h => nomatch h

theorem hbmRefresh : Statement .hbmRefresh := fun _ _ h => nomatch h

theorem c1StorePerformed : Statement .c1StorePerformed := fun _ _ h => nomatch h

theorem multicastMemberFailed : Statement .multicastMemberFailed := fun _ _ h => nomatch h

end Sys2Proof.Laws.RoundTrip
end

