-- ==== Sys2Proof/Tests/Slice0.lean ====
section
/-!
SUPPORT. Tests of the model on words and values worked out from the spec, and for every statement with hypotheses a witness: a
concrete state and operands that meet the hypotheses of each of its clauses, at the boundaries of their ranges.
-/

namespace Sys2Proof.Tests

open Sys2Proof Sys2Proof.Machine

/- One theorem is checked at a time: checks that wait for each other would each hold a thread. -/
set_option Elab.async false

/-! ### Small states -/

/-- A chip with one vector-matrix core of interest, which issues and at which events happen, a second one, and a control core. -/
def vm (k : Core) : State := { vms := [k, {}], ccs := [{}] }

/-- The same with a control core that issues and at which events happen. -/
def cc (k : Core) : State := { vms := [{}, {}], ccs := [k], cur := { core := ⟨true, 0⟩ }, ev := { core := ⟨true, 0⟩ } }

/-- A core with these values in s1 onwards. -/
def regs (l : List W64) : Core := { main := { s := 0 :: (l ++ List.replicate 31 0) } }

/-- The same with the issuing slot and syllable. -/
def at_ (s : State) (slot : Nat) (syl : W32) : State := { s with cur := { s.cur with slot := slot, syl := syl } }

/-- A bit of the syllable set so that the guard of a form with its guard in bits 6:3 is false: gn = 1 with g0. -/
def offSyl : W32 := 8

/-- Page tables that map every address below 2^28 of partition 0 to itself, readable and writable; a task record at 0x4000 (a gang of
one core without phases, 4 bytes of code, D 64), a phase record at 0x5000 (final, profile 2, LENGTH and SLACK 1) and one with LENGTH
0 at 0x5040, a routine of one END word with window 10 at 0x6000, and the header of a saved gang of one core at 0x7000. -/
def tables : List Host.Cell :=
  [(0, 1), (1, 0x20), (0x2000, 0x1D), (0x4000, 1), (0x4001, 2), (0x4004, 1), (0x4008, 4), (0x4048, 64), (0x5001, 0x21), (0x5004, 1), (0x5008, 1),
   (0x5041, 0x21), (0x5048, 1), (0x6008, 10), (0x600A, 0x10), (0x6017, 0xB0), (0x7000, 1), (0x7001, 2)]

/-- A chip with these tables, whose first 256 MiB are allotted to partition 0. -/
def paged (s : State) : State := { s with sys := tables, svc := { s.svc with allot := 0x80 :: List.replicate 2047 0 } }

theorem executes_of {s : State} {g : BitVec 3} {n : BitVec 1} (h : (hasCore s s.cur.core && !noRoom s && guardOn s g n) = true) :
    Executes s g n := by
  simp only [Bool.and_eq_true, Bool.not_eq_true'] at h
  exact ⟨h.1.1, h.1.2, h.2⟩

theorem hasRoom_of {s : State} (h : (hasCore s s.cur.core && !noRoom s) = true) : HasRoom s := by
  simp only [Bool.and_eq_true, Bool.not_eq_true'] at h
  exact ⟨h.1, h.2⟩

theorem hasDuty_of {s : State}
    (h : (hasCore s s.cur.core && !noRoom s && (isUrg s || decide ((me s).ph.vCount + 1 ≤ 128 * (me s).ph.grantV))) = true) : HasDuty s := by
  simp only [Bool.and_eq_true, Bool.not_eq_true', Bool.or_eq_true, decide_eq_true_eq] at h
  exact ⟨h.1.1, h.1.2, h.2⟩

/-! ### Decoding: words of the spec -/

/-- 03:R65 "A bundle encoded": the bundle of ADD, VFADD, VFMUL and LDW. -/
theorem test_decodes_the_example_bundle :
    decodeBundle false false [0xE8454000, 0x01189400, 0x20101C40, 0x220C1940, 0x03062002] = .legal ⟨0xE8454000, 0, 5,
      [⟨0, 0x01189400, .add 3 4 40 0 0⟩, ⟨1, 0x20101C40, .vfadd 0 4 1 49⟩, ⟨2, 0x220C1940, .vfmul 0 3 1 37⟩, ⟨4, 0x03062002, .ldw 0 6 2 2⟩]⟩ := by
  decide +kernel

/-- The same bundle from its twenty bytes, lowest address first. -/
theorem test_fetches_the_example_bundle :
    fetchBundle (vm { istore := memWrite [] 0x40 [0x00, 0x40, 0x45, 0xE8, 0x00, 0x94, 0x18, 0x01, 0x40, 0x1C, 0x10, 0x20, 0x40, 0x19, 0x0C, 0x22,
      0x02, 0x20, 0x06, 0x03] }) ⟨false, 0⟩ 0x40 = .words [0xE8454000, 0x01189400, 0x20101C40, 0x220C1940, 0x03062002] := by
  decide +kernel

/-- 03: the long-form bundle of MOVL s7. -/
theorem test_decodes_a_lend_bundle :
    decodeBundle false false [0x82000000, 0x12345678, 0x60380000] = .legal ⟨0x82000000, 0x12345678, 3, [⟨0, 0x60380000, .movl 7⟩]⟩ := by
  decide +kernel

/-- The scalar slot: 06 (the call example), 11:R236, 13:R270, 14, 15, 18:R374, R383, 20, 23. -/
theorem test_decodes_scalar_words :
    [0x84008001, 0x5788A014, 0x81000036, 0x83000000, 0x0B48B910, 0x803FFFFF, 0x9A580002, 0xCA008000, 0xCA000001, 0xC9188280, 0x96360000, 0x99008000,
      0xC4188280, 0x8600000A, 0x95002100, 0xC328C380, 0xA0008281, 0xA200C002, 0xCC008000, 0xCB188280, 0xA8288000].map (fun n => decodeSlot 0 (BitVec.ofNat 32 n))
    = [.loop 4 1, .cmpi 2 1 5 20, .call 0 0 54, .ret, .shl 9 5 50 1 0, .br 1 1 0xFFFFF, .gtime 11 0 0 2, .tlbinvPage 4 0 0, .tlbinvAll, .mcode 3 4 5 0 0,
      .tlreadV 6 48 0 0, .qbind 0 4 0 0, .phload 3 4 5 0 0, .realign 10, .signoff 1 2 0 0, .launch 5 6 7 0 0, .rkey 4 5 0 0 1, .rskip 6 0 0 0 2,
      .hostirq 4 0 0, .repair 3 4 5 0 0, .stov 5 4 0 0 0].map some := by
  decide +kernel

/-- The vector slots: 07 (VMAD, VMUL2, VADD2, DWADD, VRSUM2, DWCVT), 08 (VCVT, VCVTP4, VQNT, VQDIV, VTREE, VBCAST), 09 (VRCP), 18:R382. -/
theorem test_decodes_vector_words :
    [0x062410BF, 0x321820C0, 0x301820C0, 0x33288300, 0x39510000, 0x38616000, 0x50143CB0, 0x52242C68, 0x54182E30, 0x55182E30, 0x79288000, 0x712CA006,
      0x60143000, 0x7C0C0019].map (fun n => decodeSlot 1 (BitVec.ofNat 32 n))
    = [.vmad 0 9 1 2 63, .vmul2 3 2 3, .vadd2 3 2 3, .dwadd 5 4 6, .vrsum2 10 16, .dwcvt 0 24 11, .vcvt 0 5 3 2 0, .vcvtp4N 0 9 2 1 40, .vqnt 0 6 2 56 0,
      .vqdiv 0 6 2 56 0, .vtree 0 10 8, .vbcast 0 11 10 6, .vrcp 0 5 3, .vrandA 0 3 2 1].map some := by
  decide +kernel

/-- The matrix slot, assembled from the table of 12:R247: MSTREAM.z mp1, =0, 16; MSWAP; MSTAT mp2, 5; MTAINT.set; MCALL 511. -/
theorem test_decodes_matrix_words :
    [0x050700F8, 0x04000000, 0x0D540000, 0x0C400000, 0x02FF8000].map (fun n => decodeSlot 3 (BitVec.ofNat 32 n))
    = [.mstream 1 48 15 1, .mswap, .mstat 2 5, .mtaintSet, .mcall 511].map some := by
  decide +kernel

/-- The memory slots: STD n3 with off12 -1 and register n15 (03:R56), FENCE.system.full (10:R208), QPUSH ch 15 from s31 on tl5 (14:R290),
and WOPEN, WADV and WSTAT as 11 writes them. -/
theorem test_decodes_memory_words :
    [0x088F3FFF, 0x18900000, 0x31F1F500, 0x40100000, 0x41010000, 0x4401C000].map (fun n => decodeSlot 5 (BitVec.ofNat 32 n))
    = [.std 4 15 3 0xFFF, .fence 4 2, .qpush 15 0 31 5, .wopen 0 4 0, .wadv 0 2, .wstat 0 0 7].map some := by
  decide +kernel

/-! ### Ill-formed terms: one for each check -/

/-- What an operation meets in its slot, as it is encoded with its other fields 0. -/
def meets (cc urg : Bool) (h : W32) (slot : Nat) (i : Instr) : List Illegal :=
  match encode 0 i with
  | some w => opIllegal cc urg h slot (shape w i)
  | none => []

theorem test_refuses_c1_only : meets false false 0x88000000 4 (.wadv 0 2) = [.c1Only] := by decide +kernel

/-- Source 47 names nothing, source 8 nothing in the M slot, and source 42 nothing in the S slot. -/
theorem test_refuses_source :
    meets false false 0 0 (.add 1 47 0 0 0) = [.source] ∧ meets false false 0 3 (.mexp 8) = [.source] ∧ meets false false 0 0 (.add 1 42 0 0 0) = [.source] := by
  decide +kernel

/-- Port A is the V0 slot's, not the S slot's. -/
theorem test_refuses_port_use : meets false false 0x80080000 0 (.add 1 40 0 0 0) = [.portUse] := by decide +kernel

/-- An owner of the write port has destination 0; STOV never owns it. -/
theorem test_refuses_write_port :
    meets false false 0x80000010 0 (.add 1 2 3 0 0) = [.writePort] ∧ meets false false 0x80000010 0 (.stov 0 1 0 0 0) = [.writePort] := by
  decide +kernel

/-- File code 5 is reserved; the vector files take no scalar loads; a load to the common file needs the write port. -/
theorem test_refuses_file_code :
    meets false false 0x80000000 5 (.ldw 5 0 0 0) = [.fileCode] ∧ meets false false 0x80000000 5 (.ldd 3 2 0 0) = [.fileCode]
      ∧ meets false false 0x80000062 5 (.ldd 3 2 0 0) = [] := by
  decide +kernel

theorem test_refuses_w_bit : meets false false 0x40000020 1 (.vfadd 1 0 1 2) = [.wBit] := by decide +kernel

/-- LAUNCH is a control core's, WADV a vector-matrix core's; a control core has no V and M slots. -/
theorem test_refuses_core_kind :
    meets false false 0 0 (.launch 1 2 3 0 0) = [.coreKind] ∧ meets true false 0 5 (.wadv 0 2) = [.coreKind]
      ∧ bundleIllegal true false 0x40000000 [] = [.coreKind] := by
  decide +kernel

theorem test_refuses_eret_in_the_main_context : meets false false 0 0 .eret = [.eretMain] ∧ meets false true 0 0 .eret = [] := by decide +kernel

/-- WADV of 0 and of 65 rows; REALIGN by 41; a transfer context that a vector-matrix core does not have. -/
theorem test_refuses_form :
    meets false false 0 5 (.wadv 0 0) = [.form] ∧ meets false false 0 5 (.wadv 0 65) = [.form] ∧ meets false false 0 5 (.wadv 0 64) = []
      ∧ meets false false 0 0 (.realign 41) = [.form] ∧ meets false false 0 5 (.txsend 6 0 0) = [.form] := by
  decide +kernel

/-- s16 and an M presence bit in the urgent context. -/
theorem test_refuses_urgent :
    meets false true 0 0 (.add 1 16 0 0 0) = [.urgent] ∧ meets false true 0 0 (.add 16 1 0 0 0) = [.urgent] ∧ meets false true 0 0 (.add 15 15 0 0 0) = []
      ∧ bundleIllegal false true 0x10000000 [] = [.urgent] := by
  decide +kernel

/-- A port owner of code 7, and a register field without an owner. -/
theorem test_refuses_port_owner :
    bundleIllegal false false 0x001C0000 [] = [.portOwner] ∧ bundleIllegal false false 0x00004000 [] = [.portOwner] := by
  decide +kernel

/-- A consumer without a lend value, a lend value without a consumer, and two consumers. -/
theorem test_refuses_lend :
    bundleIllegal false false 0x80000000 [(0, shape 0 (.movl 7))] = [.lend] ∧ bundleIllegal false false 0x82000000 [(0, shape 0 .nop)] = [.lend]
      ∧ bundleIllegal false false 0x62000000 [(1, shape 0 (.vmovi 0 1)), (2, shape 0 (.vmovi 0 1))] = [.lend] := by
  decide +kernel

/-- TLWAIT beside a NOP of another slot's kind, and with a pop. -/
theorem test_refuses_company :
    bundleIllegal false false 0x88000000 [(0, shape 0 (.tlwait 0 0 0 0)), (4, shape 0 (.fence 0 0))] = [.notAlone]
      ∧ bundleIllegal false false 0x80200000 [(0, shape 0 (.tlwait 0 0 0 0))] = [.notAlone] := by
  decide +kernel

/-- RDRAW and VRAND on one stream; two VRANDs may share it. -/
theorem test_refuses_stream_slot :
    bundleIllegal false false 0xC0000000 [(0, shape 0 (.rdraw 1 0 0 1)), (1, shape 0 (.vrand 0 2 0 1))] = [.streamSlot]
      ∧ bundleIllegal false false 0x60000000 [(1, shape 0 (.vrand 0 2 0 1)), (2, shape 0 (.vrand 0 2 0 1))] = [] := by
  decide +kernel

/-- An opcode that no row lists, and a nonzero reserved field. -/
theorem test_refuses_encoding :
    decodeBundle false false [0x80000000, 0xFF000000] = .illegal [.encoding] [0] ∧ decodeBundle false false [0x80000000, 0x83000001] = .illegal [.encoding] [0] := by
  decide +kernel

/-! ### One operation, on values that the spec works out -/

/-- An operation in a slot of this core, granted all its duty, answers a next state in which this holds of the result it sent. -/
def sends (k : Core) (slot : Nat) (i : Instr) (f : Pend → Bool) : Bool :=
  match exec i (at_ (vm { k with ph := { grantM := 16, grantV := 16 } }) slot 0) with
  | .next t => (t.core ⟨false, 0⟩).main.pends.getLast?.any f
  | _ => false

/-- Vector registers from x1 (and y1) on. -/
def vecs (l : List (List W32)) (fmt : W32) : Core := { main := { x := [] :: (l ++ List.replicate 31 []), y := [] :: (l ++ List.replicate 31 []), fmt := fmt } }

/-- 06: the example of EXT, with p = 8 and w = 12. -/
theorem test_ext :
    let k := regs [0xF4500, 0x0B08, 0xF34500]
    sends k 0 (.ext 5 1 2 0 0 1) (fun p => p.val = .w 0xF45) ∧ sends k 0 (.ext 5 1 2 0 0 0) (fun p => p.val = .w 0xFFFFFFFFFFFFFF45)
      ∧ sends k 0 (.ext 5 3 2 0 0 0) (fun p => p.val = .w 0x345) := by
  decide +kernel

/-- 06: DIV.z by 0. -/
theorem test_div_by_zero : sends (regs [7]) 0 (.div 5 1 0 0 0 1) (fun p => p.val = .w 0xFFFFFFFFFFFFFFFF ∧ p.istat = 1 ∧ p.dst = .s 5) := by decide +kernel

/-- 07: VABSI of the most negative integer. -/
theorem test_vabsi : sends (vecs [[0x80000000, 0xFFFFFFFF]] 0) 1 (.vabsi 0 2 1) (fun p => match p.val with
    | .v l => lane l 0 = 0x80000000 ∧ lane l 1 = 1
    | _ => False) := by decide +kernel

/-- 07: the four lanes of VMUL2; overflow, inexact, pair-inexact and pair-overflow are set (bits 2, 4, 5, 6). -/
theorem test_vmul2 :
    sends (vecs [[], [0x40400000, 0x71800000, 0x26800001, 0x20800001], [0x3EAAAAAB, 0x4E800000, 0x26800001, 0x20400001]] 0) 1 (.vmul2 3 2 3)
      (fun p => p.flags = 0x74 ∧ p.val = .p (pad [0x3F800000, 0x7F800000, 0x0D800002, 0x01400003]) (pad [0x33000000, 0, 8, 0x80000001])) := by
  decide +kernel

/-- 07: the two lanes of VADD2. -/
theorem test_vadd2 :
    sends (vecs [[], [0x0D800000, 0x7F400000], [3, 0x7F400000]] 0) 2 (.vadd2 3 2 3)
      (fun p => p.flags = 0x54 ∧ p.val = .p (pad [0x0D800000, 0x7F800000]) (pad [3, 0])) := by
  decide +kernel

/-- 07: the example of DWADD, without a flag. -/
theorem test_dwadd :
    sends (vecs [[], [], [], [], [], [], [], [0x3F800000], [0x30800000], [], [], [0xBF800000], [0x30000000]] 0) 1 (.dwadd 5 4 6)
      (fun p => p.flags = 0 ∧ p.val = .p (pad [0x30C00000]) (pad [])) := by
  decide +kernel

/-- 08: the example of VQNT and VQDIV, which round 2.5 apart. -/
theorem test_vqnt_vqdiv :
    let k := vecs [[], [0x40F00000]] 0x4
    let low (p : Pend) : Bool := match p.val with
      | .v l => lane l 0 = 5
      | _ => false
    sends k 1 (.vqnt 0 6 2 56 0) low = true ∧ sends k 2 (.vqdiv 0 6 2 56 0) (fun p => match p.val with
      | .v l => lane l 0 = 4
      | _ => false) = true := by
  decide +kernel

/-- 08: the six nodes of the draft tree. -/
theorem test_vtree :
    sends (vecs [[], [], [], [], [], [], [], [0x010000FF, 0xFFFF0201] ++ List.replicate 14 0xFFFFFFFF] 0) 1 (.vtree 0 10 8) (fun p => match p.val with
      | .v l => [0, 1, 2, 3, 4, 5].map (fun n => lane l (2 * n)) = [1, 3, 5, 0xB, 0x13, 0x25] ∧ [0, 1, 2, 3, 4, 5].all (fun n => lane l (2 * n + 1) = 0)
      | _ => False) := by
  decide +kernel

/-- 07: XRED.sum2 on the eight cluster pairs, and DWCVT of what it leaves. -/
theorem test_xred_dwcvt :
    let one (k : Nat) : List W32 := (if k = 0 then 0x4B800000 else 0x3F800000) :: List.replicate 15 0
    let l := [0, 1, 2, 3, 4, 5, 6, 7].flatMap one
    sends { main := { x := List.replicate 20 [] ++ [l] ++ List.replicate 11 [] } } 1 (.xred 0 22 20 3) (fun p => match p.val with
      | .p a b => lane a 0 = 0x4B800000 ∧ lane b 0 = 0x40E00000
      | _ => False) = true ∧
    sends { main := { x := List.replicate 22 [] ++ [[0x4B800000], [0x40E00000]] ++ List.replicate 8 [] } } 1 (.dwcvt 0 24 11) (fun p => match p.val with
      | .v l => lane l 0 = 0x4B800004
      | _ => False) = true := by
  decide +kernel

/-- 09: VSIN(0.5) is 1.0, and VCOS(0.5) is +0. -/
theorem test_vsin_vcos :
    let k := vecs [[0x3F000000]] 0
    let is (v : W32) (p : Pend) : Bool := match p.val with
      | .v l => lane l 0 = v
      | _ => false
    sends k 1 (.vsin 0 2 1) (is 0x3F800000) = true ∧ sends k 1 (.vcos 0 2 1) (is 0) = true := by
  decide +kernel

/-- 10:R204: lanes 0 and 5 with indices 0 and 256 fall in one bank and different rows: cause 0x02. Indices 0 and 260 do not. -/
theorem test_gather_collides :
    let k (i : W32) : Core := { main := { x := [[], [0, 0, 0, 0, 0, i]] ++ List.replicate 30 [], clmask := 1, sel0 := 1, xh := [0, 0x21, 0, 0, 0, 0, 0, 0] } }
    let causes (i : W32) : List W8 := match exec (.ldg 0 3 1 0) (at_ (vm (k i)) 4 0) with
      | .next t => t.cur.fails.map (fun f => f.1)
      | _ => [0xFF]
    causes 256 = [0x02] ∧ causes 260 = [] := by
  decide +kernel

/-! ### One step -/

/-- A step that issues this word as the first instruction after reset, and what holds of the core that issued it. -/
def first (w : Nat) (cc : Bool) (f : Core → Bool) : Bool :=
  match step (State.reset.withFetchWord 32 w) with
  | .next t => f (t.core ⟨cc, 0⟩)
  | _ => false

/-- MOVI s5, -1 (op 0x58): s5 is due in the next cycle, and issue goes on two syllables further. -/
theorem test_step_movi :
    first 0x58281FFF false (fun k => k.main.pc = 8 ∧ k.main.pends.map (fun p => (p.dst, p.val, p.due)) = [(.s 5, .w 0xFFFFFFFFFFFFFFFF, 1)]) = true := by
  decide +kernel

/-- HALT stops issue. -/
theorem test_step_halt : first 0x87000000 false (fun k => k.run = .halted) = true := by decide +kernel

/-- ERET in the main context is an illegal bundle; without a handler its trap is a core fault. -/
theorem test_step_eret : first 0xC1000000 false (fun k => k.run = .faulted) = true := by decide +kernel

/-- HOSTIRQ s0 is a control core's. -/
theorem test_step_hostirq : first 0xCC000000 true (fun k => k.main.pc = 8) = true := by decide +kernel

/-! ### Witnesses: the S slot -/

theorem witness_ScalarResults :
    let s := vm (regs [5, -2 ^ 63, -1, 64, 63])
    Executes s 0 0 ∧ HasRoom s ∧ guardOn s 0 1 = false ∧ srcS s 0 = 0 ∧ srcS s 1 ≠ 0
      ∧ ((srcS s 2).toInt = -2 ^ 63 ∧ (srcS s 3).toInt = -1) ∧ ¬ ((srcS s 1).toInt = -2 ^ 63 ∧ (srcS s 3).toInt = -1)
      ∧ 64 ≤ (srcS s 4).toNat ∧ ¬ 64 ≤ (srcS s 5).toNat :=
  ⟨executes_of rfl, hasRoom_of rfl, by decide +kernel⟩

/-- A guard that holds under gn = 1. -/
theorem witness_BitAndGuardResults : Executes (vm {}) 7 1 ∧ HasRoom (vm {}) := ⟨executes_of rfl, hasRoom_of rfl⟩

theorem witness_TransfersLoopsAndIdling :
    let k : Core := { regs [8, 3, 0] with codelen := 16 }
    let s := vm k
    let ph : State := vm { k with ph := { inph := true } }
    let u : State := vm { k with tp := { active := true } }
    let linked : State := vm { k with main := { k.main with s := k.main.s.set 31 12 } }
    let w : State := { s with cur := { head := 0x21 } }
    (Executes s 0 0 ∧ (isCC s = true ∨ (s.cur.pc + ((0 : BitVec 20).signExtend 64 <<< 2)).toNat < (me s).codelen)) ∧
    (Executes s 0 0 ∧ (srcS s 1).toNat < (me s).codelen ∧ (srcS s 1).toNat % 4 = 0 ∧ (srcS s 1).toNat < 2 ^ 48) ∧
    ownsW s.cur.head s.cur.slot = false ∧ ownsW (at_ { w with cur := { w.cur with head := 0x10 } } 0 0).cur.head 0 = true ∧
    (Executes linked (sylField linked 4 3) (sylField linked 3 1) ∧ (readS (cx linked) (linkReg linked)).toNat = 12
      ∧ (readS (cx linked) (linkReg linked)).toNat < (me linked).codelen) ∧
    (hasCore s s.cur.core = true ∧ (1 : BitVec 10) ≠ 0 ∧ (cx s).loops.length < 4 ∧ bodyTooLong (cx s).loops 1 = false ∧ (cx s).redirs = []) ∧
    ((srcS s 2).toNat % 2 ^ 32 ≠ 0 ∧ (srcS s 3).toNat % 2 ^ 32 = 0) ∧ inPhase s = false ∧ inPhase ph = true ∧ isUrg u = true ∧
    (isUrg s = false ∧ inPhase s = false ∧ guardOn s (sylField s 4 3) (sylField s 3 1) = true) ∧
    (guardOn u (sylField u 4 3) (sylField u 3 1) = true ∧ isUrg ph = false) :=
  ⟨⟨executes_of rfl, by decide⟩, ⟨executes_of rfl, by decide⟩, by decide, by decide, ⟨executes_of rfl, by decide⟩, by decide⟩

theorem witness_ControlStateReadsAndDraws :
    let s := vm (regs [0x13, 0x03, 6])
    let d := cc (regs [15])
    Executes s 0 0 ∧ HasRoom s ∧ (srcS s 1).toNat = 0x13 ∧ (isCC s = false ∧ srcS s 2 = 0x03) ∧ (srcS s 3).toNat % 16 ≤ 6
      ∧ Executes d 0 0 ∧ isCC d = true ∧ Executes s (sylField s 4 3) (sylField s 3 1) :=
  ⟨executes_of rfl, hasRoom_of rfl, by decide, by decide, by decide, executes_of rfl, by decide, executes_of rfl⟩

theorem witness_ControlStateWrites :
    let s := vm { regs [0x20, 14, 7, 8, 0xFF, 0x00, 0x7F] with ph := { inph := true } }
    let t := vm (regs [0xF])
    let d := cc (regs [15, 0x10])
    Executes s 0 0 ∧ badFmt ((srcS s 0).setWidth 32) = false ∧ badFmt ((srcS s 2).setWidth 32) = true ∧ inPhase s = true ∧ inPhase t = false
      ∧ (srcS s 3).toNat % 16 < 8 ∧ (me s).eng.armed.length + armsPending (me s) < 16 ∧ (isCC s = false ∧ 8 ≤ (srcS s 4).toNat % 16)
      ∧ (srcS s 5).setWidth 8 = (0xFF : W8) ∧ isCC d = true ∧ Executes d 0 0 ∧ Executes t 0 0
      ∧ (∃ v q, bindSource (isCC s) v = some (some q) ∧ mayBind s q = true ∧ boundElsewhere s q = false)
      ∧ bindSource (isCC s) ((srcS s 7).setWidth 8) = none :=
  ⟨executes_of rfl, by decide, by decide, by decide, by decide, by decide, by decide, by decide, by decide, by decide, executes_of rfl,
    executes_of rfl, ⟨0x20, .rq 0, by decide⟩, by decide⟩

theorem witness_SignOffsAndWaits :
    let here := vm { regs [7, 1] with ph := { inph := true, phc := 9, length := 10 } }
    let out := vm (regs [6, 1])
    let d := cc {}
    let held (k : StallKind) (b : W64) (since : Nat) : State := vm { main := { stall := some { kind := k, a := 2, b := b, since := since } } }
    let both (s : State) (P : Stall → Prop) : Prop := hasCore s s.ev.core = true ∧ ∃ st, (s.core s.ev.core).ctx.stall = some st ∧ P st
    (hasCore here here.cur.core = true ∧ guardOn here 0 0 = true ∧ (me here).ph.inph = true ∧ (me here).ph.phc + 1 = (me here).ph.length) ∧
    (hasCore out out.cur.core = true ∧ guardOn out 0 0 = true ∧ ¬ ((me out).ph.inph = true ∧ (me out).ph.phc + 1 = (me out).ph.length)) ∧
    (isUrg here = false ∧ inPhase here = true) ∧ (inPhase out = false ∧ (srcS out 1).toNat % 16 < 7) ∧ isCC d = true ∧
    both (held .tlwait 0 0) (fun st => st.kind = .tlwait ∧ st.b.toNat ≤ counterValue (held .tlwait 0 0) ⟨false, 0⟩ st.a.toNat) ∧
    both (held .tlwait 1 0) (fun st => st.kind = .tlwait ∧ counterValue (held .tlwait 1 0) ⟨false, 0⟩ st.a.toNat < st.b.toNat) ∧
    both (held .realign 0 0) (fun st => st.kind = .realign ∧ alignedTick (held .realign 0 0) st.since st.a.toNat ≤ (held .realign 0 0).now) ∧
    both (held .realign 0 1) (fun st => st.kind = .realign ∧ (held .realign 0 1).now < alignedTick (held .realign 0 1) st.since st.a.toNat) :=
  ⟨by decide, by decide, by decide, by decide, by decide, ⟨rfl, _, rfl, by decide⟩, ⟨rfl, _, rfl, by decide⟩, ⟨rfl, _, rfl, by decide⟩,
    ⟨rfl, _, rfl, by decide⟩⟩

/-! ### Witnesses: the V and M slots -/

theorem witness_VectorIntegerResults : HasRoom (at_ (vm {}) 2 0) := hasRoom_of rfl

/-- A counted operation is the last of its grant, and one of the urgent context; and the special values of the second part. -/
theorem witness_VectorFloatResults :
    HasDuty (at_ (vm { ph := { grantV := 1, vCount := 127 } }) 1 0) ∧ HasDuty (at_ (vm { tp := { active := true } }) 2 0)
      ∧ fisNan (fdec .f32 0x7F800001) = true ∧ fisNan (fdec .f32 0x7F800000) = false ∧ flt (fdec .f32 0x80000001) (fdec .f32 0) = true
      ∧ fisInf (fdec .f32 0xFF800000) = true ∧ (∃ g m e, fdec .f32 1 = .fin g m e ∧ m ≠ 0) ∧ (∃ g e, fdec .f32 0x80000000 = .fin g 0 e)
      ∧ (FV.inf true : FV) ≠ .nan :=
  ⟨hasDuty_of rfl, hasDuty_of rfl, by decide, by decide, by decide, by decide, ⟨_, _, _, rfl, by decide⟩, ⟨_, _, rfl⟩, by decide⟩

/-- A core with a full grant of counted V operations. -/
def counted : State := vm { ph := { grantV := 16 } }

theorem counted_duty : HasDuty counted := hasDuty_of rfl

theorem witness_PairAndDoubleWordResults : HasDuty counted := counted_duty

theorem witness_ReductionResults : HasDuty counted := counted_duty

/-- FunctionTableResults adds the ranges of its arguments: 1.0, the largest subnormal, a negative number, 4.0 and 2.0, and the bounds of VEXP2: 2^10 and 1000 apart. -/
theorem witness_FunctionTableResults :
    let fld (p : W32) : Nat := (p.extractLsb' 23 8).toNat
    let mant (p : W32) : Nat := if fld p = 0 then (p.extractLsb' 0 23).toNat else 2 ^ 23 + (p.extractLsb' 0 23).toNat
    let e (p : W32) : Int := (max (fld p) 1 : Nat) - 150 + (mant p).log2
    let usual (p : W32) : Prop := fld p ≠ 255 ∧ mant p ≠ 0
    let whole (p : W32) (q : Int) : Prop := ∃ g m k, fdec .f32 p = .fin g m k ∧
      (let z : Int := if g then -m else m
       let x : Int := if -23 ≤ k then z * 2 ^ (k + 23).toNat else z / 2 ^ (-23 - k).toNat
       x / 2 ^ 23 = q)
    HasDuty counted ∧ fdec .f32 0x7FC00000 = .nan ∧ (usual 0x3F800000 ∧ usual 0x007FFFFF) ∧ (usual 0xBF800000 ∧ (0xBF800000 : W32).msb = true) ∧
    (usual 0x40800000 ∧ e 0x40800000 % 2 = 0) ∧ (usual 0x40000000 ∧ e 0x40000000 % 2 = 1) ∧
    whole 0x447A0000 1000 ∧ whole 0x447A4000 1001 ∧ whole 0xC47A0000 (-1000) ∧ whole 0xC47A4000 (-1001) ∧ whole 0x00000001 0 ∧
    fisInf (fdec .f32 0xFF800000) = true ∧ (circular false 1 (-1)).1 = 1 ∧ (circular false 0 0).1 = 0 ∧ (circular false 1 0).1 = 2
      ∧ (circular true 1 (-1)).1 = 3 :=
  ⟨counted_duty, by decide +kernel, by decide +kernel, by decide +kernel, by decide +kernel, by decide +kernel,
    ⟨_, _, _, rfl, by decide +kernel⟩, ⟨_, _, _, rfl, by decide +kernel⟩, ⟨_, _, _, rfl, by decide +kernel⟩, ⟨_, _, _, rfl, by decide +kernel⟩,
    ⟨_, _, _, rfl, by decide +kernel⟩, by decide +kernel⟩

theorem witness_PackedResults : HasDuty counted ∧ elemOf 13 ≠ none ∧ elemOf 0 ≠ none ∧ elemOf 14 = none :=
  ⟨counted_duty, by decide⟩

theorem witness_ConversionResults :
    HasDuty counted ∧ (7 : BitVec 3).toNat < 8 ∧ (1 : BitVec 3).toNat < 2 ∧ (3 : BitVec 3).toNat < 4
      ∧ (∀ t : Fin 14, elemOf t.val ≠ none) := ⟨counted_duty, by decide⟩

theorem witness_MovementResults : (HasRoom counted ∧ HasDuty counted) ∧ (7 : BitVec 3) ≠ 0 :=
  ⟨⟨hasRoom_of rfl, counted_duty⟩, by decide⟩

theorem witness_MasksCopiesAndDuty :
    let s := at_ (vm {}) 1 0
    let own : State := { vm {} with cur := { head := 0x20, slot := 1 } }
    let used := vm { ph := { grantV := 1, vCount := 128 } }
    HasRoom s ∧ ownsW s.cur.head s.cur.slot = false ∧ HasRoom own ∧ ownsW own.cur.head own.cur.slot = true ∧ (31 : BitVec 6).toNat < 32
      ∧ Executes s 0 0 ∧ isUrg used = false ∧ 128 * (me used).ph.grantV ≤ (me used).ph.vCount :=
  ⟨hasRoom_of rfl, by decide, hasRoom_of rfl, by decide, by decide, executes_of rfl, by decide⟩

/-- A core at cycle 10 with an f8 tile in use and a sparse one behind it; M1 = 512, M2 = 2^23 - 512, M3 = 2^23 - 1024, M4 = 1024,
M5 = 13, M6 = 2^23, M7 = 8. -/
def arrayCore : Core :=
  { main := { fmt := 0x0880 }, clk := { arch := 10 }, ph := { grantM := 16 }
    mp := [0, 512, 2 ^ 23 - 512, 2 ^ 23 - 1024, 1024, 13, 2 ^ 23, 8]
    mx := { act := { typ := 8, valid := true }, shd := { typ := 8, spn := 1, valid := true } } }

theorem witness_MatrixOperationsSchedule :
    let s := vm arrayCore
    let m := (me s).mx
    let f := (cx s).fmt
    let free (l : List (Nat × MOp)) : Prop :=
      planClash (me s) [] (l.map (fun y => ⟨cyc s + y.1, y.2⟩)) = none ∧ overDuty (me s) (l.map (fun y => ⟨cyc s + y.1, y.2⟩)) = false
    let fits (v : W64) (unit bytes : Nat) : Prop := v.toNat < 2 ^ 23 ∧ v.toNat + bytes ≤ 2 ^ 23 ∧ v.toNat % unit = 0
    let bt := tileBlocks (fmtMtb f)
    let bx := sideBlocks (fmtMtb f)
    let b := rowBytes f
    let cfg := (startPlan s 7).cfgNow
    let shd := (startPlan s 10).shdNow
    hasCore s s.cur.core = true ∧ m.busyRoutine ≤ cyc s ∧ m.busyLoad ≤ cyc s ∧ m.useShd ≤ cyc s ∧ m.busyFeed ≤ cyc s ∧ m.busyDrain ≤ cyc s
      ∧ m.lastEnter ≤ cyc s + 1 ∧ comboLoad f = true ∧ comboFmt f = true ∧ bx ≠ 0 ∧ fmtAcc f = 0
      ∧ (issuedRecs m).1 = ⟨fmtMtb f, fmtSpn f, true⟩ ∧ shd.valid = true ∧ shd.spn ≠ 0 ∧
    fits (srcM s 1) 512 (512 * bt) ∧ fits (srcM s 2) 512 (512 * bx) ∧ fits (srcM s 1) 512 (512 * (4 * cellK shd.typ)) ∧
    fits (srcM s 4) b b ∧ fits (srcM s 4) (drainBytes cfg) (drainBytes cfg) ∧ fits (srcM s 2) 512 512 ∧ fits (srcM s 3) 1024 1024 ∧
    ((srcM s 5).toNat % 16 = 13 ∧ (srcM s 0).toNat % 16 ≤ 7) ∧
    free ((List.range bt).map (fun i => (2 + i, .tile i (512 + 512 * i))) ++ (List.range bx).map (fun i => (2 + bt + i, .side i (2 ^ 23 - 512 + 512 * i)))
      ++ [(1 + bt + bx, .loaded (BitVec.ofNat 4 (fmtMtb f)) (BitVec.ofNat 2 (fmtSpn f)))]) ∧
    free ((List.range (4 * cellK shd.typ)).map (fun i => (2 + i, .nib i (512 + 512 * i)))) ∧ free [(1, .swap)] ∧
    free [(2, .feed 1024 b 0 false f none)] ∧ free [(0, .exp 0)] ∧ free [(3, .drain s.serial 0 1024 cfg false f none)] ∧
    free [(3, .maccRd s.serial 0 0 512 f), (4, .maccWr s.serial 0 512 f)] ∧ free [(2, .epiCol (2 ^ 23 - 512))] ∧ free [(2, .epiRow (2 ^ 23 - 1024))] ∧
    free [(1, .cfg 13)] ∧ free [(1, .clr 0 256 false)] ∧ free [(1, .taintClr)] ∧ free [(1, .taintSet)] := by
  decide +kernel

theorem witness_MatrixResultsAndChecks :
    let s := vm { arrayCore with mx := { arrayCore.mx with
      udir := [(0, 0, 0), (5, 384, 1)], ucode := [(384, BitVec.ofNat 96 (2 ^ 84 + 4 * 2 ^ 64)), (385, BitVec.ofNat 96 (11 * 2 ^ 92))] } }
    let routine := vm { arrayCore with mx := { busyRoutine := 11 } }
    let busy := vm { arrayCore with mx := { busyLoad := 11, lastEnter := 12 } }
    let mixed := vm { arrayCore with main := { fmt := 0x0510 } }
    let p := planStream (startPlan mixed 5) (srcM mixed 4) 0 1 false false
    let m := (me s).mx
    hasCore s s.cur.core = true ∧ noRoom s = false ∧ m.busyRoutine ≤ cyc s ∧ planFails s (planCall s 5).1 = []
      ∧ (let w := BitVec.ofNat 96 (2 ^ 84 + 4 * 2 ^ 64)
         routineOf m 5 = some (some (w, [BitVec.ofNat 96 (11 * 2 ^ 92)])) ∧ ((me s).mp.getD (hdrRreg w) 0).getLsbD 31 = false ∧ hdrBase w = 4)
      ∧ (∃ w ws, routineOf m 5 = some (some (w, ws)) ∧ rasterEntry s ((me s).mp.getD (hdrRreg w) 0) (hdrRcap w) ≠ none)
      ∧ (routineOf m 0 = some none ∧ ((me s).mp.getD 7 0).getLsbD 31 = false) ∧ routineOf m 9 = none ∧
    cyc routine < (me routine).mx.busyRoutine ∧ cyc busy < (me busy).mx.busyLoad ∧ cyc busy + 1 < (me busy).mx.lastEnter ∧
    2 ^ 23 ≤ (srcM s 6).toNat ∧ ((srcM s 7).toNat + 512 ≤ 2 ^ 23 ∧ (srcM s 7).toNat % 512 ≠ 0) ∧
    (8 ≤ (srcM s 7).toNat % 16 ∧ (srcM s 7).toNat % 16 ≠ 13) ∧
    (comboFmt (cx mixed).fmt = false ∧ (me mixed).mx.busyFeed ≤ cyc mixed ∧ (tileType (fmtMta (cx mixed).fmt) && fmtSpn (cx mixed).fmt ≤ 2) = true
      ∧ addrFail (srcM mixed 4) (rowBytes (cx mixed).fmt) (rowBytes (cx mixed).fmt) = none
      ∧ planClash (me mixed) [] p.evts = none ∧ overDuty (me mixed) p.evts = false) :=
  ⟨by decide +kernel, by decide +kernel, by decide +kernel, by decide +kernel, by decide +kernel, ⟨_, _, rfl, by decide +kernel⟩,
    by decide +kernel⟩

theorem witness_ArrayCyclesWork :
    let row (i32 : Bool) : MRow := { e := 3, psum := List.replicate 64 1, flags := 0, ar := 255, z := false, i32 := i32, scaled := false, taint := true }
    let s (i32 : Bool) := vm { clk := { arch := 70 }, mx := { rows := [row i32] } }
    let d := vm { clk := { arch := 70 }, mx := { evts := [⟨70, .drain 0 255 0x100 0x10 false 0 none⟩] } }
    let t := vm { tp := { active := true } }
    (∀ b, let k := (s b).core ⟨false, 0⟩
      hasCore (s b) ⟨false, 0⟩ = true ∧ k.tp.active = false ∧ (∀ e ∈ k.mx.evts, k.clk.arch < e.due) ∧ k.mx.rows = [row b] ∧ (row b).e + 67 = k.clk.arch) ∧
    (let k := d.core ⟨false, 0⟩
     hasCore d ⟨false, 0⟩ = true ∧ k.tp.active = false ∧ (0x10 : W8).getLsbD 4 = true ∧ 0x100 % 16 = 0 ∧ (k.mx.acc.getD 255 []).length = 64
      ∧ (∀ e ∈ k.mx.evts, e = ⟨k.clk.arch, .drain 0 255 0x100 0x10 false 0 none⟩) ∧ k.mx.evts ≠ [] ∧ k.mx.rtaint.getLsbD 255 = false
      ∧ k.mx.etaint = false) ∧
    (t.core ⟨false, 0⟩).tp.active = true := by
  decide +kernel

/-! ### Witnesses: the C slots -/

theorem reaches_of {s : State} {b : BitVec 4} {d : Int} {n : Nat} {claims : List (Nat × List (Nat × Nat))} {links : List (Nat × Nat)} {t : Target}
    (h : (hasCore s s.cur.core && decide (formAddr s b d = .inr t) && decide (t.off % n = 0) && decide (bankClash (s.core t.core) claims = none)
      && decide (linkClash s links = none)) = true) : Reaches s b d n claims links t := by
  simp only [Bool.and_eq_true, decide_eq_true_eq] at h
  exact ⟨h.1.1.1.1, h.1.1.1.2, h.1.1.2, .inr h.1.2, .inr h.2⟩

/-- Address registers: the last byte, the last 8 bytes and the last 1024 bytes of a vault, its end, and 2^30. -/
def areas : List W64 := [0, 0x7FFFFF, 0x7FFFF8, 0x7FFC00, 0x800000, 0x40000000, 0xFFFFF8] ++ List.replicate 9 0

/-- A vector-matrix core whose C0 operation uses them, and one whose C1 operation reaches core 1 of its gang from a phase. -/
def c0 : State := at_ (vm { main := { m := areas } }) 4 0

def c1 : State :=
  let k : Core := { ph := { inph := true, gang := some 0 } }
  { vms := [{ k with main := { n := areas } }, k], ccs := [{}], gangs := [{}], cur := { slot := 5 } }

theorem witness_LoadsScheduleReads :
    let own (a : Nat) : Target := ⟨⟨false, 0⟩, a, BitVec.ofNat 64 a⟩
    isSys c0 = false ∧ isSys c1 = false ∧ noRoom c0 = false ∧ noRoom c1 = false ∧
    Reaches c0 1 0 1 [(2, granAddrs (2 ^ 23 - 1) 1)] [] (own (2 ^ 23 - 1)) ∧ Reaches c0 2 0 8 [(2, granAddrs (2 ^ 23 - 8) 8)] [] (own (2 ^ 23 - 8)) ∧
    Reaches c0 3 0 1024 [(2, granAddrs (2 ^ 23 - 1024) 1024)] [] (own (2 ^ 23 - 1024)) ∧
    (let t : Target := ⟨⟨false, 1⟩, 0x7FFFF8, 0xFFFFF8⟩
     let e := bankExtra c1 t.core
     Reaches c1 6 0 8 [(2 + e, granAddrs t.off 8)] (linkSlots 0 1 (some (6 + resultExtra c1 t.core))) t) :=
  ⟨rfl, rfl, rfl, rfl, reaches_of (by decide +kernel), reaches_of (by decide +kernel), reaches_of (by decide +kernel), reaches_of (by decide +kernel)⟩

/-- The gathers and scatters run with one active lane. -/
theorem witness_StoresAndAtomicsSchedule :
    let own (a : Nat) : Target := ⟨⟨false, 0⟩, a, BitVec.ofNat 64 a⟩
    let s := at_ (vm { main := { m := areas, clmask := 1, sel0 := 1, xh := [0, 8, 0, 0, 0, 0, 0, 0] } }) 4 0
    let ported := { s with cur := { s.cur with head := 0x55 } }
    let t := own (2 ^ 23 - 8)
    let lanes := (laneIdx.filter (fun L => (activeLanes (cx s) false).getLsbD L)).map
      (fun L => (L, t.off + 4 * (lane (readV (cx s) false 0) L).toNat))
    let group (j : Nat) : List (Nat × Nat) := lanes.filter (fun l => l.1 / 32 = j)
    let claims := [0, 1, 2, 3].map (fun j => (2 + j, (group j).map (fun l => (l.2 / 16, l.2))))
    isSys s = false ∧ noRoom s = false ∧ (noRoom ported = false ∧ ownsW ported.cur.head ported.cur.slot = true ∧ ownsW s.cur.head s.cur.slot = false) ∧
    Reaches s 1 0 1 [(2, granAddrs (2 ^ 23 - 1) 1)] [] (own (2 ^ 23 - 1)) ∧
    Reaches ported 2 0 8 ([2, 3, 4].map (fun k => (k, granAddrs (2 ^ 23 - 8) 8))) [] t ∧
    Reaches s 3 0 1024 [(2, granAddrs (2 ^ 23 - 1024) 1024)] [] (own (2 ^ 23 - 1024)) ∧
    Reaches s 2 0 8 ([2, 3, 4].map (fun k => (k, granAddrs (2 ^ 23 - 8) 8))) [] t ∧
    Reaches s 3 0 512 ([2, 3, 4].map (fun k => (k, granAddrs (2 ^ 23 - 1024) 512))) [] (own (2 ^ 23 - 1024)) ∧
    Reaches s 2 0 4 claims [] t ∧ (∀ l ∈ lanes, l.2 < nearSize t.core) ∧
    (∀ j, ∀ k ∈ group j, ∀ l ∈ group j, bankOf (k.2 / 16) = bankOf (l.2 / 16) → k.2 / 16 = l.2 / 16) := by
  intro own s ported t lanes group claims
  have hl : lanes = [(3, 2 ^ 23 - 8)] := by decide +kernel
  refine ⟨rfl, rfl, by decide +kernel, reaches_of (by decide +kernel), reaches_of (by decide +kernel), reaches_of (by decide +kernel),
    reaches_of (by decide +kernel), reaches_of (by decide +kernel), reaches_of (by decide +kernel), by decide +kernel, ?_⟩
  intro j k hk l hl' _
  simp only [group, hl, List.mem_filter, List.mem_singleton] at hk hl'
  rw [hk.1, hl'.1]

/-- A core-scope release waits for reads only, one of wider scope for every access, an acquire for none. -/
theorem witness_AddressRegistersAndFences :
    let acc (k : C1Kind) : C1Acc := { k := 0, serial := 0, kind := k, va := 0, pa := 0, pk := 0 }
    let near (op : AccOp) : Access := { serial := 0, src := ⟨true, 0⟩, op := op, addr := 0, first := 2, due := 2, ret := 4 }
    let s (a b : W64) (l : List C1Acc) (n : List Access) : State :=
      cc { main := { stall := some { kind := .fence, a := a, b := b } }, ctl := { c1 := l }, near := { accs := n } }
    let fence (s : State) (P : Stall → Core → Prop) : Prop := hasCore s s.ev.core = true
      ∧ ∃ st, (s.core s.ev.core).ctx.stall = some st ∧ st.kind = .fence ∧ P st (s.core s.ev.core)
    let held (st : Stall) (k : Core) : Prop := (∃ x ∈ k.ctl.c1, st.a = 0 → c1Reads x.kind = true)
      ∨ ∃ x ∈ k.near.accs, x.src = (⟨true, 0⟩ : CoreRef) ∧ (st.a = 0 → accReads x.op = true)
    HasRoom c0 ∧ HasRoom c1 ∧ isCC c0 = false ∧ (isCC (cc {}) = true ∧ hasCore (cc {}) (cc {}).cur.core = true) ∧
    (∀ x ∈ [s 0 2 [acc (.load 8)] [], s 2 2 [acc (.store [1])] [], s 0 1 [] [near (.load 8 .zext)], s 1 2 [] [near (.store [1])]],
      fence x (fun st k => st.b ≠ 0 ∧ held st k)) ∧
    (∀ x ∈ [s 0 2 [acc (.store [1])] [], s 0 1 [] [near (.store [1])], s 4 2 [] []], fence x (fun st k => st.b ≠ 0 ∧ ¬ held st k)) ∧
    fence (s 4 0 [acc (.load 8)] []) (fun st _ => st.b = 0) := by
  refine ⟨hasRoom_of rfl, hasRoom_of rfl, rfl, by decide, ?_, ?_, ⟨rfl, _, rfl, rfl, rfl⟩⟩
  · simp only [List.forall_mem_cons, List.not_mem_nil, false_implies, implies_true, and_true]
    exact ⟨⟨rfl, _, rfl, rfl, by decide⟩, ⟨rfl, _, rfl, rfl, by decide⟩, ⟨rfl, _, rfl, rfl, by decide⟩, ⟨rfl, _, rfl, rfl, by decide⟩⟩
  · simp only [List.forall_mem_cons, List.not_mem_nil, false_implies, implies_true, and_true]
    exact ⟨⟨rfl, _, rfl, rfl, by decide⟩, ⟨rfl, _, rfl, rfl, by decide⟩, ⟨rfl, _, rfl, rfl, by decide⟩⟩

theorem witness_AddressesAndTraps :
    let taken := at_ (vm { main := { m := areas }, near := { claims := [(2, BitVec.allOnes 64)] } }) 4 0
    let d := at_ (cc { main := { m := [0, 0x3FFFF, 0x40000] } }) 4 0
    let jam : State := { c1 with links := (List.range 12).flatMap (fun n => (List.range 30).map (fun l => (0, n, l))) }
    let far : Target := ⟨⟨false, 1⟩, 0x7FFFF8, 0xFFFFF8⟩
    isSys c0 = false ∧ formAddr c0 4 0 = .inl 0x800000 ∧ formAddr c0 1 0 = .inr ⟨⟨false, 0⟩, 0x7FFFFF, 0x7FFFFF⟩ ∧ (2 ^ 23 - 1) % 2 ≠ 0 ∧
    (formAddr taken 2 0 = .inr ⟨⟨false, 0⟩, 0x7FFFF8, 0x7FFFF8⟩ ∧ (2 ^ 23 - 8) % 8 = 0
      ∧ bankClash (taken.core ⟨false, 0⟩) [(2 + bankExtra taken ⟨false, 0⟩, granAddrs (2 ^ 23 - 8) 8)] ≠ none) ∧
    (isC1 d = false ∧ isCC d = true ∧ (readA (cx d) false 1).toNat < 2 ^ 18 ∧ 2 ^ 18 ≤ (readA (cx d) false 2).toNat) ∧
    (isC1 c0 = false ∧ isCC c0 = false ∧ (readA (cx c0) false 1).toNat < 2 ^ 23 ∧ 2 ^ 23 ≤ (readA (cx c0) false 4).toNat) ∧
    (isC1 c1 = true ∧ (readA (cx c1) true 6).toNat < 2 ^ 30 ∧ (readA (cx c1) true 6).toNat % 2 ^ 23 + 7 < 2 ^ 23 ∧ isUrg c1 = false ∧ inPhase c1 = true
      ∧ (readA (cx c1) true 6).toNat / 2 ^ 23 % 128 = 1 ∧ 1 < c1.vms.length ∧ (me c1).ph.gang ≠ none
      ∧ (c1.core ⟨false, 1⟩).ph.gang = (me c1).ph.gang) ∧
    (formAddr jam 6 0 = .inr far ∧ isC1 jam = true ∧ bankClash (jam.core far.core) [(2 + bankExtra jam far.core, granAddrs far.off 8)] = none
      ∧ linkClash jam (linkSlots 0 1 none) ≠ none) ∧
    2 ^ 30 ≤ (readA (cx c1) true 5).toNat ∧ (readA (cx c1) true 0).toNat % 2 ^ 23 + (-1 : Int) < 0 := by
  decide +kernel

theorem clean_of {m : Near} (h : m.poison = [] ∧ m.cerr = [] ∧ m.uerr = [] ∧ m.fixes = []) (a n : Nat) : Clean m a n := by
  intro g _
  simp [h.1, h.2.1, h.2.2.1, h.2.2.2]

theorem sysClean_of {s : State} (h : s.syspoison = [] ∧ s.syscerr = [] ∧ s.sysuerr = []) (a n : Nat) : SysClean s a n := by
  intro g _
  simp [h.1, h.2.1, h.2.2]

/-- An access of any kind at any address, due now, or to be read now and completed later; the engine's rewrite; the patrol scrubber. -/
theorem witness_BankAccessEffects :
    let acc (op : AccOp) (a : Nat) (seen : Option (List W8 × Option W64 × Nat)) : Access :=
      { serial := 0, src := ⟨false, 0⟩, op := op, addr := a, first := 2, due := 4, ret := 4, seen := seen }
    let s (x : Access) (now : Nat) : State := vm { clk := { arch := now }, near := { accs := [x] } }
    let atomic (op : AccOp) (n : Nat) : Prop := (∃ p v c, op = .atom p n v c) ∨ n = 512 ∧ (∃ d v act, op = .cstv d v act) ∨ n = 32 ∧ ∃ v, op = .binAdd v
    let fix (l : List Nat) (used : BitVec 64) : State := { vm { near := { cerr := [5], fixes := l, used := used } } with ev := { i := 5 } }
    let scrub (i j now : Nat) (v : Service) (l : List Nat) : State := { vm {} with ev := { i := i, j := j }, now := now, svc := v, sysuerr := l, syscerr := [6] }
    let left (t : State) : List Nat := (t.syscerr ++ t.sysuerr).filter (fun y => decide (y < 2 ^ 33))
    (∀ x now, hasCore (s x now) ⟨false, 0⟩ = true ∧ ((s x now).core ⟨false, 0⟩).near.accs = [x]) ∧
    (∀ op a n e, (acc op a e).due ≤ ((s (acc op a e) 4).core ⟨false, 0⟩).clk.arch
      ∧ Clean ((s (acc op a e) 4).core ⟨false, 0⟩).near (acc op a e).addr n ∧ (acc op a e).op = op ∧ (acc op a e).seen = e) ∧
    (∀ now ∈ [2, 3], ∀ op, let x := acc op 0 none
      x.seen = none ∧ x.first ≤ ((s x now).core ⟨false, 0⟩).clk.arch ∧ ((s x now).core ⟨false, 0⟩).clk.arch < x.due) ∧
    (atomic (.atom .add 8 1 0) 8 ∧ atomic (.cstv [] [] 0) 512 ∧ atomic (.binAdd 1) 32) ∧
    ((List.replicate 32 (0 : W8)).length = 32 ∧ binSplit 0x7F800000 0 = none ∧ (∃ p, binSplit 0x3F800000 0 = some p)
      ∧ binSplit 0x40000000 0 = none ∧ fieldAt (List.replicate 29 (0 : W8) ++ [3, 0, 0]) 29 1 % 4 ≠ 0) ∧
    (5 ∈ ((fix [5] 0).core ⟨false, 0⟩).near.fixes ∧ ((fix [5] 0).core ⟨false, 0⟩).near.used &&& (1#64 <<< (5 % 64)) = 0) ∧
    (5 ∉ ((fix [6] 0).core ⟨false, 0⟩).near.fixes ∧ ((fix [5] 32).core ⟨false, 0⟩).near.used &&& (1#64 <<< (5 % 64)) ≠ 0) ∧
    (let t := scrub 7 0 0 {} [5]
     t.ev.j = 0 ∧ t.ev.i ∉ t.sysuerr ∧ t.ev.i ∉ t.syscerr ∧ 6 ∉ t.sysuerr ∧ 6 ∈ t.syscerr ∧ 5 ∈ t.sysuerr) ∧
    (let t := { scrub 0 1 dayTicks {} [] with syscerr := [2 ^ 33] }
     t.svc.patrol + dayTicks ≤ t.now ∧ left t = []) ∧
    ((scrub 0 1 (dayTicks - 1) {} []).now < (scrub 0 1 0 {} []).svc.patrol + dayTicks ∧ left (scrub 0 1 dayTicks {} [5]) ≠ []) ∧
    (let t := scrub 3 2 (dayTicks / 16) { hot := [(3, 0, 0)] } []
     t.svc.hot = [(3, 0, 0)] ∧ t.ev.i = 3 ∧ 0 + dayTicks / 16 ≤ t.now ∧ (∀ y ∈ left t, y / 2 ^ 22 ≠ 3) ∧ dayTicks / 16 - 1 < 0 + dayTicks / 16) := by
  refine ⟨fun _ _ => ⟨rfl, rfl⟩, fun _ _ n _ => ⟨Nat.le_refl _, clean_of ⟨rfl, rfl, rfl, rfl⟩ _ n, rfl, rfl⟩, ?_, ?_, ?_, ?_⟩
  · intro now h op
    fin_cases h <;> exact ⟨rfl, Nat.le_of_ble_eq_true rfl, Nat.le_of_ble_eq_true rfl⟩
  · exact ⟨.inl ⟨_, _, _, rfl⟩, .inr (.inl ⟨rfl, _, _, _, rfl⟩), .inr (.inr ⟨rfl, _, rfl⟩)⟩
  · exact ⟨by decide +kernel, by decide +kernel, ⟨(0, 0, 2 ^ 31), by decide +kernel⟩, by decide +kernel, by decide +kernel⟩
  · decide +kernel

/-- A control core of a mapped partition: an aligned address, 2^48, a misaligned address and one beyond its pages; and the oldest access
of its list, a store, a strongly ordered load, an acquire, a load that the small cache may serve, an atomic. -/
theorem witness_SystemAccesses :
    let s := at_ (paged (cc { main := { n := [0, 0xFFFFFE0, 0x1000000000000, 9, 0x10000000] ++ List.replicate 11 0 } })) 5 0
    let ported := { s with cur := { s.cur with head := 0x65 } }
    let r (b n : Nat) (rd wr : Bool) := xlate s ⟨true, 0⟩ 20 (readA (cx s) true b).toNat rd wr
    let acc (kind : C1Kind) (pk : Nat) : C1Acc := { k := 0, serial := 0, kind := kind, va := 0, pa := 64, pk := pk }
    let t (x : C1Acc) : State := cc { ctl := { c1 := [x] } }
    hasCore s s.cur.core = true ∧ isSys s = true ∧
    ((readA (cx s) true 1).toNat < 2 ^ 48 ∧ (readA (cx s) true 1).toNat % 32 = 0 ∧ (r 1 32 true true).1 = .ok (2 ^ 28 - 32) 0x1D
      ∧ noRoom (r 1 32 true true).2 = false) ∧
    (ownsW s.cur.head s.cur.slot = false ∧ ownsW ported.cur.head ported.cur.slot = true) ∧
    2 ^ 48 ≤ (readA (cx s) true 2).toNat ∧
    ((readA (cx s) true 3).toNat < 2 ^ 48 ∧ (readA (cx s) true 3).toNat % 8 ≠ 0 ∧ ∀ w ∈ [false, true], (r 3 8 true w).1 = .ok 9 0x1D) ∧
    ((readA (cx s) true 4).toNat < 2 ^ 48 ∧ (r 4 32 true false).1 = .fault 1) ∧
    (∀ x, hasCore (t x) (t x).ev.core = true ∧ (t x).ev.i = 0 ∧ ((t x).core (t x).ev.core).ctl.c1 = [x]
      ∧ (∀ a ∈ ((t x).core (t x).ev.core).near.accs, a.src ≠ (t x).ev.core ∧ a.acq = false) ∧ (∀ n, SysClean (t x) x.pa n)
      ∧ evRoom (t x) (partOf (t x) (t x).ev.core) 1 = true
      ∧ (∀ d, d ∈ (t x).ccs → ∀ w ∈ d.ctl.watch, ∀ g b, w = some (g, b) → g ≠ x.pa / 64)) ∧
    (∀ kind pk, (acc kind pk).sent = false ∧ isRemote (acc kind pk).pa = false) ∧
    ((acc (.store [1]) 0).pa % 64 + [(1 : W8)].length ≤ 64 ∧ [(1 : W8)] ≠ [] ∧ (acc (.load 8) 2).pk = 2 ∧ (acc (.load 8) 2).kind = .load 8
      ∧ ({ acc (.load 8) 0 with acq := true } : C1Acc).acq = true ∧ (acc (.load 8) 0).pk ≠ 2 ∧ (acc (.load 8) 0).acq = false
      ∧ (acc (.atom .add 8 1 0) 0).pa % 64 + 8 ≤ 64) := by
  refine ⟨by decide +kernel, by decide +kernel, by decide +kernel, by decide +kernel, by decide +kernel, by decide +kernel, by decide +kernel, fun x => ?_,
    fun _ _ => ⟨rfl, (by decide : isRemote 64 = false)⟩, by decide +kernel⟩
  refine ⟨rfl, rfl, rfl, fun a h => (by cases (h : a ∈ [])), fun n => sysClean_of ⟨rfl, rfl, rfl⟩ _ _, rfl, ?_⟩
  intro d hd w hw g b e
  simp only [cc, List.mem_singleton] at hd
  subst hd
  simp only [List.mem_replicate] at hw
  simp [hw.2] at e

/-! ### Witnesses: windows, walks and queues -/

/-- A vector-matrix core that issues C1 operations with these n registers: its own vault's offset 0, its last 64 bytes, an address
that is no multiple of 64, core 1's vault, and 2^30. -/
def wx (w : Win) : State :=
  at_ (vm { main := { n := [0, 0x7FFFC0, 33, 0x800000, 0x40000000] ++ List.replicate 11 0 }, eng := { wins := w :: List.replicate 3 {} } }) 5 0

theorem witness_WindowOperations :
    let fault : EngFault := { code := 3, va := 0x4000, num := 1 }
    let op : WinOp := { num := 1, kind := .adv 2 }
    let ready : Win := { opn := true, depth := 1, ops := [op], started := true }
    let job : RowJob := { fill := true, row := 0, todo := [], tail := false }
    let busy : RowJob := { fill := false, row := 0, todo := [0], tail := false }
    let zero : RowJob := { fill := true, row := 0, todo := [0], tail := true }
    let sum (b : Nat) (o : BitVec 12) : Nat := (readA (cx (wx {})) true b + BitVec.ofInt 64 (o.toInt * 64)).toNat
    let stopped : Win := { ready with fault := some fault, work := [job] }
    let counts (n : Nat) : Core := { me (wx stopped) with eng := { (me (wx stopped)).eng with tl := { next := n } :: List.replicate 15 {} } }
    (hasCore (wx {}) (wx {}).cur.core = true ∧ (getWin (me (wx {})) 0).fault = none) ∧
    (∀ n ∈ [15, 16], (getWin (counts n) (sylField (wx {}) 22 2).toNat).fault = some fault ∧ (counts n).eng.wins.length = 4) ∧
    (openOps (counts 15) 0 < 16 ∧ 16 ≤ openOps (counts 16) 0) ∧
    (sum 1 0 < 2 ^ 30 ∧ sum 1 0 / 2 ^ 23 % 128 = (wx {}).cur.core.num ∧ sum 1 0 % 2 ^ 23 = 0x7FFFC0 ∧ sum 1 0 % 64 = 0
      ∧ bankClash (me (wx {})) [(4, granAddrs 0x7FFFC0 64)] = none) ∧
    (sum 2 0 < 2 ^ 30 ∧ sum 2 0 / 2 ^ 23 % 128 = (wx {}).cur.core.num ∧ sum 2 0 % 64 ≠ 0) ∧
    (sum 3 0 / 2 ^ 23 % 128 ≠ (wx {}).cur.core.num ∧ sum 1 1 / 2 ^ 23 % 128 ≠ (wx {}).cur.core.num) ∧
    (2 ^ 30 ≤ sum 4 0 ∧ 2 ^ 30 ≤ sum 0 (-1)) ∧
    ((getWin (me (wx {})) 3).dir < 4 ∧ noRoom (wx {}) = false) ∧
    (∀ kind ∈ ([.adv 2, .opn, .close] : List WKind), let o : WinOp := { num := 1, kind := kind }
      let k := (wx { ready with ops := [o] }).core ⟨false, 0⟩
      let x := getWin k 0
      k.eng.wins.length = 4 ∧ x.started = true ∧ x.work = [] ∧ x.fault = none ∧ x.ops = [o] ∧ o.out = none ∧ o.num ≠ 0
        ∧ ∀ a ∈ k.eng.armed, a.ctr ≠ 0) ∧
    (let x := getWin ((wx { ready with work := [busy, job] }).core ⟨false, 0⟩) 0
     x.work = [busy] ++ job :: [] ∧ job.todo = [] ∧ job.asked = [] ∧ job.fill = true ∧ ∀ z ∈ [busy], z.fill ≠ true ∨ z.todo ≠ [] ∨ z.asked ≠ []) ∧
    (let s := wx { ready with rowlen := 64, work := [zero] }
     let k := s.core ⟨false, 0⟩
     startWins s ⟨false, 0⟩ = s ∧ prepAll s ⟨false, 0⟩ = s ∧ winRequests k = [(0, 0, zero)] ∧ txRequests k ⟨false, 0⟩ = []
       ∧ (getWin k 0).work = [zero] ∧ k.near.accs = [] ∧ (∀ h ∈ k.near.holds, h.2 ≠ k.clk.arch) ∧ ((getWin k 0).slot zero.row + 64 * 0) % 16 = 0
       ∧ (∀ q ∈ granules 16 ((getWin k 0).slot zero.row) 64, k.near.used.getLsbD (q % 64) = false)
       ∧ ¬ ∀ q ∈ granules 16 ((getWin k 0).slot zero.row) 64, ({ k.near with used := 1 } : Near).used.getLsbD (q % 64) = false) ∧
    (startWins (wx {}) ⟨false, 0⟩ = wx {} ∧ prepAll (wx {}) ⟨false, 0⟩ = wx {} ∧ winRequests ((wx {}).core ⟨false, 0⟩) = []) := by
  and_intros <;> decide +kernel

/-- A walk that a C1 access waits for, one that a window waits for, and one that fails under it; and TLBINV, free to end or not. -/
theorem witness_WalksAndInvalidation :
    let st : Stall := { kind := .tlbinv, a := 0xFFFFFFF }
    let acc : C1Acc := { k := 0, serial := 0, kind := .load 8, va := 0, pa := 0, pk := 0 }
    let op : WinOp := { num := 1, kind := .adv 1 }
    let walk (va : Nat) (who : CoreRef × Nat × Nat) (s : State) : State :=
      { paged s with walks := [{ die := 0, part := 0, va := va, who := [who] }], parts := List.replicate 8 {} }
    let waiting (va : Nat) : Win := { opn := true, started := true, ops := [op], waits := [va / 2 ^ 18] }
    let win (va : Nat) : State := walk (va / 2 ^ 18) (⟨false, 0⟩, 0, va) (vm { part := some 0, eng := { wins := waiting va :: List.replicate 3 {} } })
    let c1 := walk 0 (⟨true, 0⟩, 20, 5) (cc { main := { stall := some { kind := .c1, a := 0x3FFFF } } })
    let table (s : State) (va : Nat) : Walked := walkTable (walkMeet s 0 (va * 2 ^ 18)) 0 (va * 2 ^ 18)
    let inv (l : List C1Acc) (r : List Flit) : State := { cc { main := { stall := some st }, ctl := { c1 := l } } with ratoms := r }
    let far : Flit := { kind := .atomic, virt := true }
    (∀ s ∈ [c1, win 1023], s.walks.length = 1 ∧ (s.walks.take s.ev.i).countP (fun x => x.die = 0) < 32 ∧ table s 0 = .leaf true 0x1D) ∧
    (hasCore c1 ⟨true, 0⟩ = true ∧ (c1.core ⟨true, 0⟩).main.stall = some { kind := .c1, a := 0x3FFFF } ∧ 0x3FFFF / 2 ^ 18 = 5 / 2 ^ 18) ∧
    (let s := win 0x10000000
     let x := getWin (s.core ⟨false, 0⟩) 0
     s.walks[s.ev.i]? = some { die := 0, part := 0, va := 1024, who := [(⟨false, 0⟩, 0, 0x10000000)] } ∧ table s 1024 = .fault 1
       ∧ hasCore s ⟨false, 0⟩ = true ∧ partOf s ⟨false, 0⟩ = 0 ∧ 0 < s.parts.length ∧ evRoom s 0 1 = true ∧ (s.core ⟨false, 0⟩).eng.wins.length = 4
       ∧ x.ops = op :: [] ∧ op.num ≠ 0 ∧ x.fault = none ∧ 0x10000000 / 2 ^ 18 ∈ x.waits) ∧
    (cc {}).walks[(cc {}).ev.i]? = none ∧
    (∀ s ∈ [inv [] [], inv [acc] [], inv [] [far]], hasCore s s.ev.core = true ∧ s.ev.core.cc = true ∧ stallOf s s.ev.core false .tlbinv = some st) ∧
    (coreDrained ((inv [] []).core ⟨true, 0⟩) ⟨true, 0⟩ = true ∧ farBusy (inv [] []) 0 = false) ∧
    (coreDrained ((inv [acc] []).core ⟨true, 0⟩) ⟨true, 0⟩ = false ∧ farBusy (inv [] [far]) 0 = true) ∧
    (guardOn (cc {}) 0 0 = true ∧ guardOn (cc {}) (sylField (cc {}) 4 3) (sylField (cc {}) 3 1) = true) := by
  and_intros <;> decide +kernel

theorem witness_QueueOperationsIssue :
    let s := at_ (cc { main := { qempty := 8 } }) 5 0
    hasCore s s.cur.core = true ∧ HasRoom s ∧ (chanEntries s 0 15).length < 2 ^ 16 ∧ chanResv s 0 15 < 2 ^ 16 ∧ (getPart s 0).evCount < 2 ^ 16 ∧ (getPart s 0).ovCount < 2 ^ 16 :=
  ⟨rfl, hasRoom_of rfl, by decide +kernel⟩

/-- A control core with one queue operation, on a channel with n entries of which its partition is both sides, and reservations. -/
def queue (kind : TxKind) (n : Nat) (resv : List (Nat × Nat) := []) : State :=
  { cc { eng := { txs := { ops := [{ num := 1, kind := kind, started := true }], resv := resv } :: List.replicate 15 {} } } with
    parts := { chans := { opn := true, prod := true, cons := true, entries := List.replicate n 7 } :: List.replicate 15 {} } :: List.replicate 7 {} }

/-- The same on a channel that is closed, or of which its partition is the consuming side only. -/
def noQueue (kind : TxKind) (q : Chan) : State :=
  { queue kind 0 with parts := { chans := q :: List.replicate 15 {} } :: List.replicate 7 {} }

theorem witness_QueueAndRecordEvents :
    let takes (s : State) (o : TxOp) : Prop :=
      let c := s.ev.core
      let k := s.core c
      let x := getTx k 0
      let p := partOf s c
      hasCore s c = true ∧ x.ops = [o] ∧ o.started = true ∧ o.out = none ∧ x.fault = none ∧ (∀ a ∈ k.eng.armed, a.ctr ≠ txCtr c 0)
        ∧ 0 < k.eng.txs.length ∧ p < s.parts.length ∧ 0 < (getPart s p).chans.length
    let meets (s : State) (o : TxOp) : Prop :=
      let h := chanHome s 0 0
      let q := getChan s 0 0
      takes s o ∧ q.opn = true ∧ q.prod = true ∧ h.1 < s.parts.length ∧ h.2 < (getPart s h.1).chans.length
    let own (s : State) : Nat := ownResv (getTx (s.core s.ev.core) 0) 0
    let push : TxKind := .qpush 0 5
    let ovf := { cc {} with parts := { evCount := 4095, ovCount := 1 } :: List.replicate 7 {} }
    let arm := cc (regs [0xFFFFFC0, 9, 0x10000000])
    let late (ev ov : Nat) : State := { cc { ctl := { fired := [(7, 1, 0)] } } with parts := { evCount := ev, ovCount := ov } :: List.replicate 7 {} }
    let posted : State := { cc {} with parts := { evNew := [[1, 2]], evCount := 4095 } :: List.replicate 7 {} }
    let watch (l : List (Option (Nat × BitVec 24))) := cc { main := { stall := some { kind := .watch } }, ctl := { watch := l } }
    (∀ kind ∈ [push, .qresv 0 256], ∀ q ∈ ([{ opn := false }, { opn := true, cons := true }] : List Chan),
      takes (noQueue kind q) { num := 1, kind := kind, started := true } ∧ evRoom (noQueue kind q) 0 1 = true ∧ txCtr ⟨true, 0⟩ 0 < 16
        ∧ getChan (noQueue kind q) 0 0 = q ∧ (q.opn = false ∨ q.opn = true ∧ q.prod = false)) ∧
    (meets (queue push 200 [(0, 2)]) { num := 1, kind := push, started := true } ∧ own (queue push 200 [(0, 2)]) ≠ 0) ∧
    (own (queue push 255) = 0 ∧ own (queue push 256) = 0 ∧ meets (queue push 255) { num := 1, kind := push, started := true } ∧ (getChan (queue push 255) 0 0).entries.length + chanResv (queue push 255) 0 0 < 256) ∧
    (meets (queue push 256) { num := 1, kind := push, started := true } ∧ 256 ≤ (getChan (queue push 256) 0 0).entries.length + chanResv (queue push 256) 0 0) ∧
    (meets (queue (.qresv 0 256) 0) { num := 1, kind := .qresv 0 256, started := true }
      ∧ (getChan (queue (.qresv 0 256) 0) 0 0).entries.length + chanResv (queue (.qresv 0 256) 0) 0 0 + 256 ≤ 256) ∧
    256 < (getChan (queue (.qresv 0 256) 1) 0 0).entries.length + chanResv (queue (.qresv 0 256) 1) 0 0 + 256 ∧
    (hasCore ovf ⟨true, 0⟩ = true ∧ 0 < ovf.parts.length ∧ 0 < (getPart ovf 0).ovCount ∧ (getPart ovf 0).evCount < 4096) ∧
    Executes (paged arm) 0 0 ∧
    ((srcS arm 1).toNat % 64 = 0 ∧ (xlate (noteReads (paged arm) [1, 2]) ⟨true, 0⟩ 20 (srcS arm 1).toNat true false).1 = .ok 0xFFFFFC0 0x1D
      ∧ (srcS arm 2).toNat % 64 ≠ 0 ∧ (srcS arm 3).toNat % 64 = 0
      ∧ (xlate (noteReads (paged arm) [3, 2]) ⟨true, 0⟩ 20 (srcS arm 3).toNat true false).1 = .fault 1) ∧
    (Stalled (watch (List.replicate 8 none)) ⟨true, 0⟩ .watch { kind := .watch }
      ∧ Stalled (watch (List.replicate 8 (some (1, 0)))) ⟨true, 0⟩ .watch { kind := .watch }) ∧
    (let k := (watch (List.replicate 7 (some (1, 0)) ++ [none])).core ⟨true, 0⟩
     k.ctl.watch.getD 7 none = none ∧ (∀ f ∈ k.ctl.fired, f.1 ≠ 7) ∧ ∀ j < 7, k.ctl.watch.getD j none ≠ none) ∧
    (let k := (watch (List.replicate 8 (some (1, 0)))).core ⟨true, 0⟩
     ∀ j < 8, k.ctl.watch.getD j none ≠ none) ∧
    (∀ s ∈ [late 0 0, late 4096 32768], hasCore s s.ev.core = true ∧ s.ev.core.cc = true ∧ s.ev.core.num < s.parts.length
      ∧ (s.core s.ev.core).ctl.fired = (7, 1, 0) :: []) ∧
    (evRoom (late 0 0) 0 1 = true ∧ evRoom (late 4096 32768) 0 1 = false) ∧
    (hasCore posted ⟨true, 0⟩ = true ∧ (getPart posted 0).evNew = [[1, 2]] ∧ (∀ p' < 8, p' ≠ 0 → (getPart posted p').evNew = []) ∧ posted.parts.length = 8
      ∧ (getPart posted 0).evWait = [] ∧ (getPart posted 0).ovCount = 0 ∧ (getPart posted 0).evCount < 4096 ∧ ([1, 2] : List W8) ≠ []) :=
  ⟨by decide +kernel, by decide +kernel, by decide +kernel, by decide +kernel, by decide +kernel, by decide +kernel, by decide +kernel, executes_of rfl,
    by decide +kernel, ⟨⟨rfl, rfl, rfl, rfl, rfl⟩, ⟨rfl, rfl, rfl, rfl, rfl⟩⟩, by decide +kernel, by decide +kernel, by decide +kernel⟩

/-! ### Witnesses: transfers, flits and groups -/

/-- A vector-matrix core in a phase whose C1 operation names context 0 and counter tl4. -/
def walks (e : Engines) (walked : Bool := false) : State :=
  at_ (vm { ph := { inph := true, txwalked := walked }, eng := e }) 5 (BitVec.ofNat 32 (4 * 2 ^ 20))

theorem witness_TransferInstructionsIssue :
    let s := wx {}
    let d := at_ (cc { main := { n := [0x3FFFF, 0x40000] ++ List.replicate 14 0 } }) 5 0
    let taken := { wx {} with vms := [{ (wx {}).core ⟨false, 0⟩ with near := { claims := [(4, BitVec.allOnes 64)] } }] }
    let fault : EngFault := { code := 3, va := 0x4000, num := 1 }
    let op : TxOp := { num := 1, kind := .copy, started := true, wait := some 0x4000 }
    let stuck (n : Nat) := walks { txs := { ops := [op], fault := some fault } :: List.replicate 15 {}, tl := List.replicate 16 { next := n } }
    let sum (s : State) (b : Nat) (o : BitVec 16) : Nat := (readA (cx s) true b + BitVec.ofInt 64 (o.toInt * 32)).toNat
    hasCore s s.cur.core = true ∧ hasCore d d.cur.core = true ∧
    (s.cur.core.cc = false ∧ sum s 1 1 < 2 ^ 30 ∧ sum s 1 1 / 2 ^ 23 % 128 = s.cur.core.num ∧ sum s 1 1 % 2 ^ 23 = 0x7FFFE0 ∧ sum s 1 1 % 32 = 0
      ∧ bankClash (me s) [(4, granAddrs 0x7FFFE0 32)] = none) ∧
    (hasCore taken taken.cur.core = true ∧ bankClash (me taken) [(4, granAddrs 0x7FFFE0 32)] ≠ none) ∧
    (2 ^ 30 ≤ sum s 4 0 ∧ sum s 3 0 / 2 ^ 23 % 128 ≠ s.cur.core.num ∧ sum s 1 2 / 2 ^ 23 % 128 ≠ s.cur.core.num) ∧
    (sum s 2 0 < 2 ^ 30 ∧ sum s 2 0 / 2 ^ 23 % 128 = s.cur.core.num ∧ sum s 2 0 % 32 ≠ 0) ∧
    (d.cur.core.cc = true ∧ sum d 0 0 < 0x40000 ∧ 0x40000 ≤ sum d 1 0) ∧
    inPhase s = false ∧
    (∀ w ∈ [walks {}, walks {} true, walks { tl := List.replicate 16 { next := 16 } }], let t := (sylField w 20 4).toNat
     hasCore w w.cur.core = true ∧ inPhase w = true ∧ t < (me w).eng.tl.length ∧ t - 4 < (me w).eng.txs.length
       ∧ ∀ o ∈ (getTx (me w) (t - 4)).ops, o.num < (getTL (me w) t).next + 1) ∧
    (getTx (me (walks {})) 0).fault = none ∧
    (∀ n ∈ [15, 16], (getTx (me (stuck n)) 0).fault = some fault ∧ 0 < (me (stuck n)).eng.txs.length ∧ (getTx (me (stuck n)) 0).ops = [op]) ∧
    (op.num = fault.num ∧ op.out = none ∧ openOps (me (stuck 15)) 4 < 16 ∧ 16 ≤ openOps (me (stuck 16)) 4) := by
  decide +kernel

theorem witness_ReceiveTilesAndBinding :
    let d := at_ (cc {}) 5 0
    let tile (id n : Nat) (rx : List RxSlot) : State := at_ (vm { regs [BitVec.ofNat 64 (id + n * 2 ^ 16)] with eng := { rx := rx } }) 5 0
    let a (s : State) : Nat := (cmData s 0 1).toNat
    let busy := tile 63 1 (List.replicate 64 { id := 63, armed := true })
    let done := tile 63 1 (List.replicate 64 { id := 63, armed := true, ready := true })
    let grp (p : Option Nat) : State := { at_ (vm { part := some 0 }) 5 (BitVec.ofNat 32 (4095 * 2 ^ 10)) with groups := [(4095, { part := p })] }
    let bound (l : List Member) : State := at_ (vm { eng := { tl7 := some 4, members := l } }) 5 0
    (hasCore d d.cur.core = true ∧ d.cur.core.cc = true) ∧ (hasCore busy busy.cur.core = true ∧ busy.cur.core.cc = false) ∧ HasRoom busy ∧
    (a (tile 0 1 []) % 2 ^ 16 = 0 ∧ a (tile 1 0 []) / 2 ^ 16 % 2 ^ 24 = 0) ∧
    (a busy % 2 ^ 16 ≠ 0 ∧ a busy / 2 ^ 16 % 2 ^ 24 ≠ 0 ∧ (getRx (me busy) 63).armed = true ∧ (getRx (me busy) 63).ready = false) ∧
    ((getRx (me done) 63).ready = true ∧ (getRx (me (tile 63 1 [])) 63).armed = false) ∧
    ((getRx (me done) (63 % 64)).armed = true ∧ (getRx (me done) 63).id = 63 ∧ (getRx (me done) 63).start ≤ (me done).clk.cyc) ∧
    ((getGroup (grp none) (sylField (grp none) 10 12).toNat).part ≠ some (partOf (grp none) (grp none).cur.core)
      ∧ (getGroup (grp (some 0)) (sylField (grp (some 0)) 10 12).toNat).part = some (partOf (grp (some 0)) (grp (some 0)).cur.core)) ∧
    (me busy).eng.tl7 = none ∧
    ((me (bound [{ grp := 4, applied := 1, gen := 0 }])).eng.tl7 = some 4
      ∧ (me (bound [{ grp := 4, applied := 1, gen := 0 }])).eng.members.find? (fun m => m.grp = 4) = some { grp := 4, applied := 1, gen := 0 }) ∧
    (∀ m ∈ (me (bound [])).eng.members, m.grp ≠ 4) :=
  ⟨by decide, by decide, hasRoom_of rfl, by decide +kernel, by decide +kernel, by decide +kernel, by decide +kernel, by decide +kernel, by decide +kernel,
    by decide +kernel, by decide +kernel⟩

theorem witness_TransfersComplete :
    let op (st : Nat) : TxOp := { num := 1, kind := .send, started := true, out := some (st, 0) }
    let s (st : Nat) : State := { vm { eng := { txs := { ops := [op st] } :: List.replicate 15 {} } } with
      parts := { evCount := 4095 } :: List.replicate 7 {} }
    let rx := { vm { eng := { rx := List.replicate 63 {} ++ [{ ready := true, num := 1 }] } } with ev := { i := 79 } }
    let note (chip op : Nat) : Nat × W64 × Flit := (3, 9, { kind := .notify, srcChip := chip, op := op })
    let q (n : Nat) (f : Nat × W64 × Flit) : State := { vm { eng := { rqs := List.replicate 4 (List.replicate n 0), notes := [f] } } with ev := { i := 3 } }
    let meets (s : State) (o : TxOp) : Prop :=
      let c := s.ev.core
      let k := s.core c
      hasCore s c = true ∧ s.ev.i < 16 ∧ s.ev.j = 0 ∧ (getTx k 0).ops = [o] ∧ o.started = true ∧ (getTx k 0).fault = none ∧ ∀ a ∈ k.eng.armed, a.ctr ≠ txCtr c 0
    (meets (s 0) (op 0) ∧ (op 0).out = some (0, 0)) ∧
    (meets (s 2) (op 2) ∧ (op 2).out = some (2, 0) ∧ hasCore (s 2) ⟨true, 0⟩ = true ∧ partOf (s 2) (s 2).ev.core < (s 2).parts.length
      ∧ evRoom (s 2) (partOf (s 2) (s 2).ev.core) 1 = true) ∧
    (let k := rx.core rx.ev.core
     hasCore rx rx.ev.core = true ∧ rx.ev.i = 16 + 63 ∧ 63 < k.eng.rx.length ∧ (getRx k 63).ready = true ∧ (getRx k 63).num ≠ 0 ∧ (getRx k 63).pois = false
       ∧ (getRx k 63).excess = false ∧ ∀ a ∈ k.eng.armed, a.ctr ≠ 6) ∧
    (let k := (q 64 (note 0 2)).core ⟨false, 0⟩
     hasCore (q 64 (note 0 2)) ⟨false, 0⟩ = true ∧ 3 < k.eng.rqs.length ∧ k.eng.notes = [] ++ note 0 2 :: [] ∧ (note 0 2).1 = 3 ∧ 64 ≤ (k.eng.rqs.getD 3 []).length) ∧
    (let k := (q 63 (note 1 0)).core ⟨false, 0⟩
     (k.eng.rqs.getD 3 []).length < 64 ∧ (note 1 0).2.2.srcChip ≠ (q 63 (note 1 0)).chip) ∧
    ((note 0 2).2.2.srcChip = (q 63 (note 0 2)).chip ∧ (note 0 2).2.2.op = 2) := by
  decide +kernel

/-- A gang in its first phase, on core 0: one timetable entry of one flit, 32 bytes at 0x100, with this stamp, at cycle `phc`. -/
def walking (stamp phc : Nat) (port : Port := {}) (near : Near := {}) : State :=
  let e : List W8 := natBytes 4 stamp ++ natBytes 4 0x100 ++ natBytes 4 32 ++ List.replicate 20 0
  { vm { ph := { gang := some 0, inph := true, phc := phc }, near := near
         eng := { txs := { ops := [{ num := 1, kind := .walk, started := true, walk := [0], start := 2 }] } :: List.replicate 15 {} } } with
    gangs := [{ cores := [0], running := true, cur := some (false, 0), bufA := some [{ fab := [([e], 0)] }] }]
    ports := port :: List.replicate 35 {} }

theorem witness_TimetabledFlitsReadAndLeave :
    let o : TxOp := { num := 1, kind := .walk, started := true, walk := [0], start := 2 }
    let f : Flit := { kind := .data, timed := true, num := 1 }
    let dead : Port := { up := false }
    let p (x : Port) (j now : Nat) : State := { walking 0 5 x with ev := { j := j }, now := now }
    let ready (s : State) : Prop := dcc s % 7 = 0 ∧ (getPort s 0).nextSlot ≤ s.now ∧ (getPort s 0).up = true ∧ (getPort s 0).retrain ≤ s.now
    let waits (s : State) : Prop := ∀ y ∈ (getPort s 0).timed, s.now < y.due
    let reads (s : State) : Prop := let k := s.core s.ev.core
      hasCore s s.ev.core = true ∧ s.ev.core.cc = false ∧ startTxs s s.ev.core 0 = s ∧ walkOf s s.ev.core 0 = some (o, getGang s 0) ∧ o.walk[0]? = some 0
        ∧ 0 < k.eng.txs.length ∧ entPort ((fabRun s s.ev.core).1.getD 0 []) = 0
    let free (s : State) : Prop := engBusy (s.core s.ev.core) 0x100 32 = false
    (∀ x ∈ [(100, 67), (100, 68), (0, 1), (0, 2)], reads (walking x.1 x.2) ∧ free (walking x.1 x.2) ∧ (getPort (walking x.1 x.2) 0).up = true) ∧
    (∀ n, Clean ((walking 0 2).core ⟨false, 0⟩).near 0x100 n) ∧
    (let r (s : State) : Nat := max (entStamp ((fabRun s ⟨false, 0⟩).1.getD 0 []) - 32) o.start
     67 < r (walking 100 67) ∧ r (walking 100 68) ≤ 68 ∧ 1 < r (walking 0 1) ∧ r (walking 0 2) ≤ 2) ∧
    (let s := walking 0 5 {} { used := BitVec.allOnes 64 }
     reads s ∧ ¬ free s) ∧
    (let s := walking 0 5 { dead with detour := some (3, 50) }
     reads s ∧ free s ∧ (getPort s 0).detour = some (3, 50) ∧ 3 < s.ports.length ∧ (getPort s 3).up = true) ∧
    (let s := walking 0 5 dead
     reads s ∧ free s ∧ (getPort s 0).detour = none ∧ (getPort s 0).up = false ∧ (s.core s.ev.core).ph.gang = some 0 ∧ 0 < s.gangs.length) ∧
    ¬ ready (p {} 0 6) ∧ ¬ ready (p dead 0 7) ∧
    (ready (p { timed := [{ f with due := 7 }] } 0 7) ∧ ({ f with due := 7 } : Flit).due ≤ 7
      ∧ ((p {} 0 7).core (flitSrc f)).ph.gang = some 0 ∧ ({ f with rerouted := true } : Flit).rerouted = true) ∧
    (ready (p { timed := [{ f with due := 8 }], untimed := [f] } 1 7) ∧ waits (p { timed := [{ f with due := 8 }], untimed := [f] } 1 7)
      ∧ (getPort (p { untimed := [f] } 1 7) 0).untimed = f :: []) ∧
    (ready (p {} 0 7) ∧ waits (p {} 0 7) ∧ (getPort (p {} 0 7) 0).untimed = []) :=
  ⟨by decide +kernel, fun _ => clean_of ⟨rfl, rfl, rfl, rfl⟩ _ _, by decide +kernel, by decide +kernel, by decide +kernel, by decide +kernel,
    by decide +kernel, by decide +kernel, by decide +kernel, by decide +kernel, by decide +kernel⟩

/-- A core of a task with a walk, the same with one flit under way, and with a port in this state. -/
def flying (f : Flit) (now : Nat) (near : Near := {}) : State :=
  { vm { part := some 0, ph := { gang := some 0 }, near := near, eng := { txs := { ops := [{ num := 1, kind := .walk }] } :: List.replicate 15 {} } } with
    flits := [f], now := now, gangs := [{}], ports := List.replicate 36 {} }

theorem witness_FlitsAndLinks :
    let f : Flit := { kind := .data, timed := true, bytes := List.replicate 32 1, off := 0x7FFFE0, due := 5, num := 1 }
    let all : List Part := { ports := BitVec.allOnes 36 } :: List.replicate 7 {}
    let l (x : Port) (j : Nat) (fs : List Flit) (parts : List Part) : State :=
      { flying f 10 with flits := fs, ports := List.replicate 35 {} ++ [x], ev := { i := 35, j := j, v := 1 }, parts := parts }
    let meets (s : State) (f : Flit) : Prop := s.ev.flit = none ∧ s.flits[s.ev.i]? = some f
    let before (s : State) (f h : Flit) : Prop := h.kind = .data ∧ h.dstChip = f.dstChip ∧ flitDst h = flitDst f ∧ h.due ≤ s.now ∧ flitKey h < flitKey f
    let here (s : State) (f : Flit) : Prop := meets s f ∧ f.due ≤ s.now ∧ (∀ h ∈ s.flits, ¬ before s f h) ∧ f.dstChip = s.chip ∧ f.kind = .data ∧ f.op ≠ 1
    let beside (s : State) (q : Nat) : Prop := q < 36 ∧ q ≠ 35 ∧ (getPort s q).up = true
      ∧ ∃ m < 8, (getPart s m).ports.getLsbD 35 = true ∧ (getPart s m).ports.getLsbD q = true
    let away : Flit := { f with dstChip := 1, port := 35 }
    ({ flying f 4 with ev := { flit := some f } } : State).ev.flit = some f ∧
    (meets (flying f 4) f ∧ (flying f 4).now < f.due) ∧
    (let s : State := { flying f 5 with flits := [f, { f with due := 3 }] }
     meets s f ∧ ∃ h ∈ s.flits, before s f h) ∧
    (meets (flying away 5) away ∧ away.due ≤ 5 ∧ (∀ h ∈ (flying away 5).flits, ¬ before (flying away 5) away h) ∧ 1 ≠ (flying f 5).chip
      ∧ crosses (flying away 5) away = true ∧ linkOf (flying away 5) away = 35) ∧
    (let s := flying f 5
     here s f ∧ f.timed = true ∧ inPart s (flitDst f) f.part = true ∧ f.mode = 0 ∧ f.tile = 0 ∧ f.pois = [] ∧ f.off % 16 = 0
       ∧ f.bytes.length % 16 = 0 ∧ f.bytes.length ≤ 224 ∧ f.fill = 0 ∧ engBusy (s.core (flitDst f)) f.off f.bytes.length = false) ∧
    (let s := flying { f with fill := 1 } 5 { used := BitVec.allOnes 64 }
     here s { f with fill := 1 } ∧ inPart s (flitDst f) f.part = true ∧ 1 < f.bytes.length / 16 ∧ engBusy (s.core (flitDst f)) (f.off + 16) 16 = true) ∧
    (∀ chip ∈ [0, 3], let h := { f with part := 1, srcChip := chip }
     here (flying h 5) h ∧ inPart (flying h 5) (flitDst h) 1 = false) ∧
    (((flying f 5).core (flitSrc f)).ph.gang = some 0 ∧ 0 < (flying f 5).gangs.length) ∧
    (∀ n ∈ [3, 7], let s := l { failures := n } 0 [away, away] []
      s.ports.length = 36 ∧ (getPort s 35).failures = n ∧ ∀ f ∈ s.flits, (crosses s f && linkOf s f = 35) = true) ∧
    ((getPort (l { retrain := 10 } 0 [] []) 35).retrain ≤ 10 ∧ ¬ (getPort (l { retrain := 11 } 0 [] []) 35).retrain ≤ 10) ∧
    (let s := l { timed := [f] } 1 [away] []
     s.ev.j = 1 ∧ (getPort s 35).detour = none ∧ f.timed = true) ∧
    (let s := l { timed := [f] } 0 [away] all
     s.ev.j = 0 ∧ (getPort s 35).detour = none ∧ beside s 34) ∧
    (let s := l { timed := [f], detour := some (35, 7) } 0 [away] (List.replicate 8 {})
     s.ev.j = 0 ∧ (getPort s 35).detour = some (35, 7) ∧ ∀ q < 36, ¬ beside s q) := by
  and_intros <;> decide +kernel

theorem witness_MulticastGroups :
    let f : Flit := { kind := .mcStore, bytes := List.replicate 16 1 }
    let g (x : Group) : State := { vm { part := some 0 } with groups := [(0, x)] }
    let m : Member := { grp := 0, applied := 4, gen := 0 }
    let h : Flit := { f with kind := .mcMember, seqn := 5 }
    let two : List Flit := [{ h with cnt := 2, off := 0x40, idx := 1 }, { h with cnt := 2, off := 0x40, bytes := List.replicate 224 3 }]
    let mem (m : Member) (near : Near) : State := vm { eng := { members := [m], tl7 := some 0 }, near := near }
    let lo (f : Flit) : Nat := f.off + 224 * f.idx
    let member (s : State) (m : Member) : Prop := hasCore s s.ev.core = true ∧ s.ev.core.cc = false ∧ (s.core s.ev.core).eng.members[s.ev.i]? = some m
    let j : Flit := { kind := .mcJoin, seqn := 1 }
    let asks (chip : Nat) : State := { g { asks := [{ f with srcChip := chip }] } with ev := { j := 1 } }
    let joins (x : Group) (f : Flit) (s : State) : Prop := getGroup s 0 = x ∧ x.joins = f :: [] ∧ (f.kind = .mcJoin ∨ f.kind = .mcLeave)
    let oldest (x : Group) : Nat := (x.kept.map (·.seqn)).foldl min (x.seqn + 1)
    let leave : Flit := { j with kind := .mcLeave }
    let kept : Group := { joins := [{ j with seqn := 2 }], seqn := 5, kept := [{ f with seqn := 2 }] }
    (wholeStore (getGroup (g {}) 0).inq = none ∧ (getGroup (g { inq := [{ f with cnt := 2 }] }) 0).inq = [{ f with cnt := 2 }] ∧ 1 < 2) ∧
    wholeStore (getGroup (g { inq := [{ f with cnt := 2 }, { f with num := 4 }, { f with cnt := 2, idx := 1 }] }) 0).inq = some { f with num := 4 } ∧
    (member (mem m {}) m ∧ wholeSeq m (m.applied + 1) = none ∧ wholeSeq { m with held := [two.headD h] } 5 = none) ∧
    (let n : Member := { m with held := two }
     let s := mem n {}
     let k := s.core ⟨false, 0⟩
     member s n ∧ (∃ l, wholeSeq n (n.applied + 1) = some l ∧ l.length = 2
       ∧ (∀ f ∈ l, engBusy k (lo f) f.bytes.length = false ∧ f.pois = [] ∧ f.bytes.length % 16 = 0)
       ∧ l.Pairwise (fun f h => lo f + f.bytes.length ≤ lo h ∨ lo h + h.bytes.length ≤ lo f))
       ∧ n.leaving = false ∧ k.eng.members.find? (fun y => y.grp = n.grp) = some n ∧ k.eng.tl7 = some n.grp ∧ 7 < k.eng.tl.length) ∧
    (wholeSeq { m with held := [h], leaving := true } 5 = some [h] ∧ engBusy ((mem { m with held := [h] } { used := BitVec.allOnes 64 }).core ⟨false, 0⟩) 0 16 = true) ∧
    ((mem m {}).ev.j = 0 ∧ lacking (mem m {}) ⟨false, 0⟩ m = none
      ∧ lacking { mem m {} with groups := [(0, { kept := [{ f with seqn := 4 }, { f with seqn := 6 }] })] } ⟨false, 0⟩ m = some 6) ∧
    (∀ chip ∈ [0, 1], (asks chip).ev.j = 1 ∧ (getGroup (asks chip) 0).asks = { f with srcChip := chip } :: []) ∧
    (let x : Group := { joins := [j] }
     let s := g x
     joins x j s ∧ (j.srcChip, j.srcCore) ∉ x.members ∧ j.seqn ≤ x.seqn + 1 ∧ j.seqn ≠ 0 ∧ x.kept = [] ∧ x.members.length < 64
       ∧ j.srcChip = s.chip ∧ hasCore s (flitSrc j) = true) ∧
    (let x : Group := { joins := [leave], members := [(0, 0)] }
     joins x leave (g x) ∧ (leave.srcChip, leave.srcCore) ∈ x.members) ∧
    ((0, 0) ∈ ({ joins := [j], members := [(0, 0)] } : Group).members ∧ (0, 0) ∉ ({ joins := [leave] } : Group).members) ∧
    (joins kept { j with seqn := 2 } (g kept) ∧ kept.kept ≠ [] ∧ 2 ≤ oldest kept ∧ oldest kept < 3 ∧ kept.seqn + 1 < 7) ∧
    ((getGroup (g { members := [(0, 1)] }) 0).members[(g {}).ev.j]? = some (0, 1) ∧ (0 : Nat) = (g {}).chip) ∧
    (∀ z ∈ ([(f, [(0, 1)], false)] : List (Flit × List (Nat × Nat) × Bool)), z.2.2 = false ∧ z.2.1 ≠ []) ∧
    (let a : List (Flit × List (Nat × Nat) × Bool) := [(f, [(0, 1)], false)]
     let b : List (Flit × List (Nat × Nat) × Bool) := [({ f with seqn := 4 }, [(1, 1)], true)]
     ∀ e ∈ ([({ f with seqn := 3 }, [], false), ({ f with seqn := 3 }, [(1, 1)], true)] : List (Flit × List (Nat × Nat) × Bool)),
       (getGroup (g { open_ := a ++ e :: b }) 0).open_ = a ++ e :: b ∧ (e.2.1 = [] ∨ e.2.2 = true) ∧ ∀ z ∈ a ++ b, z.1.seqn ≠ e.1.seqn) := by
  and_intros <;> decide +kernel

theorem witness_RemoteAtomics :
    let f : Flit := { kind := .atomic, off := 0x40, op := 7 }
    let s (f : Flit) : State := { paged (vm { part := some 0 }) with ratoms := [f], syspoison := [2] }
    let far : Flit := { f with virt := true, srcChip := 3 }
    let kept := { s f with replies := [(0, ratKey f, 0, 0, 9)] }
    let busy : State := { s f with vms := [{ part := some 0, near := { used := BitVec.allOnes 64 } }] }
    let op (o : TxOp) (near : Near) (ports : BitVec 36) (now : Nat) : State :=
      { paged (vm { eng := { txs := { ops := [o] } :: List.replicate 15 {} }, part := some 0, near := near }) with
        now := now, ports := List.replicate 36 {}, parts := { ports := ports } :: List.replicate 7 {} }
    let dsc (tgt : Nat) : List W8 := natBytes 8 tgt ++ natBytes 8 5 ++ natBytes 8 6 ++ natBytes 4 0x80 ++ [1, 0, 0, 0]
    let sent (n tgt : Nat) : TxOp := { num := 1, kind := .ratom, started := true, loaded := true, deadline := 5, sent := n, desc := dsc tgt }
    let got (k : TxKind) (st : Nat) : TxOp := { num := 1, kind := k, settled := some st, desc := dsc 0 }
    let has (o : TxOp) (now : Nat) : Prop := hasCore (op o {} 0 now) ⟨false, 0⟩ = true ∧ (getTx ((op o {} 0 now).core ⟨false, 0⟩) 0).ops[0]? = some o
      ∧ o.out = none ∧ (getTx ((op o {} 0 now).core ⟨false, 0⟩) 0).fault = none
    let target (n : Nat) : W64 := BitVec.ofNat 64 (fieldAt (sent 8 n).desc 0 8)
    let good (n : Nat) (p : BitVec 36) : Prop := ratomOk (op (sent 8 n) {} p 5) ⟨false, 0⟩ (dsc n) = true ∧ isVirt (target n) = false
    (kept.ratoms[kept.ev.i]? = some f ∧ cachedReply kept f = some 9) ∧
    (let v : Flit := { f with virt := true }
     (s v).ratoms[0]? = some v ∧ cachedReply (s v) v = none ∧ v.srcChip = (s v).chip ∧ v.off % ratSize v.op = 0) ∧
    SysClean (vm {}) f.off 4 ∧
    (cachedReply (s far) far = none ∧ far.srcChip ≠ (s far).chip ∧ paAllotted (s far) far.part far.off = true
      ∧ paAllotted (s far) 1 far.off = false) ∧
    (0x80 / 64 ∈ (s { f with virt := true, off := 0x80 }).syspoison ∧ 0x80 / 64 ∉ (s f).sysuerr ∧ 0x80 / 64 ∉ (s f).syscerr) ∧
    (cachedReply (s f) f = none ∧ f.virt = false ∧ inPart (s f) (flitDst f) f.part = true
      ∧ engBusy ((s f).core (flitDst f)) f.off (ratSize f.op) = false) ∧
    (cachedReply busy f = none ∧ inPart busy (flitDst f) f.part = true ∧ engBusy (busy.core (flitDst f)) f.off (ratSize f.op) = true) ∧
    Clean ((s f).core (flitDst f)).near f.off 4 ∧ inPart (s { f with part := 1 }) (flitDst f) 1 = false ∧
    has (got .ratom 0) 0 ∧ has (got .ratom 2) 0 ∧ has (got (.join 3 1) 2) 0 ∧ has (got (.leave 3) 0) 0 ∧ has (got .mcsto 3) 0 ∧
    (engBusy ((op (got .ratom 0) {} 0 0).core ⟨false, 0⟩) 0x80 8 = false
      ∧ engBusy ((op (got .ratom 0) { used := BitVec.allOnes 64 } 0 0).core ⟨false, 0⟩) 0x80 8 = true) ∧
    (has (sent 1 0x40) 4 ∧ 4 < (sent 1 0x40).deadline) ∧ (has (sent 9 0x40) 5 ∧ (sent 9 0x40).deadline ≤ 5 ∧ 9 ≤ (sent 9 0x40).sent) ∧
    (has (sent 8 0x40) 5 ∧ (sent 8 0x40).sent < 9 ∧ good 0x40 0 ∧ vChip (target 0x40) = (op (sent 8 0x40) {} 0 5).chip) ∧
    (let s (p : BitVec 36) := op (sent 8 (2 ^ 30 + 0x40)) {} p 5
     good (2 ^ 30 + 0x40) 9 ∧ vChip (target (2 ^ 30 + 0x40)) ≠ (s 9).chip ∧ (s 9).ports.length = 36 ∧ portsOf (s 9) (partOf (s 9) ⟨false, 0⟩) ≠ []
       ∧ good (2 ^ 30 + 0x40) 0 ∧ portsOf (s 0) (partOf (s 0) ⟨false, 0⟩) = []) :=
  ⟨by decide +kernel, by decide +kernel, sysClean_of ⟨rfl, rfl, rfl⟩ _ _, by decide +kernel, by decide +kernel, by decide +kernel, by decide +kernel,
    clean_of ⟨rfl, rfl, rfl, rfl⟩ _ _, by decide +kernel⟩

/-! ### Witnesses: phases and stalls -/

/-- A gang of core 0 of partition 0, whose buffer A holds one record. -/
def gangWith (r : PhRec) (f : Gang → Gang) : List Gang := [f { cores := [0], running := true, bufA := some [r] }]

theorem witness_PhasesStart :
    let r : PhRec := { entry := [4, 0], length := 10 }
    let k : Core := { tp := { active := true }, near := { used := 5 } }
    let s (now : Nat) (f : Gang → Gang) : State :=
      { vms := [k, { k with run := .faulted }], ccs := [{}], now := now, gangs := gangWith r (fun g => f { g with cores := [0, 1], nextRec := some (false, 0), nextAt := some 5 }) }
    let saves (ens : Bool) : State := s 5 (fun g => { g with save := some (0, false, none), ens := ens })
    let late (ph : CorePh) (due : Bool) : State := vm { ph := ph, run := .running, tr := { tvec := 4 }, codelen := 8, clk := { due := due } }
    (∀ t ∈ [s 4 id, s 5 id, saves false, saves true], let g := getGang t t.ev.i
      g.nextRec = some (false, 0) ∧ g.nextAt = some 5 ∧ g.live = true ∧ g.running = true ∧ g.ending = none
        ∧ t.ev.i < t.gangs.length ∧ (g.bufA.getD [])[0]? = some r ∧ g.cores.Nodup ∧ (∀ n ∈ g.cores, n < t.vms.length)) ∧
    ((s 4 id).now < 5 ∧ 5 ≤ (s 5 id).now ∧ (getGang (s 5 id) 0).save = none ∧ (getGang (saves true) 0).ens = true) ∧
    ((getGang (saves false) 0).save ≠ none ∧ (getGang (saves false) 0).ens = false) ∧
    ((getGang (s 5 id) 0).cores[0]? = some 0 ∧ r.entry.getD 0 0 ≠ 0 ∧ r.entry.getD 1 0 = 0) ∧
    (let t := late { inph := true, phc := 10, length := 10 } false
     let k := t.core t.ev.core
     hasCore t t.ev.core = true ∧ k.ph.inph = true ∧ k.ph.signed = false ∧ k.ph.length ≤ k.ph.phc ∧ k.tp.active = false ∧ k.run = .running
       ∧ handlerOk t.ev.core k (tvecAt k k.clk.arch) = true) ∧
    (let t := late { inph := true, phc := 9, length := 10 } false
     (t.core t.ev.core).ph.phc < (t.core t.ev.core).ph.length) ∧
    (∀ due, let t := late { phc := 1024 } due
     (t.core t.ev.core).ph.phc % 1024 = 0 ∧ (t.core t.ev.core).clk.due = due) := by
  and_intros <;> decide +kernel

theorem witness_SignOffMessages :
    let e : List W8 := natBytes 4 0 ++ natBytes 4 0x100 ++ natBytes 4 32 ++ List.replicate 20 0
    let r : PhRec := { length := 10, fab := [([e], 32)] }
    let s (ph : CorePh) (inbound now left : Nat) : State := { vm { ph := { ph with gang := some 0, sigPend := true }, eng := { inbound := inbound } } with
      now := now, gangs := gangWith r (fun g => { g with cur := some (false, 0), awaited := [(0, 0), (1, 0), (2, 0)], left := [(0, left)] }) }
    let g (t : State) : Gang := getGang t 0
    let ends (t : State) : Nat := (g t).s + (9 * r.length + ninths (g t).step - 1) / ninths (g t).step
    let early := s { phc := 9, length := 10 } 31 9 0
    let waits := s { phc := 10, length := 10, sigConds := [(2, 1)] } 32 10 1
    let met := s { phc := 10, length := 10, sigConds := [(2, 0)] } 32 10 1
    let forced := s { phc := 10, length := 10, sigConds := [(2, 1)], sigFail := true } 32 10 1
    (∀ t ∈ [early, waits, met, forced], 0 < t.gangs.length ∧ runRec (g t) = some r ∧ hasCore t t.ev.core = true
      ∧ (t.core t.ev.core).ph.gang = some 0 ∧ (t.core t.ev.core).ph.sigPend = true ∧ (1, 0) ∈ (g t).awaited ∧ (2, 0) ∈ (g t).awaited
      ∧ (∀ m ∈ (g t).msgs, m.who ≠ 1 ∧ m.who ≠ 2) ∧ t.ev.i = 0) ∧
    ((forced.core ⟨false, 0⟩).ph.sigFail = true ∧ (waits.core ⟨false, 0⟩).ph.sigFail = false ∧ (waits.core ⟨false, 0⟩).ph.sigReplay = false) ∧
    (early.core ⟨false, 0⟩).ph.phc < (early.core ⟨false, 0⟩).ph.length ∧ (early.now < ends early ∨ portLeft (g early) 0 < portFlits r 0) ∧
    (early.core ⟨false, 0⟩).eng.inbound < (fabRun early ⟨false, 0⟩).2 ∧
    (∃ x ∈ (waits.core ⟨false, 0⟩).ph.sigConds, counterValue waits ⟨false, 0⟩ x.1 < x.2) ∧
    (let k := met.core ⟨false, 0⟩
     k.ph.length ≤ k.ph.phc ∧ k.ph.sigReplay = false ∧ k.ph.sigFail = false ∧ k.mx.evts = [] ∧ k.mx.rows = []
       ∧ ∀ x ∈ k.ph.sigConds, x.2 ≤ counterValue met ⟨false, 0⟩ x.1) ∧
    (ends met ≤ met.now ∧ portFlits r 0 ≤ portLeft (g met) 0 ∧ (fabRun met ⟨false, 0⟩).2 ≤ (met.core ⟨false, 0⟩).eng.inbound) := by
  decide +kernel

/-- A gang with a message in hand, that of its core; a partner chip's, as an input; and a gang in slack. -/
theorem witness_CloveDecides :
    let m (err replay thermal : Bool) : SigMsg :=
      { who := 0, idx := 0, p := some 0, step := 0, cool := 0, err := err, replay := replay, due := 5, thermal := thermal }
    let s (r : PhRec) (f : Gang → Gang) (x : SigMsg) (bs : List W8) (now : Nat) : State :=
      { vm {} with now := now, ev := { bytes := bs }, gangs := gangWith r (fun g => f { g with cur := some (false, 0), msgs := [x], awaited := [(0, 0)] }) }
    let one (t : State) (r : PhRec) (x : SigMsg) : Prop :=
      let g := getGang t 0
      t.ev.bytes = [] ∧ t.ev.i < t.gangs.length ∧ g.msgs[t.ev.j]? = some x ∧ x.due ≤ t.now ∧ g.awaited = [(x.who, x.idx)] ∧ runRec g = some r
        ∧ g.cur = some (false, 0) ∧ g.ending = none ∧ r.sel0 < 16 ∧ r.sel1 < 16
    let told (f : Gang → Gang) : State := s {} f (m false false false) (List.replicate 8 0) 5
    let last (g : Gang) : Gang := { g with awaited := [(3, 0)] }
    let slack (now ev : Nat) (f : Gang → Gang) : State := { vm {} with
      now := now, parts := { evCount := ev, ovCount := if ev = 4096 then 32768 else 0 } :: List.replicate 7 {}
      gangs := gangWith { length := 10, slack := 2 } (fun g => f { g with cur := some (false, 0) }) }
    let ends (t : State) : Nat := (getGang t 0).s + (9 * 10 + ninths (getGang t 0).step - 1) / ninths (getGang t 0).step
    let late (t : State) : Prop := let g := getGang t 0
      g.live = true ∧ g.ending = none ∧ (g.arrived = false ∨ gangWaits g = true ∨ g.saving = true)
    let plain := m false false false
    ((s {} id plain [] 4).ev.bytes = [] ∧ (getGang (s {} id plain [] 4) 0).msgs[0]? = some plain ∧ 4 < plain.due) ∧
    (let g := getGang (s {} (fun g => { g with awaited := [(0, 0), (0, 1)] }) plain [] 5) 0
     (plain.who, plain.idx) ∈ g.awaited ∧ (∃ x ∈ g.awaited, x ≠ (plain.who, plain.idx)) ∧ (2, 0) ∉ g.awaited) ∧
    (one (s {} id (m false false true) [] 5) {} (m false false true) ∧ (getGang (s {} id (m false false true) [] 5) 0).msgs.any (·.thermal) = true) ∧
    (let t : State := { s {} (fun g => { g with ens := true }) plain [] 5 with alignLost := true }
     one t {} plain ∧ (getGang t 0).ens = true ∧ t.alignLost = true ∧ (getGang t 0).msgs.any (·.thermal) = false) ∧
    (one (s {} id (m true true false) [] 5) {} (m true true false) ∧ (getGang (s {} id (m true true false) [] 5) 0).msgs.any (·.err) = true) ∧
    (one (s { repl := true } (fun g => { g with replays := 2 }) (m false true false) [] 5) { repl := true } (m false true false) ∧ 2 < 3) ∧
    one (s { repl := true } (fun g => { g with replays := 3 }) (m false true false) [] 5) { repl := true } (m false true false) ∧
    (one (s {} id (m false true false) [] 5) {} (m false true false) ∧ ({} : PhRec).repl = false) ∧
    one (s { fin := true, sel1 := 15 } id plain [] 5) { fin := true, sel1 := 15 } plain ∧
    one (s { succ := [(0, false)], sel0 := 8 } id plain [] 5) { succ := [(0, false)], sel0 := 8 } plain ∧
    ((told id).ev.bytes ≠ [] ∧ (3, 0) ∉ (getGang (told id) 0).awaited ∧ (told id).ev.i < (told id).gangs.length) ∧
    (let g := getGang (told (fun g => { g with awaited := [(0, 0), (3, 0)] })) 0
     g.live = true ∧ (3, 0) ∈ g.awaited ∧ ∃ x ∈ g.awaited, x ≠ (3, 0)) ∧
    (let g := getGang (told last) 0
     g.live = true ∧ g.awaited = [(3, 0)] ∧ runRec g = some {} ∧ g.cur = some (false, 0) ∧ g.ending = none) ∧
    (∀ t ∈ [slack 11 0 id, slack 12 0 id, slack 2009 0 id, slack 2010 0 id, slack 12 4096 id, slack 2010 4096 id], let g := getGang t 0
      runRec g = some { length := 10, slack := 2 } ∧ t.ev.i < t.gangs.length ∧ g.part < t.parts.length ∧ late t ∧ g.slackPosted = false) ∧
    (evRoom (slack 12 0 id) 0 1 = true ∧ evRoom (slack 12 4096 id) 0 1 = false) ∧
    (11 < ends (slack 11 0 id) + 2 ∧ ends (slack 12 0 id) + 2 ≤ 12 ∧ 2009 < ends (slack 2009 0 id) + 1000 * 2
      ∧ ends (slack 2010 0 id) + 1000 * 2 ≤ 2010) ∧
    ¬ late (slack 12 0 (fun g => { g with ending := some (0, 0) })) := by
  and_intros <;> decide +kernel

theorem witness_StallingInstructionsIssue :
    let s := cc {}
    let ph := vm { ph := { inph := true } }
    let g := { vm { regs [0, 1] with ph := { gang := some 0 } } with gangs := gangWith {} id }
    let saved := { paged (cc (regs [0x8000, 1, 0])) with gangs := gangWith {} id }
    Executes s 0 0 ∧ isCC s = true ∧ Executes ph 0 0 ∧ (isCC ph = false ∧ inPhase ph = true) ∧ Executes g 0 0 ∧ inPhase g = false ∧
    (saveCheck g g.cur.core (srcS g 0) (srcS g 1)).1 = 0 ∧ (saveCheck g g.cur.core (srcS g 0) (srcS g 1)).2 < g.gangs.length ∧
    (saveCheck s s.cur.core (srcS s 0) (srcS s 0)).1 ≠ 0 ∧
    (Executes saved 0 0 ∧ isCC saved = true ∧ (saveCheck saved saved.cur.core (srcS saved 1) (srcS saved 0)).1 = 0
      ∧ (saveCheck saved saved.cur.core (srcS saved 1) (srcS saved 0)).2 < saved.gangs.length) :=
  ⟨executes_of rfl, rfl, executes_of rfl, ⟨rfl, rfl⟩, executes_of rfl, rfl, by decide +kernel, by decide +kernel, by decide +kernel,
    executes_of rfl, by decide +kernel⟩

theorem witness_TablesAndRoutinesLoad :
    let st (kind : StallKind) (a b : W64) : Stall := { kind := kind, a := a, b := b }
    let ph (power : Nat) (a b : W64) : State := paged { vm { main := { stall := some (st .phload a b) }, ph := { gang := some 0 }, part := some 0 } with
      gangs := gangWith {} id, parts := { power := power } :: List.replicate 7 {} }
    let kept (e : Nat) (act : Bool) : State := { vm { loads := [{ st .phload 0x5000 0 with k := e }], tp := { active := act } } with ev := { j := 2 } }
    let nested : Core := { tp := { active := true }, main := { stall := some (st .phload 0 0) }, urg := { stall := some (st .phload 1 1) } }
    let late : Core := { ({} : Core) with loads := [st .phload 0 0] }
    let first (k : Core) : Prop := k.loads = [] ∧ (k.tp.active = true → ∀ m, k.main.stall = some m → m.kind ≠ .phload)
    let excess (t : TabOf (List PhRec)) (s : State) : Prop := powerOf s 0 < bufCharge t.val ∨ powerOf s 0 < otherResv s 0 (some 0) + max (bufCharge t.val) 12
    let table (s : State) (a : Nat) := loadTable s 0 1 0 true a 1
    let mc (l : List MJob) (a b : W64) : State := { paged (cc { main := { stall := some (st .mcode a b) }, ctl := { mcode := l } }) with
      vms := [{ part := some 0 }, {}] }
    (∀ p a b, Stalled (ph p a b) ⟨false, 0⟩ .phload (st .phload a b)) ∧ (∀ l a b, Stalled (mc l a b) ⟨true, 0⟩ .mcode (st .mcode a b)) ∧
    (∀ p a b, first ((ph p a b).core ⟨false, 0⟩)) ∧ (¬ first nested ∧ ¬ first late) ∧
    (∀ act, let k := (kept 4 act).core (kept 4 act).ev.core
      hasCore (kept 4 act) (kept 4 act).ev.core = true ∧ (kept 4 act).ev.j = 2 ∧ k.loads = { st .phload 0x5000 0 with k := 4 } :: [] ∧ k.tp.active = act) ∧ phloadEarly (ph 100 1 1) ⟨false, 0⟩ 1 1 ≠ 0 ∧
    (phloadEarly (ph 100 0x5000 1) ⟨false, 0⟩ 0x5000 1 = 0 ∧ gangByHandle (ph 100 0x5000 1) ⟨false, 0⟩ 0 = some 0) ∧
    ((table (ph 100 0x5040 1) 0x5040).errs = [4] ∧ powerOf (ph 100 0 0) 0 = 800) ∧
    ((table (ph 1 0x5000 1) 0x5000).errs = [] ∧ excess (table (ph 1 0x5000 1) 0x5000) (ph 1 0x5000 1)) ∧
    ((table (ph 2 0x5000 1) 0x5000).errs = [] ∧ ¬ excess (table (ph 2 0x5000 1) 0x5000) (ph 2 0x5000 1)) ∧
    (∃ v, mcodeCheck (mc [] 0x6000 0) 0 0x6000 127 = .inl v) ∧ (∃ r, mcodeCheck (mc [] 0x6000 0) 0 0x6000 0x1800000000 = .inr r) ∧
    ((1 : W64).toNat % 64 ≠ 0 ∧ 2 ^ 40 ≤ (0x10000000000 : W64).toNat) ∧
    (let w := mc [⟨false, [0, 0], [0]⟩] 0x6000 0
     (w.core ⟨true, 0⟩).ctl.mcode.filter (fun j => j.urg = (w.core ⟨true, 0⟩).tp.active) = [⟨false, [0, 0], [0]⟩] ∧ w.ev.i ∈ [0]
       ∧ (w.core ⟨false, w.ev.i⟩).ph.inph = false ∧ hasCore w ⟨false, w.ev.i⟩ = true) ∧
    ((mc [⟨false, [0, 0], []⟩] 0x6000 0).core ⟨true, 0⟩).ctl.mcode = [⟨false, [0, 0], []⟩] :=
  ⟨fun _ _ _ => ⟨rfl, rfl, rfl, rfl, rfl⟩, fun _ _ _ => ⟨rfl, rfl, rfl, rfl, rfl⟩, fun _ _ _ => ⟨rfl, fun h => Bool.false_ne_true.elim h⟩,
    ⟨fun h => h.2 rfl _ rfl rfl, fun h => absurd h.1 (by decide)⟩, fun _ => ⟨rfl, rfl, rfl, rfl⟩, by decide +kernel, by decide +kernel,
    by decide +kernel, by decide +kernel, by decide +kernel, ⟨_, rfl⟩, ⟨_, rfl⟩, by decide +kernel⟩

/-! ### Witnesses: tasks -/

/-- The task record at 0x4000, and a launch of it that is next to be placed. -/
def taskBytes : List W8 := memRead tables 0x4000 128

def launch1 : Launch := { id := 0, part := 0, rcd := taskBytes, prio := 0, det := false, num := none, task0 := 1, g := some 1, left := 2 }

theorem witness_LaunchesAreAccepted :
    let st (kind : StallKind) (a b : W64) : Stall := { kind := kind, a := a, b := b }
    let acc : C1Acc := { k := 0, serial := 0, kind := .load 8, va := 0, pa := 0, pk := 0 }
    let s (kind : StallKind) (a b : W64) : State := { paged (cc { main := { stall := some (st kind a b) } }) with
      vms := [{ part := some 0 }], parts := { stores := 3 } :: List.replicate 7 {} }
    let busy (kind : StallKind) : State := cc { main := { stall := some (st kind 0 0) }, ctl := { c1 := [acc] } }
    let ind : Launch := { launch1 with rcd := (taskBytes.set 48 4).set 49 0x40, g := none, left := 0 }
    let lost : Launch := { launch1 with rcd := (taskBytes.set 51 0x10), g := none, left := 0 }
    let q : State := { paged (cc {}) with launches := [ind] }
    let full (l : Launch) : State := { paged (cc {}) with launches := [l], parts := { evCount := 4096, ovCount := 32768 } :: List.replicate 7 {} }
    (∀ kind a b, Stalled (s kind a b) ⟨true, 0⟩ kind (st kind a b) ∧ coreDrained ((s kind a b).core ⟨true, 0⟩) ⟨true, 0⟩ = true
      ∧ partOf (s kind a b) ⟨true, 0⟩ < (s kind a b).parts.length) ∧
    (∀ kind, Stalled (busy kind) ⟨true, 0⟩ kind (st kind 0 0) ∧ coreDrained ((busy kind).core ⟨true, 0⟩) ⟨true, 0⟩ = false) ∧
    (32 ≤ (32 : W64).toNat ∧ (31 : W64).toNat < 32 ∧ (1 : W64).toNat % 64 ≠ 0 ∧ 256 ≤ (256 : W64).toNat ∧ (255 : W64).toNat < 256) ∧
    (vread (s .launch 0x10000000 31) 0 0x10000000 128 = .fault 1 0x10000000 ∧ vread (s .restctx 0x10000000 1) 0 0x10000000 64 = .fault 1 0x10000000) ∧ vread (s .launch 0x4000 31) 0 0x4000 128 = .bytes taskBytes ∧
    badTask taskBytes = false ∧ placeStatus (s .launch 0 0) 0 1 false false 1 = 0 ∧ placeStatus (s .launch 0 0) 0 2 false false 1 = 3 ∧
    badTask (memRead tables 0x7000 128) = true ∧ vread (s .restctx 0x7000 255) 0 0x7000 64 = .bytes (memRead tables 0x7000 64) ∧
    (fieldAt (memRead tables 0x7000 64) 0 1 = 1 ∧ bitOf (fieldAt (memRead tables 0x7000 64) 1 1) 1 = true ∧ placeStatus (s .restctx 0 0) 0 1 true false 1 = 0) ∧
    (q.launches[q.ev.i]? = some ind ∧ countReady q ind = true ∧ vread q 0 (fieldAt ind.rcd 48 8) 4 = .bytes [1, 0, 0, 0]
      ∧ leNat [1, 0, 0, 0] ≠ 0 ∧ tidClash q 0 1 (leNat [1, 0, 0, 0]) (some 0) = false) ∧
    countReady q launch1 = false ∧
    (evRoom q 0 (1 + launchFires q { ind with left := 1 }) = true ∧ ind.part < q.parts.length) ∧
    (vread (full lost) 0 (fieldAt lost.rcd 48 8) 4 = .fault 1 0x10000000 ∧ countReady (full lost) lost = true
      ∧ evRoom (full lost) 0 (1 + launchFires (full lost) { lost with left := 1 }) = false) ∧
    vread { q with syspoison := [0x4004 / 64] } 0 0x4004 4 = .poison 0x4000 ∧
    (let z : Launch := { ind with rcd := ind.rcd.set 48 8 }
     vread q 0 (fieldAt z.rcd 48 8) 4 = .bytes [4, 0, 0, 0] ∧ vread q 0 0x4010 4 = .bytes [0, 0, 0, 0]) ∧
    (let l : State := { q with launches := [ind, { launch1 with id := 1 }] }
     l.launches[l.ev.i]? = some ind ∧ tidClash l 0 1 1 (some ind.id) = true) := by
  refine ⟨fun _ _ _ => ⟨⟨rfl, rfl, rfl, rfl, rfl⟩, rfl, Nat.zero_lt_succ _⟩, fun _ => ⟨⟨rfl, rfl, rfl, rfl, rfl⟩, rfl⟩, by decide, ?_⟩
  and_intros <;> decide +kernel

theorem witness_TasksArePlacedAndStart :
    let s (l : Launch) (p : Option Nat) : State := { paged (vm { part := p }) with launches := [l] }
    let t (g : Gang) (l : Launch) (now : Nat) (told : List (Nat × Nat × Nat × Nat × Nat)) : State :=
      { vm {} with launches := [l], gangs := [g], now := now, notices := told }
    let g : Gang := { cores := [0] }
    let ens : Gang := { g with ens := true, ensid := 4, d := 7 }
    let two : Launch := { launch1 with rcd := (taskBytes.set 80 2).set 72 1 }
    let bad : Launch := { launch1 with rcd := taskBytes.set 19 0x10 }
    let starts (s : State) (g : Gang) (l : Launch) : Prop := s.ev.bytes = [] ∧ getGang s s.ev.i = g ∧ s.ev.i < s.gangs.length
      ∧ getLaunch s g.launch = some l ∧ g.live = true ∧ g.running = false ∧ g.ending = none ∧ g.cores.Nodup ∧ ∀ n ∈ g.cores, n < s.vms.length
    dissolving (s launch1 none) (s launch1 none).ev.i = false ∧ queueOf (s { launch1 with g := none } none) 0 = { launch1 with g := none } :: [] ∧
    (queueOf (s launch1 none) 0 = launch1 :: [] ∧ launch1.g ≠ none ∧ decideTask (s launch1 none) launch1 = .wait) ∧
    (decideTask (s launch1 (some 0)) launch1 = .place [0] ∧ launch1.area = none ∧ [0].Nodup) ∧
    (queueOf (s bad (some 0)) 0 = bad :: [] ∧ decideTask (s bad (some 0)) bad = .fail 2 0 ∧ bad.part < (s bad (some 0)).parts.length
      ∧ evRoom (s bad (some 0)) 0 (1 + launchFires (s bad (some 0)) bad) = true
      ∧ evRoom { s bad (some 0) with parts := { evCount := 4096, ovCount := 32768 } :: List.replicate 7 {} } 0 (1 + launchFires (s bad (some 0)) bad) = false) ∧
    (starts (t g launch1 5 []) g launch1 ∧ g.ens = false ∧ launch1.area = none) ∧
    starts (t g { launch1 with area := some 0x7000 } 5 []) g { launch1 with area := some 0x7000 } ∧
    (starts (t ens two 6 [(0, 4, 0, 1, 0)]) ens two ∧ ensembleStart (t ens two 6 [(0, 4, 0, 1, 0)]) ens two = some 7
      ∧ ensembleStart (t ens two 7 []) ens two = none) ∧
    (starts (t ens two 1007 []) ens two ∧ ensembleFails (t ens two 1007 []) ens two = true ∧ ensembleFails (t ens two 1006 []) ens two = false) ∧
    getLaunch (t { g with running := true } launch1 5 []) 0 = some launch1 ∧
    ({ vm {} with ev := { bytes := [0] } } : State).ev.bytes ≠ [] ∧
    (let w (n : Nat) : State := { vm {} with launches := [{ launch1 with waitSince := some 0 }], now := n }
     (w 172800).launches[(w 172800).ev.i]? = some { launch1 with waitSince := some 0 } ∧ 0 + 172800 ≤ (w 172800).now ∧ (w 172799).now < 0 + 172800) := by
  and_intros <;> decide +kernel

theorem witness_TasksEnd :
    let s (g : Gang) (k : Core) : State := { paged (vm k) with launches := [launch1], gangs := [g] }
    let g : Gang := { cores := [0], running := true }
    let meets (s : State) (g : Gang) : Prop := getGang s s.ev.i = g ∧ s.ev.i < s.gangs.length ∧ g.cores.Nodup ∧ ∀ n ∈ g.cores, n < s.vms.length
    let opened : List Win := { opn := true, ops := [{ num := 0, kind := .close }] } :: List.replicate 3 {}
    let busyTl : List TL := { next := 1 } :: List.replicate 15 {}
    let e (n : Nat) : Gang := { g with ending := some (2, 1), stage := n }
    let sv : Gang := { g with save := some (0, false, none), nextRec := some (false, 0), saving := true }
    (meets (s { g with live := false } {}) { g with live := false }) ∧
    (meets (s g { run := .running }) g ∧ g.live = true ∧ g.ending = none ∧ (∃ n ∈ g.cores, ((s g { run := .running }).core ⟨false, n⟩).run ≠ .halted)) ∧
    (meets (s (e 0) {}) (e 0) ∧ (e 0).save = none ∧ (e 0).ending = some (2, 1) ∧ (e 0).stage = 0) ∧
    (meets (s g { run := .halted, main := { pends := [{ slot := 0, due := 9 }] } }) g
      ∧ ∃ n ∈ g.cores, ((s g { run := .halted, main := { pends := [{ slot := 0, due := 9 }] } }).core ⟨false, n⟩).main.pends ≠ []) ∧
    (meets (s g { run := .halted }) g ∧ g.running = true ∧ g.bufA = none ∧ ∀ n ∈ g.cores,
      let k := (s g { run := .halted }).core ⟨false, n⟩
      k.run = .halted ∧ k.main.pends = [] ∧ k.tp.active = false ∧ k.tp.shadow = []) ∧
    (meets (s (e 1) { eng := { tl := busyTl } }) (e 1) ∧ gangQuiet (s (e 1) { eng := { tl := busyTl } }) (e 1) = false
      ∧ ∀ n ∈ g.cores, anyStopped ((s (e 1) { eng := { tl := busyTl } }).core ⟨false, n⟩) = false) ∧
    (gangQuiet (s (e 1) {}) (e 1) = true ∧ ((2, 1) : Nat × Nat) ≠ (6, 0xFF) ∧ ∀ n ∈ g.cores, anyStopped ((s (e 1) {}).core ⟨false, n⟩) = false) ∧
    (let f : Gang := { e 1 with ending := some (6, 0xFF) }
     meets (s f {}) f ∧ gangQuiet (s f {}) f = true) ∧
    (∃ n ∈ g.cores, ∃ w ∈ ((s (e 2) { eng := { wins := opened } }).core ⟨false, n⟩).eng.wins, w.ops ≠ []) ∧
    (let x := s (e 2) {}
     (∀ n ∈ g.cores, ∀ w ∈ (x.core ⟨false, n⟩).eng.wins, w.ops = []) ∧ getLaunch x g.launch = some launch1 ∧ 1 < launch1.left ∧ launch1.part < x.parts.length
       ∧ evRoom x launch1.part (1 + launchFires x launch1) = true
       ∧ evRoom { x with parts := { evCount := 4096, ovCount := 32768 } :: List.replicate 7 {} } launch1.part (1 + launchFires x launch1) = false) ∧
    (meets (s sv {}) sv ∧ saveReady (s sv {}) sv = true ∧ sv.ending = none ∧ vwritable (s sv {}) sv.part 0 (areaSize false 1) = true) ∧
    (saveReady (s { sv with saving := false } {}) { sv with saving := false } = false) ∧
    (let f : Gang := { sv with save := some (0x10000000, false, none) }
     saveReady (s f {}) f = true ∧ vwritable (s f {}) f.part 0x10000000 (areaSize false 1) = false) := by
  and_intros <;> decide +kernel

/-! ### Witnesses: service -/

/-- A chip with a running command of the mailbox, its partition and arguments, the power-controller image good, and these
partitions. -/
def command1 (code part : W8) (arg0 arg1 : W64) (parts : List Part) : State :=
  { vm { part := some 0 } with
    parts := parts ++ List.replicate (8 - parts.length) {}
    sys := [(0x8000, 1), (0x8024, 1), (0x9000, 1), (0x9001, 0), (0x9002, 0x82)]
    svc := { busy := true, code := code, part := part, arg0 := arg0, arg1 := arg1, ucodeOk := true, bootst := 1 } }

theorem witness_ServiceCommands :
    let runs (s : State) (code : Nat) : Prop := s.svc.busy = true ∧ s.svc.code.toNat = code ∧ s.svc.done = none
    let old : Part := { formed := true }
    let big : Part := { formed := true, power := 1600 }
    let s (code part : W8) (parts : List Part) : State := command1 code part 0x8000 0 parts
    let bs := memRead (s 1 0 []).sys 0x8000 64
    let pair : List Part := [{ formed := true, chans := { opn := true, prod := true, peer := some (1, 15) } :: List.replicate 15 {} },
      { formed := true, chans := List.replicate 15 {} ++ [{ opn := true, cons := true, peer := some (0, 0) }] }]
    let shut : List Part := [{ formed := true, chans := [{ opn := false }] }]
    let busy : Core := { eng := { tl := { next := 1 } :: List.replicate 15 {} } }
    let going : State := { s 2 0 [old] with ccs := [busy] }
    let staged (b : Option Bool) : State := { vm {} with svc := { busy := true, code := 10, staged := b } }
    let ch (code : W8) : State := command1 code 0 0x1F00 0 pair
    let live : State := { s 2 0 [old] with gangs := [{}] }
    let grp (p : Option Nat) : State := { command1 5 0 4095 0x9000 [old] with groups := [(4095, { part := p })], sys := [(0x9000, 1)] }
    let run : State := { s 6 0 [old] with ccs := [{ run := .running }] }
    runs (s 1 8 []) 1 ∧ 8 ≤ (s 1 8 []).svc.part.toNat ∧ runs (s 1 7 []) 1 ∧ (s 1 7 []).svc.part.toNat < 8 ∧ (getPart (s 1 0 [old]) 0).formed = true ∧
    ((getPart (s 1 7 []) 7).formed = false ∧ (s 1 7 []).svc.arg0.toNat + 64 ≤ 2 ^ 39 ∧ badDesc bs = false ∧ badDesc (memRead [] 0x8000 64) = true) ∧
    (∃ o ∈ (s 1 7 [{ old with cores := 1 }]).parts.filter (·.formed), o.cores &&& (descPart bs).cores ≠ 0) ∧
    (∀ ps ∈ [[], [big]], (s 1 7 ps).svc.ucodeOk = true ∧ ¬ ∃ o ∈ (s 1 7 ps).parts.filter (·.formed),
      o.cores &&& (descPart bs).cores ≠ 0 ∨ o.stores &&& (descPart bs).stores ≠ 0 ∨ o.ports &&& (descPart bs).ports ≠ 0) ∧
    ((([] : List Part).foldl (fun a o => a + o.power) (descPart bs).power) ≤ 1600 ∧ 1600 < [big].foldl (fun a o => a + o.power) (descPart bs).power) ∧
    (let r := { State.reset with svc := (s 1 7 []).svc, sys := (s 1 7 []).sys }
     runs r 1 ∧ r.parts.length = 8 ∧ r.vms.length = 128 ∧ r.ccs.length = 8 ∧ (getPart r 7).formed = false) ∧
    (runs live 2 ∧ (getPart live 0).formed = true ∧ ∃ i < live.gangs.length, (getGang live i).live = true ∧ (getGang live i).part = 0) ∧
    (runs (s 2 0 [old]) 2 ∧ (∀ i < (s 2 0 [old]).gangs.length, (getGang (s 2 0 [old]) i).live = true → (getGang (s 2 0 [old]) i).part ≠ 0)
      ∧ (∀ l ∈ (s 2 0 [old]).launches, l.part ≠ 0) ∧ ccQuiet (stopCc (s 2 0 [old]) 0) 0 = true) ∧
    (runs going 2 ∧ (getPart going 0).formed = true ∧ ccQuiet (stopCc going 0) 0 = false ∧ evRoom (stopCc going 0) 0 1 = true ∧ hasCore going ⟨true, 0⟩ = true) ∧
    (runs (ch 3) 3 ∧ (0x1F00 / 16 % 8, 0x1F00 % 16) = ((0, 0) : Nat × Nat) ∧ (0x1F00 / 4096 % 8, 0x1F00 / 256 % 16) = ((1, 15) : Nat × Nat)
      ∧ (getPart (ch 3) 0).formed = true ∧ 15 < (getPart (ch 3) 1).chans.length ∧ (getPart (s 3 0 []) 0).formed = false) ∧
    (runs (ch 4) 4 ∧ (getChan (ch 4) 0 0).opn = true ∧ (getChan (ch 4) 0 0).peer = some (1, 15) ∧ (getChan (ch 4) 0 0).prod = true
      ∧ 15 < (getPart (ch 4) 1).chans.length ∧ (getChan (command1 4 0 0x1F00 0 shut) 0 0).opn = false
      ∧ (getChan (s 4 0 [{ formed := true }]) 0 0).peer ≠ some (0, 0) ∧ (getChan (s 4 0 [{ formed := true }]) 0 0).prod = false) ∧
    (let t := grp none
     let es := (List.range 1).map (fun i => leNat (memRead t.sys (0x9000 + 1 + 4 * i) 4))
     runs t 5 ∧ (getPart t 0).formed = true ∧ (memGet t.sys 0x9000).toNat = 1 ∧ 0x9000 + 1 + 4 * 1 ≤ 2 ^ 39 ∧ (∀ e ∈ es, e < 2 ^ 16) ∧ es.Nodup
       ∧ (∀ e ∈ es, e % 512 = t.chip → (t.core ⟨false, e / 512 % 128⟩).part = some 0) ∧ (getGroup t 4095).part = none) ∧
    ((getGroup (grp (some 1)) 4095).part = some 1 ∧ (getGroup (grp (some 0)) 4095).part = some 0) ∧
    (runs run 6 ∧ (run.core ⟨true, 0⟩).run = .running ∧ (getPart run 0).thermal = false) ∧
    ((((s 6 0 [old]).core ⟨true, 0⟩).run ≠ .running ∧ hasCore (s 6 0 [old]) ⟨true, 0⟩ = true) ∧ runs (s 7 0 []) 7) ∧
    (runs (s 8 0 []) 8 ∧ (s 8 0 []).svc.spareCc.getD 0 0 ≠ 0 ∧ ({ (s 8 0 []).svc with spareCc := [0, 0] } : Service).spareCc.getD 0 0 = 0) ∧
    (runs (s 9 0 []) 9 ∧ (s 9 0 []).svc.arg0.toNat + (s 9 0 []).svc.arg1.toNat ≤ 2 ^ 39 ∧ (s 9 0 []).svc.rollback ≤ (s 9 0 []).ev.i) ∧
    (runs (staged none) 10 ∧ (staged none).svc.staged = none ∧ runs (staged (some true)) 10 ∧ (staged (some true)).svc.staged = some true
      ∧ 2 ^ 39 < (2 ^ 39 : Nat) + 1) ∧
    ((getPart (s 6 0 [{ old with thermal := true }]) 0).thermal = true ∧ ({ vm {} with svc := { done := some 3 } } : State).svc.done = some 3 ∧ (vm {}).svc.busy = false) ∧
    (∀ a n, SysClean (s 1 7 []) a n) := by
  and_intros <;> first | decide +kernel | exact fun a n => sysClean_of ⟨rfl, rfl, rfl⟩ a n

theorem witness_HostLink :
    let h (v : W64) (n : Nat) (f : Bool) : State := { paged (vm {}) with
      parts := { formed := f } :: List.replicate 7 {}, ev := { v := v, bytes := List.replicate n 1, j := n } }
    let held : State := { vm {} with parts := { formed := true } :: List.replicate 7 {}, svc := { allot := 0x80 :: List.replicate 2047 0 }, ev := { v := 1 } }
    let irq (acc : List C1Acc) (timer : List (Option Nat)) : State := { cc { main := { stall := some { kind := .hostirq, a := 7 } }, ctl := { c1 := acc } } with
      svc := { timer := timer } }
    let acc : C1Acc := { k := 0, serial := 0, kind := .load 8, va := 0, pa := 0, pk := 0 }
    let t (pend : Bool) (now : Nat) : State := { vm {} with svc := { timer := some 5 :: List.replicate 63 none, pend := pend :: List.replicate 63 false }, now := now }
    (∀ i ∈ [0x00, 0x08, 0x10, 0x18, 0x3008, 0x3010], ({ vm {} with ev := { i := i } } : State).ev.i = i) ∧ 0x20 ∉ [0x00, 0x08, 0x10, 0x18, 0x3008, 0x3010] ∧
    ((held.svc.allot.getD 0 0).getLsbD 7 = true ∧ (getPart held ((held.svc.allot.getD 0 0).toNat % 8)).formed = true
      ∧ held.ev.v.extractLsb' 0 8 &&& 0x87 ≠ held.svc.allot.getD 0 0 ∧ ¬ ((vm {}).svc.allot.getD 0 0).getLsbD 7 = true) ∧
    (∀ b ∈ ([0, 1] : List Nat), ({ vm {} with svc := { bootst := BitVec.ofNat 64 b, busy := true } } : State).svc.bootst.getLsbD 0 = decide (b = 1)) ∧
    ((getPart (h 0 4 false) 0).formed = false ∧ 2 ^ 40 < 2 ^ 40 + 4) ∧
    (let s := h 0x403C 4 true
     (getPart s 0).formed = true ∧ 0 < s.ev.bytes.length ∧ 0x403C % 64 + s.ev.bytes.length ≤ 64 ∧ s.ev.v.toNat + s.ev.bytes.length ≤ 2 ^ 40
       ∧ xlateWalk s 0 0x403C false true = .ok 0x403C 0x1D ∧ xlateWalk s 0 0x403C true false = .ok 0x403C 0x1D
       ∧ xlateWalk s 0 (64 * (0x403C / 64)) true false = .ok (64 * (0x403C / 64)) 0x1D) ∧
    SysClean (h 0x403C 4 true) 0x403C 4 ∧ (0x403C / 64 ∉ (h 0x403C 4 true).syspoison ∧ 0x403C / 64 ∈ ({ h 0x403C 4 true with syspoison := [0x100] } : State).syspoison) ∧
    (∀ w, xlateWalk (h 0x10000000 4 true) 0 0x10000000 (!w) w = .fault 1) ∧
    (∀ l m, Stalled (irq l m) ⟨true, 0⟩ .hostirq { kind := .hostirq, a := 7 }) ∧
    (coreDrained ((irq [acc] []).core ⟨true, 0⟩) ⟨true, 0⟩ = false ∧ coreDrained ((irq [] []).core ⟨true, 0⟩) ⟨true, 0⟩ = true) ∧
    ((irq [] []).svc.timer.getD 7 none = none ∧ (irq [] (List.replicate 8 (some 1))).svc.timer.getD 7 none ≠ none) ∧
    ((t true 5).svc.timer.getD (t true 5).ev.i none = some 5 ∧ (t true 4).now < 5 ∧ 5 ≤ (t true 5).now ∧ (t true 5).svc.pend.getD 0 false = true
      ∧ (t false 5).svc.pend.getD 0 false = false ∧ (vm {}).svc.timer.getD 0 none = none) ∧
    (({ vm {} with ev := { j := 1 } } : State).ev.j = 1 ∧ (vm {}).ev.j ≠ 1 ∧ 63 < (vm {}).svc.masked.length) := by
  and_intros <;> first | decide +kernel | exact sysClean_of ⟨rfl, rfl, rfl⟩ _ _ | exact fun _ _ => ⟨rfl, rfl, rfl, rfl, rfl⟩

theorem witness_Repairs :
    let s (a b : W64) (k : Core) (v : Service) (c1 : List C1Acc) : State := { cc { main := { stall := some { kind := .repair, a := a, b := b } }, ctl := { c1 := c1 } } with
      vms := [k], svc := { v with allot := 0x80 :: List.replicate 2047 0 }, parts := { ports := 1 } :: List.replicate 7 {} }
    let acc : C1Acc := { k := 0, serial := 0, kind := .load 8, va := 0, pa := 0, pk := 0 }
    let mine : Core := { part := some 0 }
    let f : Flit := { kind := .data, dstChip := 1 }
    let x := s 0 0 mine {} []
    (∀ a b k v l, Stalled (s a b k v l) ⟨true, 0⟩ .repair { kind := .repair, a := a, b := b }) ∧
    (repairReserved 0x10 = true ∧ 4 < 5 % 16 ∧ (∀ a ∈ [0, 1, 2, 3, 4], repairReserved a = false ∧ a % 16 = a)) ∧
    ((x.core ⟨false, 0⟩).part = some (partOf x ⟨true, 0⟩) ∧ (x.core ⟨false, 0⟩).ph.gang = none ∧ x.svc.spares.getD 0 0 ≠ 0 ∧ x.ev.i ≠ 1
      ∧ (x.core ⟨false, 0⟩).near.spared.length < 4) ∧
    (({} : Core).part ≠ some 0 ∧ ({ mine with ph := { gang := some 0 } } : Core).ph.gang ≠ none ∧ ({ spares := [0, 0] } : Service).spares.getD 0 0 = 0) ∧
    (({ x with ev := { x.ev with i := 1 } } : State).ev.i = 1 ∧ 4 ≤ ([1, 2, 3, 4] : List Nat).length
      ∧ repairReserved (63 * 2 ^ 16 + 1) = false ∧ (63 * 2 ^ 16 + 1) % 16 = 1) ∧
    (36 ≤ (36 * 2 ^ 8 + 2) / 2 ^ 8 % 2 ^ 6 ∧ repairReserved (36 * 2 ^ 8 + 2) = false ∧ repairReserved (5 * 2 ^ 16 + 2) = false ∧ 4 < (5 * 2 ^ 16 + 2) / 2 ^ 16 % 8
      ∧ crosses x f = true ∧ (getPart x 0).ports.getLsbD 0 = true ∧ (getPart x 0).ports.getLsbD 35 = false
      ∧ (getPort x 0).spareUsed = false ∧ 0 < x.ports.length ∧ ({ spareUsed := true } : Port).spareUsed = true) ∧
    (2 ^ 18 % 2 ^ 18 = 0 ∧ 1 % 2 ^ 18 ≠ 0 ∧ 2 ^ 28 - 2 ^ 18 < 2 ^ 39 ∧ (x.svc.allot.getD ((2 ^ 28 - 2 ^ 18) / 2 ^ 28) 0).toNat = 128 + partOf x ⟨true, 0⟩
      ∧ (x.svc.allot.getD (2 ^ 28 / 2 ^ 28) 0).toNat ≠ 128 + partOf x ⟨true, 0⟩) ∧
    (1 ∉ x.svc.retired ∧ 1 ∈ ({ retired := [1] } : Service).retired ∧ x.svc.retired.length < 4096 ∧ 4096 ≤ (List.range 4096).length) ∧
    (coreDrained ((s 4 0 mine {} [acc]).core ⟨true, 0⟩) ⟨true, 0⟩ = false ∧ coreDrained (x.core ⟨true, 0⟩) ⟨true, 0⟩ = true
      ∧ farBusy { x with ratoms := [{ f with virt := true }] } 0 = true ∧ farBusy x 0 = false) := by
  refine ⟨fun _ _ _ _ _ => ⟨rfl, rfl, rfl, rfl, rfl⟩, ?_⟩
  and_intros <;> decide +kernel

theorem witness_ResetsAndTheChip :
    let s (bytes : List W8) (v : Service) : State := { vm { part := some 0 } with ev := { bytes := bytes }, svc := v }
    let sound (s : State) (slot : Nat) : Prop :=
      (s.ev.bytes.getD slot 0).toNat % 4 = 0 ∧ s.svc.rollback ≤ (if slot = 0 then s.svc.slotA else s.svc.slotB)
    sound (s [] {}) 0 ∧ (¬ sound (s [1] {}) 0 ∧ sound (s [1] {}) 1) ∧ (¬ sound (s [1, 2] {}) 0 ∧ ¬ sound (s [1, 2] {}) 1) ∧
    (¬ sound (s [] { rollback := 2 }) 0 ∧ hasCore (s [] {}) (s [] {}).ev.core = true
      ∧ (({ fresh := some false } : Service).fresh = some false ∧ ({} : Service).fresh ≠ some false)
      ∧ (∀ g ∈ ([{ live := false }, {}, { cur := some (false, 0) }, { cur := some (false, 0), ens := true }] : List Gang),
          (getGang { s [] {} with gangs := [g] } 0) = g)
      ∧ ∀ t ∈ [false, true], ∀ p, ((s [] {}).core ⟨false, 0⟩).part = some p →
        (getPart { s [] {} with parts := List.replicate 8 { thermal := t } } 0).thermal = t) := by
  refine ⟨?_, ?_, ?_, by decide +kernel, by decide +kernel, by decide +kernel, by decide +kernel, ?_⟩
  · decide +kernel
  · decide +kernel
  · decide +kernel
  · intro t _ p _
    rfl

/-! ### Witnesses: landing, traps and bundles -/

/-- An outcome is a next state of which this holds. -/
def nextWith (r : Host.Outcome State Fault Refusal) (f : State → Bool) : Bool :=
  match r with
  | .next t => f t
  | _ => false

theorem exists_next {r : Host.Outcome State Fault Refusal} {f : State → Bool} (h : nextWith r f = true) : ∃ t, r = .next t ∧ f t = true := by
  cases r with
  | next t => exact ⟨t, rfl, h⟩
  | fault _ => exact nomatch h
  | refused _ => exact nomatch h

/-- A core with these results due at once. -/
def due (l : List Pend) : Core := { main := { pends := l } }

/-- A result with this destination and value, in the latch line of its slot. -/
def res (d : Dst) (v : Val) (l : Option Nat) : Pend := { slot := 0, due := 0, dst := d, val := v, latch := l }

theorem witness_ResultsLand :
    let plain (k : Core) (p : Pend) : Bool :=
      decide (p.due ≤ k.clk.arch ∧ p.late = false ∧ p.poison = none ∧ p.swtrap = none ∧ trappingFlags p.flags p.ten = 0)
    let one (p : Pend) : Bool := decide (hasCore (vm (due [p])) (vm (due [p])).ev.core = true ∧ ((vm (due [p])).core ⟨false, 0⟩).ctx.pends = [p]
      ∧ shadowDue (due [p]) = [] ∧ plain (due [p]) p = true ∧ p.effs = [])
    let a (d : Dst) (v : Val) : Pend := res d v (some 5)
    let sh : Core := { tp := { resumed := some 0, shadow := [a (.s 31) (.w 9)] } }
    let e (x : Eff) : Pend := { slot := 0, due := 0, effs := [x] }
    ((∀ d ∈ [Dst.none, .s 0, .g 0, .mask false 0, .mask true 0, .s 31, .k 15, .mp 7, .a false 15, .a true 0, .g 1, .g 7], one (a d (.w 1)))
      ∧ one (a (.mask false 7) (.m 5)) ∧ one (a (.mask true 1) (.m 5)) ∧ one (a (.vec false 31 3) (.v [1])) ∧ one (a (.vec true 0 3) (.v [1]))
      ∧ one (a (.pair false 30 1) (.p [1] [2])) ∧ one (res (.s 1) (.w 1) none)) ∧
    (let p := a (.s 1) (.w 1)
     let q := res (.s 1) (.w 2) (some 0)
     let late := { q with serial := 1 }
     (due [p, q]).ctx.pends = [p, q] ∧ p.serial ≤ q.serial ∧ (due [late, p]).ctx.pends = [late, p] ∧ p.serial < late.serial
       ∧ shadowDue (due [p, q]) = [] ∧ plain (due [p, q]) p ∧ plain (due [p, q]) q ∧ q.latch ≠ some 5) ∧
    (sh.tp.active = false ∧ sh.tp.resumed ≠ none ∧ sh.tp.shadow = [a (.s 31) (.w 9)] ∧ pendsDue sh = [] ∧ plain sh (a (.s 31) (.w 9))) ∧
    (∀ x ∈ [Eff.fmt 1, .clmask 3, .sel false 7, .sel true 0, .csr 0 1, .csr 1 1, .csr 2 0xFF, .skey 3 1, .sctr 0 1, .bind 3 (some .evq), .clrQempty 1,
        .csr 0x11 4, .csr 0x15 4, .csr 0x16 4, .pred 1, .clrErr 1, .clrFull],
      (due [e x]).ctx.pends = [e x] ∧ shadowDue (due [e x]) = [] ∧ plain (due [e x]) (e x) ∧ (e x).dst = .none ∧ (e x).latch = none
        ∧ (e x).flags = 0 ∧ (e x).istat = 0) := by
  and_intros <;> decide +kernel

/-- A core with a handler at 8 and code of 64 bytes. -/
def handled : Core := { codelen := 64, tr := { tvec := 8 } }

theorem witness_TrapsAreTaken :
    let ok (k : Core) (c : CoreRef) : Prop :=
      let v := tvecAt k k.clk.arch
      v ≠ 0 ∧ v.toNat % 4 = 0 ∧ v.toNat < 2 ^ 48 ∧ (c.cc = true ∨ v.toNat < k.codelen)
    let c : CoreRef := ⟨false, 0⟩
    let s : State := { vm {} with parts := List.replicate 8 {} }
    let live (k : Core) : State := { vm { k with ph := { gang := some 0 } } with gangs := [{}] }
    (hasCore (vm handled) c = true ∧ handled.tp.active = false ∧ ok handled c) ∧
    (ok { tr := { tvec := 0xFFFFFFFFFFFC } } ⟨true, 0⟩ ∧ ¬ ok { tr := { tvec := 0x1000000000000 } } ⟨true, 0⟩ ∧ ¬ ok { handled with codelen := 8 } c) ∧
    (({ handled with tp := { active := true } } : Core).tp.active = true ∧ ({} : Core).tp.active = false ∧ ¬ ok {} c) ∧
    (hasCore s c = true ∧ partOf s c < s.parts.length ∧ handled.tp.resumed = none) ∧
    ((vm { ph := { inph := true } }).core c).ph.inph = true ∧
    (((live {}).core c).ph.inph = false ∧ ((live {}).core c).ph.gang = some 0 ∧ 0 < (live {}).gangs.length ∧ (getGang (live {}) 0).ending = none) := by
  decide +kernel

theorem witness_TrapInstructions :
    let c : CoreRef := ⟨false, 0⟩
    let mine (s : State) (x : CoreRef) : Prop := hasCore s x = true ∧ partOf s x = partOf s s.cur.core ∧ (x.cc = true ∨ (s.core x).part ≠ none)
    let issue (k : Core) : State := { vms := [{ regs [0, 1] with part := some 0 }, { k with part := some 0 }, {}], ccs := [{}], parts := List.replicate 8 {} }
    let self : State := vm { regs [0] with part := some 0, run := .running }
    let other (s : State) : CoreRef := ⟨(srcS s 2).getLsbD 8, (srcS s 2).toNat % 256⟩
    let swt (k : Core) (w : Option W16) (ten : BitVec 7) : Core := { k with main := { pends := [{ slot := 0, due := 0, flags := 1, ten := ten, swtrap := w }] } }
    let urg (ts tpc : W64) : State := vm { tp := { active := true }, tr := { tstate := ts, tpc := tpc }, ph := { gang := some 0 } }
    let pre (k : Core) : State := vm { k with tp := { k.tp with preempt := some (5, 0) }, run := .halted }
    (Executes (issue {}) 0 0 ∧ partOf (issue {}) c < (issue {}).parts.length ∧ ({} : Core).clk.cyc ≠ ({ clk := { cyc := 1 } } : Core).clk.cyc
      ∧ ({ ctl := { fcst := some 1 } } : Core).ctl.fcst = some 1 ∧ ¬ mine (issue {}) ⟨false, 2⟩ ∧ ¬ mine (issue {}) ⟨true, 1⟩) ∧
    (let k : Core := { tp := { preempt := some (0, 0) } }
     mine (issue k) (other (issue k)) ∧ ((issue k).core (other (issue k))).tp.preempt ≠ none) ∧
    (mine (issue {}) (other (issue {})) ∧ ((issue {}).core (other (issue {}))).tp.preempt = none ∧ ((issue {}).core (other (issue {}))).run = .idle) ∧
    (let k : Core := { run := .running }
     mine (issue k) (other (issue k)) ∧ ((issue k).core (other (issue k))).run = .running ∧ other (issue k) ≠ (issue k).cur.core) ∧
    (mine self c ∧ (self.core c).tp.preempt = none ∧ (self.core c).run = .running ∧ (⟨(srcS self 1).getLsbD 8, (srcS self 1).toNat % 256⟩ : CoreRef) = self.cur.core) ∧
    (∀ k ∈ [swt {} (some 5) 0, swt handled none 1], k.ctx.pends.length = 1 ∧ shadowDue k = [] ∧ ∀ p ∈ k.ctx.pends, p.due ≤ k.clk.arch ∧ p.late = false
      ∧ p.poison = none ∧ ended (vm k) c = false ∧ (p.swtrap = some 5 ∨ (p.swtrap = none ∧ trappingFlags p.flags p.ten ≠ 0 ∧ k.tp.active = false
        ∧ handlerOk c k (tvecAt k k.clk.arch) = true))) ∧
    (isUrg (vm {}) = false ∧ ∀ ts ∈ ([0, 1, 2, 3] : List Nat), ∀ tpc ∈ ([0xFFFFFFFFFFFC, 2, 0x1000000000000] : List Nat),
      let u := urg (BitVec.ofNat 64 ts) (BitVec.ofNat 64 tpc)
      isUrg u = true ∧ guardOn u (sylField u 4 3) (sylField u 3 1) = true ∧ headPop u.cur.head = 0) ∧
    (isUrg (at_ (urg 0 0) 0 offSyl) = true ∧ guardOn (at_ (urg 0 0) 0 offSyl) (sylField (at_ (urg 0 0) 0 offSyl) 4 3) (sylField (at_ (urg 0 0) 0 offSyl) 3 1) = false) ∧
    (((vm {}).core c).tp.preempt = none ∧ ((pre handled).core c).tp.preempt = some (5, 0) ∧ 0 ≤ (pre handled).now
      ∧ handlerOk c ((pre handled).core c) (tvecAt ((pre handled).core c) ((pre handled).core c).clk.arch) = true
      ∧ ((pre handled).core c).tp.active = false ∧ ((pre handled).core c).run = .halted ∧ ((pre handled).core c).ph.inph = false
      ∧ ¬ (((pre handled).core c).ph.absent = true ∧ ((pre handled).core c).ph.phc < ((pre handled).core c).ph.length)) ∧
    (let idle : Core := { handled with run := .running, main := { next := 9 } }
     let off : Core := { handled with run := .halted, ph := { absent := true, phc := 4, length := 5 } }
     ¬ (idle.run = .halted ∨ idle.run = .running ∧ idle.main.next ≤ idle.clk.arch) ∧ off.ph.phc < off.ph.length
       ∧ ({ idle with clk := { arch := 9 } } : Core).main.next ≤ 9 ∧ 4 < ({ handled with tp := { preempt := some (0, 5) } } : Core).clk.arch + 5) ∧
    (((urg 0 0).core c).tp.active = true ∧ ((urg 0 0).core c).tp.entered = false ∧ ((urg 0 0).core c).urg.next ≤ ((urg 0 0).core c).clk.arch) := by
  refine ⟨⟨executes_of rfl, by decide +kernel⟩, ?_⟩
  and_intros <;> decide +kernel

theorem witness_BundlesEndAndFetch :
    let s (pop : W32) (k : Core) : State := { vm k with cur := { head := pop, len := 1 }, parts := { chans := [{ entries := [1] }] } :: List.replicate 7 {} }
    let base (s : State) : Prop := hasCore s s.cur.core = true ∧ s.cur.left = false ∧ waiting (cx s) = false ∧ s.cur.skip = none
    let loops (l : List LoopLvl) (r : List (Nat × W64)) : Core := { main := { loops := l, redirs := r } }
    let l (pos remain : Nat) : LoopLvl := { body := 8, len := 2, pos := pos, remain := remain }
    let q (l : List (Option QSrc)) : Core := { main := { q := l } }
    (∀ k ∈ [{}, loops [l 1 0] [], loops [l 2 1] [], loops [l 2 0] [], loops [l 2 0, l 1 0] [], loops [l 2 0, l 2 1] [], loops [] [(2, 8)], loops [] [(1, 8)],
        loops [] [(1, 8), (2, 16)]], base (s 0 k) ∧ headPop (s 0 k).cur.head = 0) ∧
    (∀ p ∈ ([0x200000, 0x400000, 0x600000, 0x1000000] : List Nat), base (s (BitVec.ofNat 32 p) {})) ∧ headPop 0x200000 = 1 ∧ headPop 0x400000 = 2 ∧ headPop 0x600000 = 3
      ∧ headPop 0x1000000 = 8 ∧
    (q [some (.rq 3), some (.rq 3), none, some .evq]).main.q.getD 1 none = some (.rq 3) ∧
    (let t := s 0x400000 (q [none, some (.chan 0), none, none])
     t.cur.core = ⟨false, 0⟩ ∧ (cx t).q.getD 1 none = some (.chan 0) ∧ partOf t t.cur.core < t.parts.length
      ∧ 0 < (getPart t (partOf t t.cur.core)).chans.length) := by
  and_intros <;> decide +kernel

/-- A control core whose fetch waits for a line, ahead of issue (b = 1) or not, in the main context or for the first bundle of its
handler. -/
def fetching (a b : W64) (handler : Bool) : State :=
  let st : Option Stall := some { kind := .fetch, a := a, b := b }
  { paged (cc { main := { stall := st }, urg := { stall := st, pc := a }, tr := { tvec := a }, tp := { active := handler } }) with
    parts := List.replicate 8 { formed := true } }

theorem witness_FetchMissFill :
    let c : CoreRef := ⟨true, 0⟩
    let x (s : State) (a : Nat) : Xlat × State := xlate s c 21 (64 * (a / 64)) true false
    let handler (s : State) : Prop := (s.core c).tp.active = true ∧ (s.core c).urg.pc = (s.core c).tr.tvec
    let good := fetching 0xFFFFFFC 0 false
    let bad (b : W64) (h : Bool) : State := fetching 0x10000000 b h
    let spoilt : State := { fetching 0x8000 0 false with syspoison := [0x200] }
    ((cc {}).ev.core = c ∧ ((cc {}).core c).ctx.stall = none) ∧
    (hasCore good good.ev.core = true ∧ (good.core c).ctx.stall = some { kind := .fetch, a := 0xFFFFFFC, b := 0 }
      ∧ (x good 0xFFFFFFC).1 = .ok 0xFFFFFC0 0x1D) ∧
    (∀ a n, SysClean (x good 0xFFFFFFC).2 a n) ∧
    (∀ b ∈ ([0, 1] : List Nat), ∀ h ∈ [false, true],
      (x (bad (BitVec.ofNat 64 b) h) 0x10000000).1 = .fault 1 ∧ (handler (bad (BitVec.ofNat 64 b) h) ↔ h = true)) ∧
    ((x spoilt 0x8000).1 = .ok 0x8000 0x1D ∧ ¬ handler spoilt ∧ 0x200 ∈ (x spoilt 0x8000).2.syspoison ∧ 0x200 ∉ (x spoilt 0x8000).2.syscerr
      ∧ 0x200 ∉ (x spoilt 0x8000).2.sysuerr) := by
  refine ⟨?_, ?_, fun a n => sysClean_of ⟨rfl, rfl, rfl⟩ a n, ?_, ?_⟩ <;> decide +kernel

theorem witness_FailedChecksStopTheBundle :
    let c : CoreRef := ⟨false, 0⟩
    let s : State := vm { handled with istore := [(0, 1)] }
    let b : Bundle := ⟨0x01000000, 0, 1, []⟩
    let v : Bundle := ⟨0x40000000, 0, 2, [⟨1, 0x60143000, .vrcp 0 5 3⟩]⟩
    let start : State := { beginBundle s c 0 v with cur := { (beginBundle s c 0 v).cur with
      fails := (unboundPops (beginBundle s c 0 v) (headPop v.head)).map (fun i => ((0x0C : W8), BitVec.ofNat 64 i, 15)) } }
    (hasCore s c = true ∧ (s.core c).tp.active = false ∧ handlerOk c (s.core c) (tvecAt (s.core c) (s.core c).clk.arch) = true) ∧
    (fetchBundle s c 0 = .words [1] ∧ decodeBundle false false [1] = .illegal [.portOwner] [15]) ∧
    (b.ops = [] ∧ (headPop b.head).getLsbD 3 = true ∧ (s.core c).main.q.getD 3 none = none) ∧
    (∃ t, runOps exec (eretLast v.ops) start = .next t ∧ (t.cur.fails != []) = true) :=
  ⟨by decide +kernel, by decide +kernel, by decide +kernel, exists_next (f := fun t => t.cur.fails != []) (by decide +kernel)⟩

theorem witness_FalseGuardsDoNothing :
    let s (k : Core) (syl : W32) : State := at_ (vm k) 0 syl
    let last : Core := { ph := { inph := true, phc := 9, length := 10 } }
    guardOn (s {} 0) 1 0 = false ∧ (last.ph.inph = true ∧ last.ph.phc + 1 = last.ph.length) ∧ ({} : Core).ph.inph = false ∧ guardOn (s last 0) 0 1 = false ∧
    guardOn (s {} offSyl) (sylField (s {} offSyl) 4 3) (sylField (s {} offSyl) 3 1) = false ∧
    (let u := s { tp := { active := true } } offSyl
     isUrg u = true ∧ guardOn u (sylField u 4 3) (sylField u 3 1) = false) := by
  decide +kernel

/-- A NOP and a VMAD make a legal bundle, with a lend value and without; ERET in the main context an illegal one. -/
theorem witness_BundlesDecodeBack :
    let shapes (ops : List Op) : List (Nat × Shape) := ops.map (fun o => (o.slot, shape o.syl o.ins))
    let two : List Op := [⟨0, 0, .nop⟩, ⟨1, 0x062410BF, .vmad 0 9 1 2 63⟩]
    let ret : List Op := [⟨0, 0xC1000000, .eret⟩]
    let fits (h : W32) (ops : List Op) : Prop :=
      ops.map (·.slot) = presentSlots h ∧ ∀ o ∈ ops, classOf o.ins = some (slotClass o.slot) ∧ encode 0 o.ins = some o.syl
    (fits 0xC0000000 two ∧ bundleIllegal false false 0xC0000000 (shapes two) = []) ∧
    (fits 0x80000000 ret ∧ bundleIllegal false false 0x80000000 (shapes ret) ≠ [] ∧ bundleIllegal false true 0x80000000 (shapes ret) = []) := by
  decide +kernel

/-- A chip whose core 0 issues these bytes next, with no duty granted to the vector slots. -/
def issues (l : List Host.Cell) : State := vm { run := .running, clk := { due := true }, codelen := 64, istore := l }

theorem witness_StepIssuesDecodedBundle :
    let c : CoreRef := ⟨false, 0⟩
    let ready (s : State) (b : Bundle) : Prop := mandatory s = some (.issue c)
      ∧ (∃ ws, fetchBundle s c 0 = .words ws ∧ decodeBundle false (s.core c).tp.active ws = .legal b) ∧ unboundPops (beginBundle s c 0 b) (headPop b.head) = []
    let place (s : State) (o : Op) : State := { s with cur := { s.cur with slot := o.slot, syl := o.syl } }
    let nop : Op := ⟨0, 0, .nop⟩
    let none_ := issues []
    let one := issues [(3, 0x80)]
    let traps := issues [(3, 0x40), (5, 0x30), (6, 0x14), (7, 0x60)]
    let bad : State := vm { run := .running, clk := { due := true }, codelen := 64, istore := [(3, 8), (6, 1), (7, 1)]
                            tp := { active := true, entered := true }, urg := { m := [0x800000] } }
    let load : Op := ⟨4, 0x01010000, .ldb 0 1 0 0⟩
    let two := issues [(3, 0xC0), (8, 0xBF), (9, 0x10), (10, 0x24), (11, 6)]
    let mad : Op := ⟨1, 0x062410BF, .vmad 0 9 1 2 63⟩
    let both : Bundle := ⟨0xC0000000, 0, 3, [nop, mad]⟩
    let begun := beginBundle two c 0 both
    let waits : State := vm { main := { pends := [{ slot := 0, due := 0 }] }, clk := { due := true } }
    let told : State := { vm {} with inputs := [(0, .irqwinWrite, { i := 63 })] }
    ready none_ ⟨0, 0, 1, []⟩ ∧
    (ready one ⟨0x80000000, 0, 2, [nop]⟩ ∧ ∃ t, exec .nop (place (beginBundle one c 0 ⟨0x80000000, 0, 2, [nop]⟩) nop) = .next t ∧ (t.cur.fails == []) = true) ∧
    (ready two both ∧ (∃ t, exec .nop (place begun nop) = .next t ∧ (t == place begun nop && t.cur.fails == []) = true)
      ∧ ∃ u, exec mad.ins (place (place begun nop) mad) = .next u ∧ (u.cur.fails == []) = true) ∧
    (ready bad ⟨0x08000000, 0, 2, [load]⟩ ∧ ∃ t, exec (.ldb 0 1 0 0) (place (beginBundle bad c 0 ⟨0x08000000, 0, 2, [load]⟩) load) = .next t
      ∧ (t.cur.fails != []) = true) ∧
    (mandatory traps = some (.early c) ∧ mandatory (vm {}) = some .half) ∧
    (nextAct waits).1 = .event .resultLanding { core := c } ∧
    (∃ x, told.inputs = x :: [] ∧ x.1 ≤ told.now ∧ outside x.2.1 = true ∧ unitOk told x.2.1 x.2.2 = true) ∧
    (let last : State := { vm {} with half := true }
     mandatory (vm { clk := { due := true } }) = some (.pass c) ∧ mandatory last = none ∧ optional last = [] ∧ lastDue last = none) := by
  refine ⟨⟨?_, ⟨[0], ?_⟩, ?_⟩, ⟨⟨?_, ⟨[0x80000000, 0], ?_⟩, ?_⟩, exists_next (f := fun t => t.cur.fails == []) ?_⟩,
    ⟨⟨?_, ⟨[0xC0000000, 0, 0x062410BF], ?_⟩, ?_⟩, exists_next (f := fun t => t == _ && t.cur.fails == []) ?_,
      exists_next (f := fun u => u.cur.fails == []) ?_⟩,
    ⟨⟨?_, ⟨[0x08000000, 0x01010000], ?_⟩, ?_⟩, exists_next (f := fun t => t.cur.fails != []) ?_⟩, ?_, ?_,
    ⟨(0, .irqwinWrite, { i := 63 }), ?_⟩, ?_⟩ <;> decide +kernel

theorem witness_GuardsRegister :
    let s := vm (regs [2, 0xFF])
    let p : Pend := { slot := 0, due := 0, effs := [.csr 2 0xFF] }
    let k : Core := { main := { pends := [p] } }
    (Executes s 0 0 ∧ srcS s 1 = 0x02) ∧
    (hasCore (vm k) (vm k).ev.core = true ∧ ((vm k).core ⟨false, 0⟩).ctx.pends = [p] ∧ shadowDue k = [] ∧ p.due ≤ k.clk.arch ∧ p.late = false
      ∧ lateTrap p = none ∧ p = { p with effs := [.csr 2 0xFF], dst := .none, latch := none }) ∧
    decodeBundle false false [0x80000000, 0] = .legal ⟨0x80000000, 0, 2, [⟨0, 0, .nop⟩]⟩ ∧ hasCore State.reset ⟨false, 127⟩ = true :=
  ⟨⟨executes_of rfl, by decide +kernel⟩, by decide +kernel, by decide +kernel, by decide +kernel⟩

theorem witness_LoopstAndIdent :
    let l : LoopLvl := { body := 0, len := 1, pos := 1, remain := 2 ^ 32 - 1 }
    let s := vm { regs [5, 6] with main := { (regs [5, 6]).main with loops := List.replicate 4 l } }
    let p (r : Nat) : Pend := { slot := 0, due := 0, effs := [.csr r 1] }
    let k (r : Nat) : Core := { main := { pends := [p r] } }
    Executes s 0 0 ∧ (srcS s 1 = 0x05 ∧ (cx s).loops.length = 4 ∧ (cx (vm {})).loops = []) ∧
    srcS s 2 = 0x06 ∧
    (∀ r ∈ [5, 6], hasCore (vm (k r)) (vm (k r)).ev.core = true ∧ ((vm (k r)).core ⟨false, 0⟩).ctx.pends = [p r] ∧ shadowDue (k r) = []
      ∧ (p r).due ≤ (k r).clk.arch ∧ (p r).late = false ∧ lateTrap (p r) = none
      ∧ p r = { p r with effs := [.csr r 1], dst := .none, latch := none, flags := 0, istat := 0 }) ∧ hasCore State.reset ⟨true, 7⟩ = true :=
  ⟨executes_of rfl, by decide +kernel, by decide +kernel, by decide +kernel, by decide +kernel⟩

theorem witness_StepKeepsMemoriesCanonical : Units State.reset ∧ MemoriesCanonical State.reset ∧ ∃ t, step State.reset = .next t ∧ true = true :=
  ⟨⟨by decide +kernel, by decide +kernel, by decide +kernel, by decide +kernel⟩, ⟨by decide +kernel, by decide +kernel, by decide +kernel⟩,
    exists_next (f := fun _ => true) (by decide +kernel)⟩

end Sys2Proof.Tests
end

section
/-!
The CSRs GUARDS, LOOPST and IDENT (06:R133 to R135): how they read, what a CSRW to them does when it lands, and their reset values.
A CSRW lands as a lone result in flight, so the part in the middle says once what RESULT_LANDING makes of one.
-/

namespace Sys2Proof

open Machine

/-! ### How the CSRs read -/

theorem sends_csrr {s : State} {g : BitVec 3} {n : BitVec 1} (d : BitVec 5) (a : BitVec 6) (h : Executes s g n) :
    Sends s (.csrr d a g n) [a] (wordResult s 1 d (csrRead s (srcS s a).toNat)) :=
  sends_resultS h rfl

theorem sends_csrw {s : State} {g : BitVec 3} {n : BitVec 1} (a b : BitVec 6) (h : Executes s g n) :
    Sends s (.csrw a b g n) [a, b] (effResult s 1 (.csr (srcS s a).toNat (srcS s b))) :=
  sends_effectS h rfl

/-- Bit i of a guard file whose g0 is forced to 1. -/
theorem getLsbD_or_one (g : W8) (i : Nat) : (g ||| 1).getLsbD i = if i = 0 then true else g.getLsbD i := by
  rw [BitVec.getLsbD_or, show (1 : W8) = 1#8 from rfl, BitVec.getLsbD_one]
  split <;> simp [*]

theorem getLsbD_csrGuards (x : Ctx) {i : Nat} (hi : i < 64) :
    (csrGuards x).getLsbD i = if i = 0 then true else if i ≤ 7 then x.g.getLsbD i else false := by
  rw [csrGuards, BitVec.getLsbD_setWidth, getLsbD_or_one]
  have high : 8 ≤ i → x.g.getLsbD i = false := BitVec.getLsbD_of_ge x.g i
  split
  · simp [hi]
  · split
    · simp [hi]
    · simpa [hi] using high (by omega)

theorem csrLoopst_nil {x : Ctx} (h : x.loops = []) : csrLoopst x = 0 := by
  unfold csrLoopst; rw [h]

theorem csrLoopst_cons {x : Ctx} {l : LoopLvl} {ls : List LoopLvl} (h : x.loops = l :: ls) :
    csrLoopst x = 0#24 ++ BitVec.ofNat 32 l.remain ++ 0#5 ++ BitVec.ofNat 3 x.loops.length := by
  unfold csrLoopst; rw [h]

theorem csrLoopst_reserved (x : Ctx) : (csrLoopst x).extractLsb' 40 24 = 0 ∧ (csrLoopst x).extractLsb' 3 5 = 0 := by
  cases h : x.loops with
  | nil => rw [csrLoopst_nil h]; decide
  | cons l ls =>
    rw [csrLoopst_cons h]
    constructor <;> repeat rw [BitVec.extractLsb'_append_eq_of_le (by decide)]
    · decide
    · exact BitVec.extractLsb'_append_eq_right

theorem csrLoopst_depth (x : Ctx) : (csrLoopst x).extractLsb' 0 3 = BitVec.ofNat 3 x.loops.length := by
  cases h : x.loops with
  | nil => rw [csrLoopst_nil h]; decide
  | cons l ls => rw [csrLoopst_cons h, BitVec.extractLsb'_append_eq_right, h]

theorem csrLoopst_remain_nil {x : Ctx} (h : x.loops = []) : (csrLoopst x).extractLsb' 8 32 = 0 := by
  rw [csrLoopst_nil h]; decide

theorem csrLoopst_remain_cons {x : Ctx} {l : LoopLvl} {ls : List LoopLvl} (h : x.loops = l :: ls) :
    (csrLoopst x).extractLsb' 8 32 = BitVec.ofNat 32 l.remain := by
  rw [csrLoopst_cons h]
  repeat rw [BitVec.extractLsb'_append_eq_of_le (by decide)]
  exact BitVec.extractLsb'_append_eq_right

theorem csrIdent_reserved (s : State) :
    (csrIdent s).extractLsb' 35 29 = 0 ∧ (csrIdent s).extractLsb' 25 7 = 0 ∧ (csrIdent s).extractLsb' 10 6 = 0 := by
  rw [csrIdent]
  refine ⟨?_, ?_, ?_⟩ <;> repeat rw [BitVec.extractLsb'_append_eq_of_le (by decide)]
  · decide
  · exact BitVec.extractLsb'_append_eq_right
  · exact BitVec.extractLsb'_append_eq_right

theorem csrIdent_numbers (s : State) :
    (csrIdent s).extractLsb' 32 3 = BitVec.ofNat 3 (partOf s s.cur.core) ∧ (csrIdent s).extractLsb' 16 9 = BitVec.ofNat 9 s.chip
      ∧ (csrIdent s).extractLsb' 0 8 = BitVec.ofNat 8 s.cur.core.num := by
  rw [csrIdent]
  refine ⟨?_, ?_, BitVec.extractLsb'_append_eq_right⟩ <;> repeat rw [BitVec.extractLsb'_append_eq_of_le (by decide)]
  · exact BitVec.extractLsb'_append_eq_right
  · exact BitVec.extractLsb'_append_eq_right

theorem csrIdent_flags (s : State) : (csrIdent s).getLsbD 9 = (me s).tp.active ∧ (csrIdent s).getLsbD 8 = s.cur.core.cc := by
  rw [csrIdent, isUrg, isCC]
  constructor
  · rw [BitVec.getLsbD_append, if_neg (by decide), BitVec.getLsbD_append, if_neg (by decide), BitVec.getLsbD_append, if_pos (by decide)]
    simp
  · rw [BitVec.getLsbD_append, if_neg (by decide), BitVec.getLsbD_append, if_pos (by decide)]
    simp

/-! ### A lone result lands -/

theorem coreBecomes_setCore {s : State} {c : CoreRef} (k : Core) (h : hasCore s c = true) : CoreBecomes s (s.setCore c k) c k where
  chip := by unfold State.setCore; split <;> rfl
  core := core_setCore_self _ _ _ h
  others _ hd := core_setCore_other _ _ _ _ hd
  units := ⟨setCore_vms_length _ _ _, setCore_ccs_length _ _ _⟩

theorem CoreBecomes.hasCore_eq {s t : State} {c : CoreRef} {k : Core} (h : CoreBecomes s t c k) (d : CoreRef) :
    hasCore t d = hasCore s d := by
  unfold hasCore; cases d.cc <;> simp [h.units]

theorem CoreBecomes.trans {s t u : State} {c : CoreRef} {k l : Core} (h : CoreBecomes s t c k) (g : CoreBecomes t u c l) :
    CoreBecomes s u c l where
  chip := by rw [g.chip, h.chip]
  core := g.core
  others d hd := (g.others d hd).trans (h.others d hd)
  units := ⟨g.units.1.trans h.units.1, g.units.2.trans h.units.2⟩

/-- A further change of the core that has changed. -/
theorem CoreBecomes.upd {s t : State} {c : CoreRef} {k : Core} (h : CoreBecomes s t c k) (hc : hasCore s c = true) (f : Core → Core) :
    CoreBecomes s (t.upd c f) c (f k) := by
  have hu := coreBecomes_setCore (s := t) (f (t.core c)) ((h.hasCore_eq c).trans hc)
  rw [h.core] at hu
  exact h.trans (by rw [State.upd, h.core]; exact hu)

/-- The one result in flight of the issuing context of k: due, not late, no entry of the shadow due beside it, and its result-time
checks pass. -/
structure LandsAlone (k : Core) (p : Pend) : Prop where
  pends : k.ctx.pends = [p]
  shadow : shadowDue k = []
  due : p.due ≤ k.clk.arch
  late : p.late = false
  trap : lateTrap p = none

theorem LandsAlone.isDue {k : Core} {p : Pend} (h : LandsAlone k p) : isDue k p = true := by
  simp [Machine.isDue, h.due, h.late]

theorem LandsAlone.pendsDue {k : Core} {p : Pend} (h : LandsAlone k p) : pendsDue k = [p] := by
  simp [Machine.pendsDue, h.pends, h.due, h.late]

theorem LandsAlone.removeDue {k : Core} {p : Pend} (h : LandsAlone k p) :
    removeDue k = k.updCtx (fun x => { x with pends := [] }) := by
  have hf : k.ctx.pends.filter (fun q => !Machine.isDue k q) = [] := by rw [h.pends]; simp [h.isDue]
  rw [Machine.removeDue, if_pos h.shadow, Core.updCtx, Core.updCtx, hf]

theorem lateChoice_of_passing (s : State) {p : Pend} (h : lateTrap p = none) : lateChoice s [p] = (none, s) := by
  simp [lateChoice, worstLates, worstLate, h]

/-- What RESULT_LANDING does with one result that passes its checks: it leaves those in flight, clears what its effects clear, and
lands. -/
theorem landing_alone {s : State} {c : CoreRef} {p : Pend} (h : LandsAlone (s.core c) p) :
    landing s c = landOne ((s.setCore c ((s.core c).updCtx (fun x => { x with pends := [] }))).upd c (p.effs.foldl clearFirst)) c p := by
  have hl : lateChoice s (if ended s c then [] else [p]) = (none, s) := by
    split
    · rfl
    · exact lateChoice_of_passing s h.trap
  simp only [landing, h.shadow, h.pendsDue, h.removeDue, List.nil_append, hl]
  rfl

theorem landOne_effect (s : State) (c : CoreRef) {p : Pend} {e : Eff} (hd : p.dst = .none) (hl : p.latch = none) (he : p.effs = [e]) :
    landOne s c p = applyEff (s.upd c (fun k => k.updCtx (fun x => raiseFlags x p.flags p.istat))) c e := by
  simp [landOne, hd, hl, he, writeDst]

/-- A lone CSR write that clears nothing lands: its flags are raised and it takes effect. -/
theorem landing_csr {s : State} {c : CoreRef} {p : Pend} {r : Nat} {v : W64} (hc : hasCore s c = true) (h : LandsAlone (s.core c) p)
    (hd : p.dst = .none) (hl : p.latch = none) (he : p.effs = [.csr r v]) (hr : 2 ≤ r) :
    ∃ u, landing s c = applyEff u c (.csr r v)
      ∧ CoreBecomes s u c ((s.core c).updCtx (fun x => raiseFlags { x with pends := [] } p.flags p.istat)) := by
  have hclear : p.effs.foldl clearFirst = id := by
    funext k
    rw [he, List.foldl_cons, List.foldl_nil, clearFirst, if_neg (by omega), if_neg (by omega), id]
  refine ⟨_, (landing_alone h).trans (landOne_effect _ _ hd hl he), ?_⟩
  rw [hclear]
  have hu := ((coreBecomes_setCore ((s.core c).updCtx (fun x => { x with pends := [] })) hc).upd hc id).upd hc
    (fun k => k.updCtx (fun x => raiseFlags x p.flags p.istat))
  rwa [id, updCtx_updCtx] at hu

theorem applyEff_guards (s : State) (c : CoreRef) (v : W64) :
    applyEff s c (.csr 2 v) = s.upd c (fun k => k.updCtx (fun x => { x with g := v.setWidth 8 ||| 1 })) := rfl

/-- LOOPST and IDENT are read-only. -/
theorem applyEff_readOnly (s : State) (c : CoreRef) {r : Nat} (v : W64) (h : r = 0x05 ∨ r = 0x06) : applyEff s c (.csr r v) = s := by
  rcases h with rfl | rfl <;> rfl

theorem raiseFlags_zero (x : Ctx) : raiseFlags x 0 0 = x := by simp [raiseFlags]

/-- A CSRW to GUARDS lands: the context takes the new guards, and the raised flags. -/
theorem landing_guards {s : State} {c : CoreRef} {p : Pend} {v : W64} (hc : hasCore s c = true) (h : LandsAlone (s.core c) p)
    (hd : p.dst = .none) (hl : p.latch = none) (he : p.effs = [.csr 2 v]) :
    CoreBecomes s (landing s c) c ((s.core c).updCtx (fun x =>
      { raiseFlags { x with pends := [] } p.flags p.istat with g := v.setWidth 8 ||| 1 })) := by
  obtain ⟨u, hu, hb⟩ := landing_csr hc h hd hl he (Nat.le_refl 2)
  rw [hu, applyEff_guards]
  have hg := hb.upd hc (fun k => k.updCtx (fun x => { x with g := v.setWidth 8 ||| 1 }))
  rwa [updCtx_updCtx] at hg

/-- A CSRW to LOOPST or IDENT lands: nothing is left of it. -/
theorem landing_readOnly {s : State} {c : CoreRef} {p : Pend} {r : Nat} {v : W64} (hc : hasCore s c = true) (h : LandsAlone (s.core c) p)
    (hd : p.dst = .none) (hl : p.latch = none) (he : p.effs = [.csr r v]) (hf : p.flags = 0) (hi : p.istat = 0) (hr : r = 0x05 ∨ r = 0x06) :
    CoreBecomes s (landing s c) c ((s.core c).updCtx (fun x => { x with pends := [] })) := by
  obtain ⟨u, hu, hb⟩ := landing_csr hc h hd hl he (by omega)
  rw [hu, applyEff_readOnly u c v hr]
  rw [hf, hi] at hb
  simpa only [raiseFlags_zero] using hb

/-! ### S operations of a bundle -/

/-- The operations that are decoded stand in the slots asked for, in that order. -/
theorem decodeOps_slots {ss : List Nat} {ws : List W32} {ops : List Op} (h : decodeOps ss ws = some ops) : ops.map (·.slot) = ss := by
  induction ss generalizing ws ops with
  | nil => cases h; rfl
  | cons a ss ih =>
    rw [decodeOps] at h
    split at h
    · rename_i i l _ hl
      cases h
      rw [List.map_cons, ih hl]
    · cases h

theorem decodeBundle_slots {cc urg : Bool} {ws : List W32} {b : Bundle} (h : decodeBundle cc urg ws = .legal b) :
    b.ops.map (·.slot) = presentSlots (ws.headD 0) := by
  unfold decodeBundle at h
  dsimp only at h
  split at h
  · cases h
  · rename_i ops hops
    split at h
    · cases h
      exact decodeOps_slots hops
    · cases h

theorem presentSlots_nodup (h : W32) : (presentSlots h).Nodup := List.Nodup.filter _ (by decide)

/-- A slot holds one operation at most. -/
theorem decodeBundle_slot_once {cc urg : Bool} {ws : List W32} {b : Bundle} (h : decodeBundle cc urg ws = .legal b) (n : Nat) :
    (b.ops.filter (fun o => o.slot = n)).length ≤ 1 := by
  have hn := List.nodup_iff_count_le_one.1 (presentSlots_nodup (ws.headD 0)) n
  rw [← decodeBundle_slots h, List.count, List.countP_map, List.countP_eq_length_filter] at hn
  exact hn

/-! ### Reset -/

theorem core_of_reset (c : CoreRef) : State.reset.core c = {} := by
  have hd : ∀ m i : Nat, (List.replicate m ({} : Core)).getD i {} = {} := fun m i => by
    rw [List.getD_eq_getElem?_getD, List.getElem?_replicate]; split <;> rfl
  unfold State.core State.reset
  cases c.cc
  · exact hd 128 _
  · exact hd 8 _

/-! ### The statements -/

/-- Settles O57. Each clause has its lemma above: how GUARDS reads, what a CSRW to it is and does when it lands, that a slot holds one
operation, and the core at reset. -/
theorem guardsRegister : Obligations.GuardsRegister := by
  refine ⟨fun s d e a b g n hx ha => ?_, fun s p v => ?_, fun cc urg ws b h => decodeBundle_slot_once h 0, fun c _ i h1 h7 => ?_⟩
  · have hn : (srcS s a).toNat = 2 := by rw [ha]; rfl
    have hr := sends_csrr d a hx
    have hw := sends_csrw a b hx
    rw [hn] at hr hw
    exact ⟨⟨csrGuards (cx s), hr, fun _ hi => getLsbD_csrGuards _ hi⟩, hw, fun _ => rfl⟩
  · intro c k hc hp hs hdue hlate htrap hshape
    have hb := landing_guards hc ⟨hp, hs, hdue, hlate, htrap⟩ (by rw [hshape]) (by rw [hshape]) (by rw [hshape])
    refine ⟨_, rfl, by rw [hb.chip], ?_, hb.others, ?_, fun i h1 h7 => ?_⟩
    all_goals rw [hb.core, ctx_updCtx]
    · rfl
    · exact getLsbD_or_one _ 0
    · dsimp only
      rw [getLsbD_or_one, if_neg (by omega), BitVec.getLsbD_setWidth, decide_eq_true (by omega : i < 8), Bool.true_and]
  · have hg : (1 : W8).getLsbD i = false := by
      rw [show (1 : W8) = 1#8 from rfl, BitVec.getLsbD_one, decide_eq_false (by omega : ¬ i = 0), Bool.and_false]
    rw [core_of_reset]
    exact ⟨hg, hg⟩

/-- Settles O58. Each clause has its lemmas above: the fields of LOOPST and IDENT, that a CSRW to them leaves nothing when it lands, and
the core at reset. -/
theorem loopstAndIdent : Obligations.LoopstAndIdent := by
  refine ⟨fun s d a g n hx => ⟨fun ha => ?_, fun ha => ?_⟩, fun s p v r => ?_, fun c _ => ?_⟩
  · have hr := sends_csrr d a hx
    rw [ha] at hr
    obtain ⟨hhigh, hlow⟩ := csrLoopst_reserved (cx s)
    refine ⟨csrLoopst (cx s), hr, hhigh, hlow, csrLoopst_depth _, ?_⟩
    cases hl : (cx s).loops with
    | nil => exact csrLoopst_remain_nil hl
    | cons l ls => exact csrLoopst_remain_cons hl
  · have hr := sends_csrr d a hx
    rw [ha] at hr
    obtain ⟨h35, h25, h10⟩ := csrIdent_reserved s
    obtain ⟨hpart, hchip, hcore⟩ := csrIdent_numbers s
    obtain ⟨hctx, hkind⟩ := csrIdent_flags s
    exact ⟨csrIdent s, hr, h35, hpart, h25, hchip, h10, hctx, hkind, hcore⟩
  · intro c k hc hp hs hdue hlate htrap hshape hread
    exact ⟨_, rfl, landing_readOnly hc ⟨hp, hs, hdue, hlate, htrap⟩ (by rw [hshape]) (by rw [hshape]) (by rw [hshape]) (by rw [hshape])
      (by rw [hshape]) hread⟩
  · rw [core_of_reset]
    exact ⟨rfl, rfl⟩

end Sys2Proof
end
